-- ==== Sys2Proof/Word.lean ====
section
/-! DEFINITION. The word types of the block and the type of a sparse table. -/
namespace Sys2Proof

/-- A byte (R7). -/
abbrev Byte := BitVec 8
/-- A register or a 32-bit data word (R9). -/
abbrev Word := BitVec 32
/-- The 64 data bits of a codeword (R247). -/
abbrev DWord := BitVec 64

/-- A sparse table: pairs of a number and a value, numbers strictly rising, no pair holding the
value that an unlisted number has. -/
abbrev Tab (α : Type) := List (Nat × α)

end Sys2Proof
end

