-- ==== Sys2Proof/Syntax.lean ====
section
/-! DEFINITION. The commands of the block: one constructor of `Instr` per row of the opcode table, with the operands
its sender supplies (an index, a value written, what the outside world shows at that event). -/
namespace Sys2Proof

/-- What a Landing request does (R24 to R28, R254). -/
inductive LndOp where
  | read (upset : BitVec 80)
  | write (mask : BitVec 8) (data : DWord) (poison : Bool)
  | rmw (and or : DWord)
deriving DecidableEq, Repr

/-- A Landing request of one codeword as a client presents it: port, the client's number within the port (an
engine on ports 0 and 1), byte offset and operation. `upset` are cells that changed in the array before the read. -/
structure LndReq where
  port : Fin 8
  client : Fin 4
  off : Nat
  op : LndOp
deriving DecidableEq, Repr

/-- What a feedback channel takes (R117, R118): quadrature levels with the ticks for which they have stood, or a sine and
cosine sample in microvolts. -/
inductive FbSample where
  | quad (a b : Bool) (stood : Nat)
  | sincos (sine cosine : Int)
deriving DecidableEq, Repr

/-- An SSI frame as received (R120): data bits, error bit, whether the number of ones that parity covers is odd, and
whether the start bit was seen. -/
structure SsiFrame where
  data : BitVec 48
  err : Bool
  odd : Bool
  start : Bool
deriving DecidableEq, Repr

/-- What the PTP engine and the best master clock algorithm of the standards make of a received message (R294): the
state of each port as the standard numbers it, the grandmaster identity, and a delay if the message completed one. -/
structure PtpResult where
  states : BitVec 16
  gm : BitVec 64
  delay : Option (BitVec 32)
deriving DecidableEq, Repr

/-- A CAN frame (R322). -/
structure CanFrame where
  xtd : Bool
  rtr : Bool
  fdf : Bool
  brs : Bool
  esi : Bool
  id : BitVec 29
  dlc : Fin 16
  data : List Byte
deriving DecidableEq, Repr

/-- How a transmit attempt ends (R326, R331): sent, arbitration lost, or an error of kind `lec` with what the rules of
ISO 11898-1 need: data phase, after the arbitration field, a dominant bit seen during the passive error flag, and how
often the transmit error counter rises again while the error is signalled. -/
inductive CanTxOutcome where
  | sent
  | lost
  | error (lec : Fin 8) (dataPhase afterArb dominantSeen : Bool) (again : Nat)
deriving DecidableEq, Repr

/-- What the safety engine's diagnostics show at a cycle end (R351, R356): its own counts of channels 0 to 23, outputs
(STO0 to STO7, BRK0 to BRK3) that read off while energised and that read energised while commanded off, and the faults
of its memory, program flow, block check value, rails and die temperatures. -/
structure SafObs where
  counts : List Int
  readOff : BitVec 12
  readOn : BitVec 12
  smem : Bool
  flow : Bool
  pcrc : Bool
  rail : Bool
  tempC : Bool
  tempN : Bool
deriving DecidableEq, Repr

/-- A request that reaches the function outside its BARs (R270, R271): a configuration read or write of a 32-bit word, the
read of word `w` of the capability with this identifier (`ext`: an extended one), a write that changes the power state (D3hot
or D0) or the MSI-X enable and function mask, or a request that needs an option the module does not support (an I/O request,
an AtomicOp). -/
inductive CfgReq where
  | read (dw : BitVec 10)
  | write (dw : BitVec 10) (v : Word)
  | capability (ext : Bool) (id : BitVec 16) (w : BitVec 4)
  | power (d3 : Bool)
  | msix (enable mask : Bool)
  | unsupported
deriving DecidableEq, Repr

/-- The commands, in the order of spec/opcode_table.json. -/
inductive Instr where
  /-- REGISTER_WRITE (R10): A host write to a register field that has no row of its own takes effect according to its access code, subject to the alignment and reserved-bit rules. -/
  | registerWrite (off width : Nat) (v same : Word)
  /-- LANDING_ACCESS (R27): A client read, write or read-modify-write request to the Landing is granted by bank arbitration and completes in grant order. -/
  | landingAccess (reqs : List LndReq)
  /-- REQUEST_PROMOTION (R26): A Landing request that has waited 64 CLK_FAB cycles is raised to class A until it is granted. -/
  | requestPromotion (seq : Nat)
  /-- REPEAT_REWRITE (R256): When the repeat count of a CE1 address reaches THRESH within a pass, the word is rewritten and WATCH is set. -/
  | repeatRewrite (bank w : Nat)
  /-- REFCLK_FALLBACK (R21): Loss of REFCLK with AUTOFB = 1 switches the PLL to the TCXO, clears REFSEL and sets REFLOSS. -/
  | refclkFallback (gap : Nat) (ppm : Int)
  /-- REFCLK_LOSS_CRITICAL (R22): Loss of REFCLK with AUTOFB = 0 asserts every STO group, writes a Tally record and performs event W. -/
  | refclkLossCritical (gap : Nat) (ppm : Int)
  /-- REFSEL_REQUEST (R23): A write of 1 to REFSEL while on the TCXO requests a switch to REFCLK. -/
  | refselRequest
  /-- REFSEL_WITHDRAW (R23): A write of 0 to REFSEL while a request waits withdraws the request. -/
  | refselWithdraw
  /-- REFCLK_SWITCH (R23): After REFCLK has stood within its limits for 1 ms, the PLL switches to REFCLK without losing an edge. -/
  | refclkSwitch (good : Nat)
  /-- SLEW_WRITE (R33): A write to HST_SLEW sets the nanoseconds to be absorbed by slewing and discards any accumulated fraction. -/
  | slewWrite (v : Word)
  /-- SLEW_END (R33): When HST_SLEW has counted down to 0, SLEWRATE becomes 0 and SLEWBUSY clears. -/
  | slewEnd
  /-- TIME_STEP (R34): A write of 1 to HST_TCTL.STEP loads device time from the step registers, or refuses the step with STEPREJ. -/
  | timeStep
  /-- TIME_SNAP (R35): A write of 1 to HST_TCTL.SNAP latches SEC, NS and HTIME from one edge. -/
  | timeSnap
  /-- RING_ENABLE (R41): A write of EN = 1 starts a ring at the first instant at least 2 µs later, withdraws a pending stop, or is refused with CFGERR. -/
  | ringEnable (n : Fin 8)
  /-- RING_DISABLE (R42): A write of EN = 0 lets the ring complete its present period and then stop sampling. -/
  | ringDisable (n : Fin 8)
  /-- RING_RELOAD (R43): A write of 1 to RELOAD requests that the shadow ring configuration be taken into use. -/
  | ringReload (n : Fin 8)
  /-- RELOAD_TAKE (R40): At the end of the present period the ring checks and takes the shadow configuration into use, re-anchoring its grid, or ignores the reload with CFGERR. -/
  | reloadTake (n : Fin 8)
  /-- HOIST_INSTANT (R38): On the first edge at which device time reaches t_k the ring applies pending outputs and samples its inputs. -/
  | hoistInstant (n : Fin 8) (dio : BitVec 48) (asleep : BitVec 16)
  /-- INPUT_DEADLINE (R49): At t_k + D the input image closes and step lists, axis generators and cyclic task releases start. -/
  | inputDeadline (n : Fin 8) (axes : Nat)
  /-- STEP_TIME_ADVANCE (R55): A TIME step advances at its N-th evaluation. -/
  | stepTimeAdvance (m : Fin 256)
  /-- STEP_TIMEOUT (R57): A COND step whose condition is still false at its N-th evaluation times out and follows TOACT. -/
  | stepTimeout (m : Fin 256)
  /-- STATION_DROP (R315): A CYCLIC station whose STALECNT reaches DROPN becomes DROPPED and receives no further blocks. -/
  | stationDrop (st : Fin 256)
  /-- CLE_PASS (R65): Once the step lists and generators of a ring have completed, the control-law engine runs the ring's chain of loops. -/
  | clePass (n : Fin 8) (loops : Nat)
  /-- PASS_PREEMPT (R51): A pass of a lower-numbered ring that becomes ready preempts a running higher pass at the next loop boundary. -/
  | passPreempt (n : Fin 8)
  /-- PASS_RESUME (R51): A preempted pass resumes at its next loop once the lower passes have completed. -/
  | passResume (n : Fin 8)
  /-- SEAL (R45): At t_k + S every staging slot of the ring is latched, late producers are marked and CYCLE_DOWN frames are sent. -/
  | ringSeal (n : Fin 8)
  /-- CLE_DISABLE (R461): Clearing CLE_CTL.EN ends every pass after the loop in progress, without marking it late. -/
  | cleDisable
  /-- CLE_CLRMAX (R68): A write of 1 to CLE_CTL.CLRMAX clears the maximum pass time of every ring. -/
  | cleClrmax
  /-- FILTER_COMMIT (R76): A write of 1 to CLE_FSETs.COMMIT takes all five shadow coefficients into use together. -/
  | filterCommit (f : Fin 512)
  /-- AXIS_DISABLE (R462): Clearing AXS_CTL.EN ends every generator pass after the axis in progress. -/
  | axisDisable
  /-- AXIS_CLRMAX (R92): A write of 1 to AXS_CTL.CLRMAX clears the maximum generator pass time of every ring. -/
  | axisClrmax
  /-- COMPARE_ENQUEUE (R110): A compare unit sees a change of CPUT and takes the new entries into its queue, or discards the queue on overflow. -/
  | compareEnqueue (u : Fin 64)
  /-- CAPTURE_RELEASE (R112): A compare unit sees a change of KGET and frees the consumed capture entries. -/
  | captureRelease (u : Fin 64)
  /-- COMPARE_FIRE (R111): The head entry fires when the source crosses its position, driving OUTLINE and optionally setting a task flag. -/
  | compareFire (u : Fin 64)
  /-- PULSE_END (R112): The compare pulse ends after PULSE ticks and the line returns to its ring value or safe level. -/
  | pulseEnd (u : Fin 64)
  /-- CAPTURE_EDGE (R112): An edge on CAPLINE latches the source position and HTIME pending the filter. -/
  | captureEdge (u : Fin 64) (level : Bool)
  /-- CAPTURE_CONFIRM (R112): A capture whose level has stood FILT ticks is written to the capture queue, or dropped when the queue is full. -/
  | captureConfirm (u : Fin 64)
  /-- FEEDBACK_RECORD_WRITE (R115): A channel writes its feedback record with the sample's position, observer values and flags. -/
  | feedbackRecordWrite (c : Fin 24)
  /-- SSI_FRAME_DONE (R120): A completed SSI frame is checked, unwrapped and cross-checked, and its record is written. -/
  | ssiFrameDone (c : Fin 24) (f : SsiFrame)
  /-- SSI_ABS_LOAD (R121): In SINCOS+SSI, an SSI value read at enable or after a fault sets the period count and REFOK. -/
  | ssiAbsLoad (c : Fin 24) (f : SsiFrame)
  /-- OBSERVER_UPDATE (R123): Every 1 µs each channel's third-order observer updates its velocity and acceleration estimates. -/
  | observerUpdate
  /-- STANDSTILL (R125): No count change for STILLT × 10 µs sets the observer to zero and sets STANDSTILL. -/
  | standstill (c : Fin 24)
  /-- OBSERVER_RESTART (R126): The first count change after standstill, the return of POSOK or STATEPSN restarts the observer from zero with SETTLING. -/
  | observerRestart (c : Fin 24) (psn : Bool)
  /-- SETTLING_END (R126): SETTLING clears 4/B after the observer restart. -/
  | settlingEnd (c : Fin 24)
  /-- REVERSAL_END (R127): REVERSAL clears 4/B after DIR flipped. -/
  | reversalEnd (c : Fin 24)
  /-- AMP_WARN_SET (R119): WCNT consecutive samples outside the warning window set AMPWARN. -/
  | ampWarnSet (c : Fin 24) (m : BitVec 16)
  /-- AMP_WARN_CLEAR (R119): WCNT consecutive samples back inside the warning window clear AMPWARN. -/
  | ampWarnClear (c : Fin 24) (m : BitVec 16)
  /-- AMP_FAULT_SET (R119): FCNT consecutive samples outside the fault window set AMPFLT, freeze the period count and clear REFOK. -/
  | ampFaultSet (c : Fin 24) (m : BitVec 16)
  /-- AMP_FAULT_CLEAR (R119): FCNT consecutive samples back inside the fault window clear AMPFLT. -/
  | ampFaultClear (c : Fin 24) (m : BitVec 16)
  /-- LINE_FAULT (R117): A pair whose differential voltage stays within ±100 mV for 1 µs sets LINE and clears POSOK and REFOK. -/
  | lineFault (c : Fin 24)
  /-- Z_ARM (R122): A write of 1 to FBK_ZCTLc.ZARM arms the Z input. -/
  | zArm (c : Fin 24)
  /-- Z_MARK (R122): A Z edge latches the count when armed, or is checked against CPR and ZTOL. -/
  | zMark (c : Fin 24) (stood : Nat)
  /-- FBK_CLRERR (R117): A write of 1 to FBK_CTL.CLRERR clears the error counts of every channel. -/
  | fbkClrerr
  /-- CONVERTER_WAKE (R147): A powered-down converter wakes 400 ns before its next sample instant. -/
  | converterWake (n : Fin 16)
  /-- CONVERSION_RESULT (R143): After an entry's last conversion the result word and scaled copy are written as one codeword. -/
  | conversionResult (n : Fin 16) (j : Fin 8) (codes : List (BitVec 18)) (err : BitVec 80)
  /-- CONVERTER_ENABLE (R144): A write of EN = 1 starts a converter with STALE slots, or refuses a configuration that breaks R144. -/
  | converterEnable (n : Fin 16)
  /-- REFERENCE_WINDOW (R149): The reference leaving or returning to its window sets or clears REFERR and writes a Tally record. -/
  | referenceWindow (agree : Bool)
  /-- INTERLEAVE_BURST (R154): An interleaved pair writes a burst of 16 samples and then the WIDX that covers it. -/
  | interleaveBurst (p : Fin 8) (samples : List (BitVec 18)) (err : BitVec 80)
  /-- CNV_CLRCNT (R146): A write of 1 to CNV_CTL.CLRCNT clears the counters of every converter. -/
  | cnvClrcnt
  /-- SNAPSHOT_COMPLETE (R163): When the header and input segments have been copied, the released task becomes READY. -/
  | snapshotComplete (t : Fin 256)
  /-- PUBLISH (R164): At the later of cycle end and the last ring period's deadline, the task's output segments are copied to their destinations with forces. -/
  | publish (t : Fin 256) (segs : Nat)
  /-- PROGRAM_RUN (R175): CMD RUN checks the task configurations, loads code and enters RUN, or refuses with RUNREJ. -/
  | programRun
  /-- PROGRAM_STOP (R175): CMD STOP ends further releases and lets running cycles complete. -/
  | programStop
  /-- STOP_COMPLETE (R175): The program enters STOP once the last running cycle has ended. -/
  | stopComplete
  /-- COLD_RESTART (R186): CMD COLD (event C) abandons cycles, sets every variable to its initial value, drops forces and enters RUN. -/
  | coldRestart
  /-- WARM_RESTART (R185): CMD WARM (event H) abandons cycles, restores retained areas from the newest checkpoint and enters RUN, or refuses with WARMREJ. -/
  | warmRestart
  /-- CHECKPOINT (R183): CMD CKPT triggers a checkpoint of the retained areas to MRAM. -/
  | checkpoint
  /-- CHECKPOINT_TIMER (R183): Every CKPER × 100 ms a checkpoint is triggered. -/
  | checkpointTimer
  /-- CHECKPOINT_GATHER_TIMEOUT (R184): On a power-fail trigger, a task still running after 2 ms is taken from the previous checkpoint and PARTIAL is set. -/
  | checkpointGatherTimeout
  /-- CHECKPOINT_COMMIT (R269): When the gathered areas are written, the slot header and COMMIT complete the checkpoint. -/
  | checkpointCommit
  /-- FORCE_COMMIT (R177): A write of 1 to TEX_FCTLf.COMMIT takes a force entry into use, or refuses a duplicate. -/
  | forceCommit (f : Fin 1024)
  /-- ONLINE_CHANGE_ARM (R181): A write of 1 to TEX_OCCTL.ARM checks the staged configuration, loads code and waits for a common instant. -/
  | onlineChangeArm
  /-- ONLINE_CHANGE_SWITCH (R181): At the first qualifying instant the carry copies run, banks switch and the tasks are released on the new images. -/
  | onlineChangeSwitch
  /-- ONLINE_CHANGE_TIMEOUT (R182): An online change with no qualifying instant within TMO ms is refused with TIMEOUT. -/
  | onlineChangeTimeout
  /-- ONLINE_CHANGE_ABORT (R182): A write of 1 to TEX_OCCTL.ABORT refuses an armed change with ABORTED. -/
  | onlineChangeAbort
  /-- DISPATCH (R191): A READY task is assigned to the lowest idle engine of its mask and its context is restored. -/
  | dispatch
  /-- PREEMPT (R192): A READY task with no idle engine preempts a less urgent preemptible task, whose context is saved. -/
  | preempt
  /-- EFLAG_SET (R194): A write of 1 to a bit of TEX_EFLAGt sets that event flag and may satisfy a wait or release. -/
  | eflagSet (t : Fin 256) (mask : Word)
  /-- EFLAG_CLEAR (R194): A write of 1 to a bit of TEX_EFLAGCt clears that event flag. -/
  | eflagClear (t : Fin 256) (mask : Word)
  /-- WAIT_TIMEOUT (R195): A wait whose timeout expires ends with R = 0 and TOUT set. -/
  | waitTimeout (t : Fin 256)
  /-- DELAY_EXPIRY (R199): A task in DELAY becomes READY at the tick boundary at which its delay expires. -/
  | delayExpiry (t : Fin 256)
  /-- TICK_BOUNDARY (R211): At each dispatcher tick boundary in deterministic mode the stamped effects are applied in order and reported. -/
  | tickBoundary
  /-- SLOT_FILL (R207): The dispatcher keeps a running group member's prefetch slot filled from eligible flumes. -/
  | slotFill (e : Fin 8)
  /-- ENGINE_LEAVE (R208): A write of 1 to a bit of TEX_ECMD.LEAVE preempts the engine's task and takes the engine out of the pool. -/
  | engineLeave (e : Fin 8)
  /-- ENGINE_FAULT (R244): An uncorrectable error in an engine abandons its cycle and takes the engine out of the pool with FAULT. -/
  | engineFault (e : Fin 8) (cause : Fin 4) (w : Nat)
  /-- ENGINE_JOIN (R209): A write of 1 to a bit of TEX_ECMD.JOIN starts the memory test of an engine outside the pool. -/
  | engineJoin (e : Fin 8)
  /-- ENGINE_TEST_DONE (R209): After the march test the engine's code is loaded, or the engine stays out on failure. -/
  | engineTestDone (e : Fin 8) (bad : Option (Bool × Nat))
  /-- ENGINE_POOL_ENTRY (R209): A loaded engine enters the pool at the next tick boundary and stranded tasks clear. -/
  | enginePoolEntry (e : Fin 8)
  /-- DISPATCH_CLRCNT (R203): A write of 1 to TEX_DCTL.CLRCNT clears TEX_DCNT. -/
  | dispatchClrcnt
  /-- LOAD_RETURN (R215): An outstanding Landing load returns its data and tag to the destination register. -/
  | loadReturn (e : Fin 8)
  /-- FENCE_RELEASE (R220): A waiting fence completes once every earlier load has returned and every store has been accepted. -/
  | fenceRelease (e : Fin 8)
  /-- ADD (R226): ALU ADD writes rs1 + rs2 modulo 2^32. -/
  | add (e : Fin 8) (rd rs1 rs2 : Fin 32)
  /-- SUB (R226): ALU SUB writes rs1 − rs2 modulo 2^32. -/
  | sub (e : Fin 8) (rd rs1 rs2 : Fin 32)
  /-- AND (R226): ALU AND writes rs1 AND rs2. -/
  | and (e : Fin 8) (rd rs1 rs2 : Fin 32)
  /-- OR (R226): ALU OR writes rs1 OR rs2. -/
  | or (e : Fin 8) (rd rs1 rs2 : Fin 32)
  /-- XOR (R226): ALU XOR writes rs1 XOR rs2. -/
  | xor (e : Fin 8) (rd rs1 rs2 : Fin 32)
  /-- SHL (R226): ALU SHL shifts rs1 left by rs2[4:0]. -/
  | shl (e : Fin 8) (rd rs1 rs2 : Fin 32)
  /-- SHR (R226): ALU SHR shifts rs1 right with zeros by rs2[4:0]. -/
  | shr (e : Fin 8) (rd rs1 rs2 : Fin 32)
  /-- SHRA (R226): ALU SHRA shifts rs1 right with copies of bit 31. -/
  | shra (e : Fin 8) (rd rs1 rs2 : Fin 32)
  /-- CMPLT (R226): ALU CMPLT writes 1 if rs1 < rs2 as signed values. -/
  | cmplt (e : Fin 8) (rd rs1 rs2 : Fin 32)
  /-- CMPLTU (R226): ALU CMPLTU writes 1 if rs1 < rs2 as unsigned values. -/
  | cmpltu (e : Fin 8) (rd rs1 rs2 : Fin 32)
  /-- MUL (R226): ALU MUL writes the low 32 bits of rs1 × rs2. -/
  | mul (e : Fin 8) (rd rs1 rs2 : Fin 32)
  /-- MULHS (R226): ALU MULHS writes the high 32 bits of the signed product. -/
  | mulhs (e : Fin 8) (rd rs1 rs2 : Fin 32)
  /-- MULHU (R226): ALU MULHU writes the high 32 bits of the unsigned product. -/
  | mulhu (e : Fin 8) (rd rs1 rs2 : Fin 32)
  /-- QUO (R226): ALU QUO writes the signed quotient truncated toward zero, or raises DIVZ. -/
  | quo (e : Fin 8) (rd rs1 rs2 : Fin 32)
  /-- QUOU (R226): ALU QUOU writes the unsigned quotient, or raises DIVZ. -/
  | quou (e : Fin 8) (rd rs1 rs2 : Fin 32)
  /-- MOD (R226): ALU MOD writes the signed remainder with the sign of rs1, or raises DIVZ. -/
  | mod (e : Fin 8) (rd rs1 rs2 : Fin 32)
  /-- MODU (R226): ALU MODU writes the unsigned remainder, or raises DIVZ. -/
  | modu (e : Fin 8) (rd rs1 rs2 : Fin 32)
  /-- MIN (R226): ALU MIN writes the signed minimum. -/
  | min (e : Fin 8) (rd rs1 rs2 : Fin 32)
  /-- MAX (R226): ALU MAX writes the signed maximum. -/
  | max (e : Fin 8) (rd rs1 rs2 : Fin 32)
  /-- MINU (R226): ALU MINU writes the unsigned minimum. -/
  | minu (e : Fin 8) (rd rs1 rs2 : Fin 32)
  /-- MAXU (R226): ALU MAXU writes the unsigned maximum. -/
  | maxu (e : Fin 8) (rd rs1 rs2 : Fin 32)
  /-- BTST (R226): ALU BTST writes bit rs2[4:0] of rs1. -/
  | btst (e : Fin 8) (rd rs1 rs2 : Fin 32)
  /-- BSET (R226): ALU BSET writes rs1 with bit rs2[4:0] set. -/
  | bset (e : Fin 8) (rd rs1 rs2 : Fin 32)
  /-- BCLR (R226): ALU BCLR writes rs1 with bit rs2[4:0] cleared. -/
  | bclr (e : Fin 8) (rd rs1 rs2 : Fin 32)
  /-- BFLIP (R226): ALU BFLIP writes rs1 with bit rs2[4:0] inverted. -/
  | bflip (e : Fin 8) (rd rs1 rs2 : Fin 32)
  /-- PTST (R226): ALU PTST writes 1 if rs1 carries a poison tag, as a clean result. -/
  | ptst (e : Fin 8) (rd rs1 : Fin 32)
  /-- FADD (R227): FPU FADD writes the binary32 sum under rounding mode rm. -/
  | fadd (e : Fin 8) (rm : Fin 5) (rd rs1 rs2 : Fin 32)
  /-- FSUB (R227): FPU FSUB writes the binary32 difference under rm. -/
  | fsub (e : Fin 8) (rm : Fin 5) (rd rs1 rs2 : Fin 32)
  /-- FMUL (R227): FPU FMUL writes the binary32 product under rm. -/
  | fmul (e : Fin 8) (rm : Fin 5) (rd rs1 rs2 : Fin 32)
  /-- FDIV (R227): FPU FDIV writes the binary32 quotient under rm. -/
  | fdiv (e : Fin 8) (rm : Fin 5) (rd rs1 rs2 : Fin 32)
  /-- FROOT (R227): FPU FROOT writes the binary32 square root of rs1 under rm. -/
  | froot (e : Fin 8) (rm : Fin 5) (rd rs1 : Fin 32)
  /-- FLO (R227): FPU FLO writes the IEEE 754 minimum of rs1 and rs2. -/
  | flo (e : Fin 8) (rd rs1 rs2 : Fin 32)
  /-- FHI (R227): FPU FHI writes the IEEE 754 maximum of rs1 and rs2. -/
  | fhi (e : Fin 8) (rd rs1 rs2 : Fin 32)
  /-- FCMPEQ (R228): FPU FCMPEQ writes 1 if rs1 equals rs2 as a quiet comparison. -/
  | fcmpeq (e : Fin 8) (rd rs1 rs2 : Fin 32)
  /-- FCMPLT (R228): FPU FCMPLT writes 1 if rs1 < rs2 as a signalling comparison. -/
  | fcmplt (e : Fin 8) (rd rs1 rs2 : Fin 32)
  /-- FCMPLE (R228): FPU FCMPLE writes 1 if rs1 ≤ rs2 as a signalling comparison. -/
  | fcmple (e : Fin 8) (rd rs1 rs2 : Fin 32)
  /-- FTOI (R228): FPU FTOI converts rs1 to a saturating signed integer under rm. -/
  | ftoi (e : Fin 8) (rm : Fin 5) (rd rs1 : Fin 32)
  /-- FTOIU (R228): FPU FTOIU converts rs1 to a saturating unsigned integer under rm. -/
  | ftoiu (e : Fin 8) (rm : Fin 5) (rd rs1 : Fin 32)
  /-- ITOF (R227): FPU ITOF converts signed rs1 to binary32 under rm. -/
  | itof (e : Fin 8) (rm : Fin 5) (rd rs1 : Fin 32)
  /-- UTOF (R227): FPU UTOF converts unsigned rs1 to binary32 under rm. -/
  | utof (e : Fin 8) (rm : Fin 5) (rd rs1 : Fin 32)
  /-- FCPYS (R227): FPU FCPYS writes the magnitude of rs1 with the sign of rs2. -/
  | fcpys (e : Fin 8) (rd rs1 rs2 : Fin 32)
  /-- FNEGS (R227): FPU FNEGS writes the magnitude of rs1 with the inverted sign of rs2. -/
  | fnegs (e : Fin 8) (rd rs1 rs2 : Fin 32)
  /-- FXORS (R227): FPU FXORS writes the magnitude of rs1 with the XOR of both signs. -/
  | fxors (e : Fin 8) (rd rs1 rs2 : Fin 32)
  /-- FKIND (R227): FPU FKIND writes the class code and sign of rs1. -/
  | fkind (e : Fin 8) (rd rs1 : Fin 32)
  /-- FMAC (R227): FMA FMAC writes rs1 × rs2 + rs3 rounded once. -/
  | fmac (e : Fin 8) (rd rs1 rs2 rs3 : Fin 32)
  /-- FMSB (R227): FMA FMSB writes rs1 × rs2 − rs3 rounded once. -/
  | fmsb (e : Fin 8) (rd rs1 rs2 rs3 : Fin 32)
  /-- FNMAC (R227): FMA FNMAC writes −(rs1 × rs2) − rs3 rounded once. -/
  | fnmac (e : Fin 8) (rd rs1 rs2 rs3 : Fin 32)
  /-- FNMSB (R227): FMA FNMSB writes −(rs1 × rs2) + rs3 rounded once. -/
  | fnmsb (e : Fin 8) (rd rs1 rs2 rs3 : Fin 32)
  /-- ADDK (R225): ADDK writes rs1 plus the sign-extended immediate. -/
  | addk (e : Fin 8) (rd rs1 : Fin 32) (imm : BitVec 16)
  /-- ANDK (R225): ANDK writes rs1 AND the zero-extended immediate. -/
  | andk (e : Fin 8) (rd rs1 : Fin 32) (imm : BitVec 16)
  /-- ORK (R225): ORK writes rs1 OR the zero-extended immediate. -/
  | ork (e : Fin 8) (rd rs1 : Fin 32) (imm : BitVec 16)
  /-- XORK (R225): XORK writes rs1 XOR the zero-extended immediate. -/
  | xork (e : Fin 8) (rd rs1 : Fin 32) (imm : BitVec 16)
  /-- CMPLTK (R225): CMPLTK writes 1 if rs1 is less than the immediate as signed values. -/
  | cmpltk (e : Fin 8) (rd rs1 : Fin 32) (imm : BitVec 16)
  /-- CMPLTUK (R225): CMPLTUK writes 1 if rs1 is less than the sign-extended immediate as unsigned values. -/
  | cmpltuk (e : Fin 8) (rd rs1 : Fin 32) (imm : BitVec 16)
  /-- SHK_SHL (R225): SHK with imm[6:5] = 0 shifts rs1 left by imm[4:0]. -/
  | shkShl (e : Fin 8) (rd rs1 : Fin 32) (sh : BitVec 5)
  /-- SHK_SHR (R225): SHK with imm[6:5] = 1 shifts rs1 right with zeros by imm[4:0]. -/
  | shkShr (e : Fin 8) (rd rs1 : Fin 32) (sh : BitVec 5)
  /-- SHK_SHRA (R225): SHK with imm[6:5] = 2 shifts rs1 right arithmetically by imm[4:0]. -/
  | shkShra (e : Fin 8) (rd rs1 : Fin 32) (sh : BitVec 5)
  /-- HIK (R225): HIK writes the immediate shifted left by 16. -/
  | hik (e : Fin 8) (rd : Fin 32) (imm : BitVec 16)
  /-- GO (R225): GO jumps to the word offset target. -/
  | go (e : Fin 8) (imm : BitVec 26)
  /-- CALL (R225): CALL writes pc + 4 to g31 and jumps to the target. -/
  | call (e : Fin 8) (imm : BitVec 26)
  /-- GOR (R225): GOR writes pc + 4 to rd and jumps to the word-aligned register target. -/
  | gor (e : Fin 8) (rd rs1 : Fin 32) (imm : BitVec 16)
  /-- BREQ (R225): BREQ branches if rs1 equals rs2. -/
  | breq (e : Fin 8) (rs1 rs2 : Fin 32) (imm : BitVec 16)
  /-- BRNE (R225): BRNE branches if rs1 differs from rs2. -/
  | brne (e : Fin 8) (rs1 rs2 : Fin 32) (imm : BitVec 16)
  /-- BRLT (R225): BRLT branches if rs1 < rs2 as signed values. -/
  | brlt (e : Fin 8) (rs1 rs2 : Fin 32) (imm : BitVec 16)
  /-- BRGE (R225): BRGE branches if rs1 ≥ rs2 as signed values. -/
  | brge (e : Fin 8) (rs1 rs2 : Fin 32) (imm : BitVec 16)
  /-- BRLTU (R225): BRLTU branches if rs1 < rs2 as unsigned values. -/
  | brltu (e : Fin 8) (rs1 rs2 : Fin 32) (imm : BitVec 16)
  /-- BRGEU (R225): BRGEU branches if rs1 ≥ rs2 as unsigned values. -/
  | brgeu (e : Fin 8) (rs1 rs2 : Fin 32) (imm : BitVec 16)
  /-- GETC (R235): GETC reads a control register into rd, latching HTHI on a read of HTLO. -/
  | getc (e : Fin 8) (rd : Fin 32) (imm : BitVec 16)
  /-- PUTC (R235): PUTC writes rs1 to a writable control register. -/
  | putc (e : Fin 8) (imm : BitVec 16) (rs1 : Fin 32)
  /-- LDB (R225): LDB loads a sign-extended byte. -/
  | ldb (e : Fin 8) (rd rs1 : Fin 32) (imm : BitVec 16)
  /-- LDBU (R225): LDBU loads a zero-extended byte. -/
  | ldbu (e : Fin 8) (rd rs1 : Fin 32) (imm : BitVec 16)
  /-- LDH (R225): LDH loads a sign-extended halfword. -/
  | ldh (e : Fin 8) (rd rs1 : Fin 32) (imm : BitVec 16)
  /-- LDHU (R225): LDHU loads a zero-extended halfword. -/
  | ldhu (e : Fin 8) (rd rs1 : Fin 32) (imm : BitVec 16)
  /-- LDW (R225): LDW loads a 32-bit word. -/
  | ldw (e : Fin 8) (rd rs1 : Fin 32) (imm : BitVec 16)
  /-- LDP (R225): LDP loads a 64-bit pair into rd and rd+1. -/
  | ldp (e : Fin 8) (rd rs1 : Fin 32) (imm : BitVec 16)
  /-- STB (R225): STB stores a byte as a partial write. -/
  | stb (e : Fin 8) (rs2 rs1 : Fin 32) (imm : BitVec 16)
  /-- STH (R225): STH stores a halfword as a partial write. -/
  | sth (e : Fin 8) (rs2 rs1 : Fin 32) (imm : BitVec 16)
  /-- STW (R225): STW stores a 32-bit word as a partial write. -/
  | stw (e : Fin 8) (rs2 rs1 : Fin 32) (imm : BitVec 16)
  /-- STP (R239): STP stores a register pair as a full codeword write. -/
  | stp (e : Fin 8) (rs2 rs1 : Fin 32) (imm : BitVec 16)
  /-- ATSWAP (R229): ATSWAP atomically replaces the Landing word with rs2 and returns the old word. -/
  | atswap (e : Fin 8) (rd rs1 rs2 : Fin 32)
  /-- ATADD (R229): ATADD atomically adds rs2 and returns the old word. -/
  | atadd (e : Fin 8) (rd rs1 rs2 : Fin 32)
  /-- ATAND (R229): ATAND atomically ANDs rs2 and returns the old word. -/
  | atand (e : Fin 8) (rd rs1 rs2 : Fin 32)
  /-- ATOR (R229): ATOR atomically ORs rs2 and returns the old word. -/
  | ator (e : Fin 8) (rd rs1 rs2 : Fin 32)
  /-- ATXOR (R229): ATXOR atomically XORs rs2 and returns the old word. -/
  | atxor (e : Fin 8) (rd rs1 rs2 : Fin 32)
  /-- ATMIN (R229): ATMIN atomically keeps the signed minimum and returns the old word. -/
  | atmin (e : Fin 8) (rd rs1 rs2 : Fin 32)
  /-- ATMAX (R229): ATMAX atomically keeps the signed maximum and returns the old word. -/
  | atmax (e : Fin 8) (rd rs1 rs2 : Fin 32)
  /-- ATMINU (R229): ATMINU atomically keeps the unsigned minimum and returns the old word. -/
  | atminu (e : Fin 8) (rd rs1 rs2 : Fin 32)
  /-- ATMAXU (R229): ATMAXU atomically keeps the unsigned maximum and returns the old word. -/
  | atmaxu (e : Fin 8) (rd rs1 rs2 : Fin 32)
  /-- ATCAS (R229): ATCAS atomically writes rs2 if the word equals rd and returns the old word. -/
  | atcas (e : Fin 8) (rd rs1 rs2 : Fin 32)
  /-- CEND (R236): CEND fences, returns items and ends the cycle for publishing. -/
  | cend (e : Fin 8)
  /-- WAITF (R231): WAITF waits on the task's own flags, ending at once if the condition already holds. -/
  | waitf (e : Fin 8) (rd rs1 rs2 : Fin 32)
  /-- DELAY (R231): DELAY places the task in DELAY for rs1 µs, or yields for 0. -/
  | delay (e : Fin 8) (rs1 : Fin 32)
  /-- HWAIT (R231): HWAIT waits for the sampling instant with the named hoist number of a ring. -/
  | hwait (e : Fin 8) (rd rs1 rs2 : Fin 32)
  /-- FSET (R232): FSET sets flags of the named task after a fence. -/
  | fset (e : Fin 8) (rs1 rs2 : Fin 32)
  /-- FCLR (R232): FCLR clears flags of the named task after a fence. -/
  | fclr (e : Fin 8) (rs1 rs2 : Fin 32)
  /-- FGET (R230): FGET reads the task's own flags. -/
  | fget (e : Fin 8) (rd : Fin 32)
  /-- RGET (R230): RGET reads the flags delivered by the last release or wait. -/
  | rget (e : Fin 8) (rd : Fin 32)
  /-- POST (R233): POST offers a work item to a flume and returns acceptance or the refusal cause. -/
  | post (e : Fin 8) (rd rs1 rs2 : Fin 32)
  /-- TAKE (R233): TAKE takes a work item from the prefetch slot or pool into service, or returns empty. -/
  | take (e : Fin 8) (rd : Fin 32)
  /-- DONE (R233): DONE ends service of the taken item of a flume, or raises DONEERR. -/
  | done (e : Fin 8) (rs1 : Fin 32)
  /-- FENCE (R220): FENCE holds later accesses until earlier loads return and stores are accepted. -/
  | fence (e : Fin 8)
  /-- XRET (R242): XRET returns from the exception handler to the word-aligned EPC. -/
  | xret (e : Fin 8)
  /-- TRAP (R230): TRAP raises the TRAP exception with its code in EVAL. -/
  | trap (e : Fin 8) (code : BitVec 15)
  /-- SCRUB_READ (R255): The patrol scrubber reads the next codeword and writes back any error it finds. -/
  | scrubRead (upset : BitVec 80)
  /-- SCRUB_PASS_END (R256): At the end of a scrub pass entries without WATCH are cleared and the next pass begins. -/
  | scrubPassEnd
  /-- ERROR_LOG_POP (R259): A write of 1 to LND_ELCTL.POP removes the head entry of the error log. -/
  | errorLogPop
  /-- PAGE_RETIRE (R260): Setting LND_RCTLp.VALID retires the named page and persists it if requested. -/
  | pageRetire (p : Fin 256)
  /-- PAGE_RESTORE (R262): Clearing LND_RCTLp.VALID returns the page to use and removes it from the persistent list. -/
  | pageRestore (p : Fin 256)
  /-- BANK_COPY_START (R263): A write of 1 to LND_BCPY.START begins a mirrored copy of a logical bank to a FREE physical bank, or refuses it. -/
  | bankCopyStart
  /-- BANK_COPY_DONE (R263): After the last line, the bank map switches to the destination and the source goes OUT. -/
  | bankCopyDone
  /-- BANK_COPY_ABORT (R264): A write of 1 to LND_BCPY.ABORT ends mirroring and returns the destination to FREE. -/
  | bankCopyAbort
  /-- BANK_TEST_START (R265): A write of 1 to LND_BTEST.START runs a march test over a FREE or OUT bank, or refuses it. -/
  | bankTestStart
  /-- BANK_TEST_DONE (R265): A finished bank test puts the bank in FREE or OUT and logs failing words. -/
  | bankTestDone (failing : List (Nat × BitVec 80))
  /-- MRAM_READ (R267): A write of 1 to LND_MCTL.RD reads one MRAM codeword into the window registers. -/
  | mramRead
  /-- MRAM_WRITE (R267): A write of 1 to LND_MCTL.WR writes the window data to an open MRAM region, or sets ERR. -/
  | mramWrite
  /-- MRAM_WINDOW_DONE (R267): A window transfer completes and RD or WR reads 0 again. -/
  | mramWindowDone
  /-- LANDING_CLRCNT (R253): A write of 1 to LND_CTL.CLRCNT clears the error and retirement counters. -/
  | landingClrcnt
  /-- FUNCTION_LEVEL_RESET (R272): PERST_N, a function-level reset or a D3hot to D0 transition performs event F on the host interface island. -/
  | functionLevelReset
  /-- HIF_READY (R271): The host interface becomes ready and stops answering with Configuration Request Retry Status. -/
  | hifReady
  /-- CONFIG_REQUEST (R271): A PCI Express configuration request is answered, with CRS while the island is not ready. -/
  | configRequest (r : CfgReq)
  /-- BAR2_READ (R274): A host read through BAR2 returns Landing data, poisoned or zero completions as the data demands. -/
  | bar2Read (off : BitVec 26) (n : Fin 4097)
  /-- BAR2_WRITE (R274): A host write through BAR2 is performed as Landing writes, or discarded. -/
  | bar2Write (off : BitVec 26) (data : List (Option Byte))
  /-- HOST_RING_ENABLE (R277): A write of EN = 1 starts a ring with counts at 0, or refuses an invalid configuration. -/
  | hostRingEnable (r : Fin 42)
  /-- HOST_RING_DISABLE (R277): A write of EN = 0 stops the ring at the next boundary and aborts held commands. -/
  | hostRingDisable (r : Fin 42)
  /-- HOST_RING_ERROR (R278): A failed host memory access or poisoned fetch stops the ring with ERR and its cause. -/
  | hostRingError (r : Fin 42) (cause : Fin 16)
  /-- DOORBELL (R279): A write to DBL_RINGr updates the host's count of a running ring, or is ignored and counted. -/
  | doorbell (r : Fin 42) (count : Word) (descs : List (BitVec 256))
  /-- NOP (R280): Command NOP does nothing and completes. -/
  | nop (raw : BitVec 256)
  /-- WR64 (R280): Command WR64 writes DATA to a Landing codeword as a full write. -/
  | wr64 (raw : BitVec 256)
  /-- MWR32 (R280): Command MWR32 merges DATA into a Landing word under MASK as one read-modify-write. -/
  | mwr32 (raw : BitVec 256)
  /-- COPYIN (R280): Command COPYIN copies bytes from host memory into the Landing. -/
  | copyin (raw : BitVec 256) (words : List (BitVec 64 × Bool)) (failed : Bool) (pause : Option Nat)
  /-- COPYOUT (R280): Command COPYOUT copies bytes from the Landing to host memory. -/
  | copyout (raw : BitVec 256) (failed pause : Option Nat)
  /-- CMD_FSET (R280): Command FSET sets event flags of a task as a host source. -/
  | cmdFset (raw : BitVec 256)
  /-- CMD_POST (R280): Command POST posts a work item to a flume as a host source. -/
  | cmdPost (raw : BitVec 256)
  /-- ATH_RELEASE (R283): A command held to a hoist is performed on the firing edge of that instant, or completes with MISSED or NORING. -/
  | athRelease
  /-- SETPOINT_PERFORM (R287): At its hoist instant a set-point descriptor is written to its slot, or discarded as late or malformed. -/
  | setpointPerform (r : Fin 32)
  /-- EVENT_ENTRY_WRITE (R285): A pending island event queues one event entry in the completion ring when there is room. -/
  | eventEntryWrite
  /-- INTERRUPT (R286): A ring's MSI-X vector is sent when ICNT entries or ITIME µs have accumulated. -/
  | interrupt (r : Fin 42)
  /-- HIF_CLRCNT (R288): A write of 1 to HIF_CTL.CLRCNT clears HIF_DBIGN and every HIF_SPCNTr. -/
  | hifClrcnt
  /-- PTP_MESSAGE_RECEIVE (R295): A received PTP message is timestamped and processed by the PTP engine and best master clock algorithm. -/
  | ptpMessageReceive (port : Fin 4) (kind : Fin 16) (domain : BitVec 8) (err : Fin 9) (r : PtpResult)
  /-- SYNC_RECEIVE (R297): A Sync received on the SLAVE port feeds its offset to the servo, which adjusts rate, slews or steps. -/
  | syncReceive (port : Fin 4) (origin : Int) (err : Fin 9) (logIvl : BitVec 8)
  /-- SERVO_LOCK (R297): Eight consecutive samples within LOCKTHR set LOCKED. -/
  | servoLock
  /-- HOLDOVER_ENTER (R298): An announce timeout, a grandmaster change or three missing Syncs puts the servo into holdover. -/
  | holdoverEnter (syncLost : Bool)
  /-- HOLDOVER_EXIT (R298): After HOLDQ qualifying samples the servo leaves holdover. -/
  | holdoverExit
  /-- LISTENING_END (R296): After three announce intervals in LISTENING a PTP port may become MASTER. -/
  | listeningEnd (port : Fin 4) (st : Fin 16)
  /-- PTP_TRANSMIT (R294): At its intervals the PTP engine sends Announce, Sync, Follow_Up and delay messages. -/
  | ptpTransmit (port : Fin 4) (kind : Fin 16)
  /-- LINK_CHANGE (R291): An Ethernet link coming up or going down sets LINKCHG and writes a Tally record. -/
  | linkChange (port : Fin 4) (up : Bool)
  /-- SIDE_TRANSMIT (R300): A change of TXPUT sends the side-path frames in order and writes requested timestamps. -/
  | sideTransmit (port : Fin 4)
  /-- SIDE_FRAME_RECEIVE (R301): A side-path frame is written into the next receive slot, or dropped when full. -/
  | sideFrameReceive (port : Fin 4) (frame : List Byte) (fcsOk : Bool)
  /-- HAIL_RECEIVE (R311): A HAIL frame drives the station's admission state machine or enters the discovery list. -/
  | hailReceive (port : Fin 4) (frame : List Byte) (fcsOk : Bool)
  /-- CYCLE_UP_RECEIVE (R306): An accepted CYCLE_UP frame writes the station payload, status word and feedback records. -/
  | cycleUpReceive (port : Fin 4) (frame : List Byte) (fcsOk : Bool)
  /-- CYCLE_DOWN_RECEIVE (R375): A received CYCLE_DOWN frame updates the highest claim seen. -/
  | cycleDownReceive (port : Fin 4) (frame : List Byte) (fcsOk : Bool)
  /-- ADMIT_RESEND (R313): A parameter frame without ACK after 8 base periods is resent, and after three resends the station is released. -/
  | admitResend (st : Fin 256)
  /-- STATION_RECORD_ENABLE (R311): Setting EN in a station record moves the station from OFF to IDLE. -/
  | stationRecordEnable (st : Fin 256)
  /-- STATION_RELEASE (R316): A write to NET_STCMD with RELEASE = 1 sends RELEASE to the station and puts it in IDLE. -/
  | stationRelease (st : Fin 256)
  /-- NET_CLRCNT (R300): A write of 1 to NET_CTL.CLRCNT clears the port and Pennant counters. -/
  | netClrcnt
  /-- DISCOVERY_CLEAR (R311): A write of 1 to NET_CTL.DCLR empties the discovery list. -/
  | discoveryClear
  /-- CAN_ENABLE (R332): A write of EN = 1 starts a CAN controller listening for 200 ms, or refuses an invalid bit timing. -/
  | canEnable (c : Fin 4)
  /-- CAN_LISTEN_END (R332): After 200 ms of listening the controller begins bus integration. -/
  | canListenEnd (c : Fin 4)
  /-- CAN_INTEGRATED (R331): After 11 consecutive recessive bits the controller leaves INTEGRATING. -/
  | canIntegrated (c : Fin 4)
  /-- CAN_TX_REQUEST (R324): A set request bit makes a buffer or send object pending for selection. -/
  | canTxRequest (c : Fin 4)
  /-- CAN_TX_ABORT (R327): A set abort bit ends a pending request with ABORTED unless its frame is on the bus. -/
  | canTxAbort (c : Fin 4)
  /-- CAN_FRAME_START (R325): At each point where a frame may start, the controller selects a pending frame and sends it. -/
  | canFrameStart (c : Fin 4) (lag : Fin 52) (err : Int)
  /-- CAN_TX_END (R327): A transmit attempt ends in SENT, loses arbitration or meets an error and is counted. -/
  | canTxEnd (c : Fin 4) (r : CanTxOutcome) (delay : Option (BitVec 8))
  /-- ID_COLLISION (R331): A third consecutive bit error after arbitration on one identifier sets IDCOL. -/
  | idCollision (c : Fin 4)
  /-- CAN_FRAME_RECEIVE (R329): A valid received frame is matched against receive objects and stored or queued. -/
  | canFrameReceive (c : Fin 4) (f : CanFrame) (ago : BitVec 32) (err : Int)
  /-- CAN_RX_RELEASE (R330): An advance of RXGET returns queue entries to the controller. -/
  | canRxRelease (c : Fin 4)
  /-- CAN_BUSOFF_RECOVERY (R331): After 128 sequences of 11 recessive bits a bus-off controller resets its counters and integrates. -/
  | canBusoffRecovery (c : Fin 4)
  /-- DOMINANT_TIMEOUT (R319): A dominant drive lasting 1.0 ms is released by the transceiver and DOMTO is set. -/
  | dominantTimeout (c : Fin 4)
  /-- CAN_CLRCNT (R330): A write of 1 to CAN_CTL.CLRCNT clears CAN_CNTc of every controller. -/
  | canClrcnt
  /-- SAFETY_CYCLE (R335): At the end of each 250 µs safety cycle the engine takes every safety decision and writes its status record. -/
  | safetyCycle (d : SafObs)
  /-- SAFE_INPUT_CHANGE (R342): A contact of a safe input changes level and its filter time starts. -/
  | safeInputChange (n : Fin 12) (contactB closed : Bool)
  /-- CONTACT_ACCEPTED (R342): A contact state that has stood FILT ms is accepted. -/
  | contactAccepted (n : Fin 12) (contactB : Bool)
  /-- DISCREPANCY_TIMEOUT (R342): Accepted contact states that disagree for longer than DISC ms raise SINDISC. -/
  | discrepancyTimeout (n : Fin 12)
  /-- TEST_PULSE (R341): A test-pulse source pulls low for 400 µs and the contacts are checked for shorts. -/
  | testPulse (sourceB : Bool) (staysHigh crossLow : BitVec 12)
  /-- OUTPUT_TEST_PULSE (R356): An energised output receives its off-pulse every TPOUT ms and is read back. -/
  | outputTestPulse (out : Fin 12) (stayedOn : Bool)
  /-- OUTPUT_WATCHDOG (R338): No heartbeat for 3 ms makes the output die open every output switch and SDIS. -/
  | outputWatchdog
  /-- CLOCK_CHECK (R356): Every 1 ms the island checks CLK_TB and device time against CLK_SAF. -/
  | clockCheck (ppm : Int) (advanced : Nat)
  /-- SDIS_TEST (R337): SDIS is opened and closed with every output open and checked by read-back. -/
  | sdisTest (ok : Bool)
  /-- SAFETY_INIT_DONE (R354): When the self-test and SDIS test pass, the island leaves INIT for NORMAL or UNCONF. -/
  | safetyInitDone
  /-- GROUP_RESET (R347): A write of bit g of SAF_CMD.ACK is a reset for group g. -/
  | groupReset (mask : BitVec 8)
  /-- HALFMAST_END (R358): A write of SAF_CMD.HMEND ends the half-mast time at once. -/
  | halfmastEnd
  /-- HALFMAST_TIMEOUT (R358): When HMTIME has elapsed, every group in RUN takes a demand. -/
  | halfmastTimeout
  /-- HALFMAST_ACK (R358): A write of SAF_CMD.FACK returns MSTATE from HALFMAST to NORMAL once every group is in STO. -/
  | halfmastAck
  /-- BRAKE_LEAD_END (R350): BLEAD ms after the brakes drop, the group in SS1 enters STO. -/
  | brakeLeadEnd (g : Fin 8)
  /-- BRAKE_TEST_START (R352): SAF_BTCMD.START begins a brake test, or refuses it. -/
  | brakeTestStart (b : Fin 4)
  /-- BRAKE_TEST_TORQUE (R352): 200 ms into a brake test the island writes the test torque. -/
  | brakeTestTorque (b : Fin 4)
  /-- BRAKE_TEST_PASS (R352): TTEST ms after the torque write the island writes 0.0 and the test passes. -/
  | brakeTestPass (b : Fin 4)
  /-- BRAKE_TEST_ABORT (R352): SAF_BTCMD.ABORT ends the running test with ABORTED. -/
  | brakeTestAbort
  /-- BRAKE_TEST_DUE (R353): When BTINT hours pass without a passing test, DUE is set. -/
  | brakeTestDue (b : Fin 4)
  /-- PARAM_LOAD (R362): SAF_PCMD.LOAD copies and checks a parameter block and stages it, or refuses it. -/
  | paramLoad
  /-- PARAM_CONFIRM (R363): SAF_PCMD.CONFIRM with a matching check value stores the block in MRAM and takes it into use. -/
  | paramConfirm
  /-- PARAM_DISCARD (R363): SAF_PCMD.DISCARD drops the staged block. -/
  | paramDiscard
  /-- SAFE_RESET (R359): 100 ms after entering SAFE the module performs event W, unless SAFELOCK holds it. -/
  | safeReset
  /-- CLAIM_TRANSMIT (R372): Every 10 µs, and on any ensign change, the unit sends a CLAIM frame on both lanes. -/
  | claimTransmit
  /-- CLAIM_RECEIVE (R372): A received CLAIM updates the partner claim and time offset and may cause a yield or take-over. -/
  | claimReceive (lane : Fin 2) (frame : List Byte)
  /-- CLAIM_WINDOW_EXPIRY (R375): A claim not seen within CLAIMWIN × 100 µs drops out of TRH_HIGH. -/
  | claimWindowExpiry
  /-- LANE_DOWN (R372): A lane with no valid frame for 20 µs is down and traffic moves to the other lane. -/
  | laneDown (lane : Fin 2)
  /-- LANE_UP (R372): A lane with 1 ms of valid frames is up again. -/
  | laneUp (lane : Fin 2)
  /-- LINK_LOSS_TIMEOUT (R389): A standby that receives no valid frame on both lanes for LOSSTO µs takes over when allowed. -/
  | linkLossTimeout
  /-- NEGOTIATION_END (R380): After 50 ms of negotiation the unit enters ACTIVE or SYNC. -/
  | negotiationEnd
  /-- HOIST_FRAME_RECEIVE (R385): A standby writes received HOIST records into its own loop, axis and list state. -/
  | hoistFrameReceive (lane : Fin 2) (frame : List Byte) (psn : List Nat)
  /-- RET_FRAME_RECEIVE (R386): A standby stores received retained data and writes it before the task's next snapshot. -/
  | retFrameReceive (lane : Fin 2) (frame : List Byte) (psn : List Nat)
  /-- HANDOVER (R390): A write of 1 to TRH_CTL.HANDOVER requests a commanded dip, or is refused with HOREJ. -/
  | handover
  /-- HANDOVER_DIP (R390): At the next HR0 seal the active unit dips with cause COMMAND. -/
  | handoverDip
  /-- PULL_RECEIVE (R391): A received PULL makes the active unit run a pass of its mirrored image. -/
  | pullReceive (lane : Fin 2) (frame : List Byte)
  /-- PASSDATA_RECEIVE (R391): A standby writes received pass data into its Landing. -/
  | passdataReceive (lane : Fin 2) (frame : List Byte) (psn : List Nat)
  /-- PASS_START_RECEIVE (R391): PASSCTL START begins a pass on the standby. -/
  | passStartReceive (lane : Fin 2) (frame : List Byte)
  /-- PASS_ROUND2_RECEIVE (R391): PASSCTL ROUND2 begins the re-sent blocks and forwarded writes. -/
  | passRound2Receive (lane : Fin 2) (frame : List Byte)
  /-- PASS_END_RECEIVE (R391): PASSCTL END is checked against the image CRC and the standby enters INSTEP or pulls again. -/
  | passEndReceive (lane : Fin 2) (frame : List Byte)
  /-- TERHA_CLRCNT (R371): A write of 1 to TRH_CTL.CLRCNT clears TRH_CNT. -/
  | terhaClrcnt
  /-- TALLY_WRITE (R396): A queued event is written to the next Tally record or counted as a repeat. -/
  | tallyWrite
  /-- TALLY_REPEAT_UPDATE (R397): During a flood the last record's repeat count and LAST are written at most once per ms. -/
  | tallyRepeatUpdate
  /-- TALLY_READ (R399): A write to TLY_CUR.INDEX loads that record into the window registers. -/
  | tallyRead (index : Fin 32768)
  /-- TALLY_NEXT (R399): A write of 1 to TLY_WSTAT.NEXT loads the next record. -/
  | tallyNext
  /-- TALLY_UNLOCK (R400): A write of a key to TLY_UNLOCK advances the clear sequence or resets it. -/
  | tallyUnlock (key : Word)
  /-- TALLY_UNLOCK_TIMEOUT (R400): A gap longer than 1 ms resets the clear sequence. -/
  | tallyUnlockTimeout
  /-- TALLY_CLEAR (R400): A write of 1 to TLY_CLR.CLEAR after the unlock writes a CLEARED record and starts zeroing. -/
  | tallyClear
  /-- TALLY_CLEAR_DONE (R400): The zeroing of the Tally completes and waiting events are written. -/
  | tallyClearDone
  /-- RECORD_START (R408): ARM with MODE = 1 starts recording with HDR, REG and BASE entries, or is refused. -/
  | recordStart
  /-- RECORD_STOP (R408): A write of MODE = 0 ends recording with a HDR entry. -/
  | recordStop
  /-- RECORD_ENTRY_DRAIN (R407): Staged record entries are written into a free RS ring slot, or dropped with a GAP. -/
  | recordEntryDrain
  /-- TRACE_ENABLE (R409): A write of EN from 0 to 1 starts or restarts the trace ring. -/
  | traceEnable
  /-- TRACE_FREEZE (R410): After TLY_TRPOST further entries the trace ring freezes. -/
  | traceFreeze
  /-- REPLAY_START (R411): ARM with MODE = 2 enters replay in deterministic mode, or is refused. -/
  | replayStart
  /-- REPLAY_INJECT (R412): The injector writes recorded entries to the Landing at their instants. -/
  | replayInject
  /-- REPLAY_ABORT (R413): A write of MODE = 0 during replay ends it with ABORT. -/
  | replayAbort
  /-- POWER_ON_RESET (R421): VBUS rising through the warning-clear level with the rails off brings up the rails and performs event P. -/
  | powerOnReset (mv : BitVec 16)
  /-- ANALOGUE_RAIL_FAULT (R421): An analogue rail leaving its window drops PG_ANA and holds the converters and DACs reset. -/
  | analogueRailFault
  /-- HOLDUP_CHARGED (R427): The hold-up bank reaches full charge and HURDY is set. -/
  | holdupCharged (mv10 : BitVec 16)
  /-- POWER_FAIL_WARNING (R424): VBUS below the warning level sets PFW, writes the Tally queue and triggers a checkpoint. -/
  | powerFailWarning (mv : BitVec 16)
  /-- POWER_FAIL_CLEAR (R425): VBUS standing above the warning-clear level for 1 ms clears the warning and records the dip. -/
  | powerFailClear (lowest : BitVec 16) (dur : Word)
  /-- BROWN_OUT (R426): VBUS below the reset level dips the ensign, opens STO and BRK, sheds load and leads to event B. -/
  | brownOut (mv : BitVec 16)
  /-- HOLDUP_EXHAUSTED (R427): The hold-up bank reaches its floor and the rails fall. -/
  | holdupExhausted
  /-- BOOT (R438): Boot verifies firmware, applies the stored configuration, sets the blaze and starts the program. -/
  | boot
  /-- MODULE_WATCHDOG_RESET (R430): An unserviced watchdog or other watchdog cause dips the ensign, writes the Tally and performs event W. -/
  | moduleWatchdogReset (src : Fin 16)
  /-- SOFTWARE_RESET (R431): A write to PWR_CMD with the key and SRST = 1 performs event S. -/
  | softwareReset (v : Word)
  /-- STANDBY_ENTRY (R432): STANDBY_N low for 1 ms enters standby, or is refused with STBYREJ. -/
  | standbyEntry
  /-- STANDBY_EXIT (R432): STANDBY_N high with VBUS present leaves standby and boots. -/
  | standbyExit
  /-- KEEP_SOURCE_SWITCH (R420): VKEEP rising or falling switches the keep domain's supply. -/
  | keepSourceSwitch (vkeep : Bool)
  /-- RTC_UPDATE (R440): At each change of SEC the keep domain copies device time into the RTC. -/
  | rtcUpdate
  /-- TIME_GATE_OPEN (R442): When the servo locks or the module is grandmaster, boot runs pass 3 and starts the program. -/
  | timeGateOpen
  /-- TIME_GATE_TIMEOUT (R442): After TLTMO seconds without lock, boot writes a Tally record and proceeds. -/
  | timeGateTimeout
  /-- OUTPUT_RELEASE (R443): The output-release latch sets on the first edge at which the program is in RUN and the safety island has released. -/
  | outputRelease
  /-- SPS_SWITCH (R445): Setting or clearing a bit of PWR_SPSCTL.EN switches a sensor supply on or off. -/
  | spsSwitch (n : Fin 8) (enable : Bool)
  /-- SPS_LIMIT (R445): A sensor supply whose energy limit acts sets its LIM bit and runs at the limit. -/
  | spsLimit (n : Fin 8)
  /-- KEEP_WRITE (R446): A write to PWR_KEEPw merges into the keep SRAM codeword as a partial write. -/
  | keepWrite (w : Fin 8192) (v : Word)
  /-- KEEP_READ (R446): A read of an uncorrectable keep SRAM word returns its data and sets KPSN. -/
  | keepRead (w : Fin 8192) (upset : BitVec 80)
  /-- LIST_CONTROL (R53): A host write of START, STOP or HOLD to HST_LCTLm moves a step list to ARMED, IDLE, HELD or back to RUN. -/
  | listControl (m : Fin 256) (v : Word)
  /-- COUNT_CHANGE (R117): An accepted quadrature edge or SINCOS sample changes the decoded count, sets DIR and REVERSAL, or raises PHASE or OVERRATE and clears REFOK. -/
  | countChange (c : Fin 24) (v : FbSample)
  /-- LINE_CLEAR (R117): A pair whose differential voltage leaves the ±100 mV window ends LINE, restoring POSOK and, in SINCOS+SSI, prompting a new SSI read. -/
  | lineClear (c : Fin 24)
  /-- CAN_RECEIVE_ERROR (R331): An error detected on the CAN bus while the controller receives raises REC under ISO 11898-1 and may change its fault confinement state or raise a protocol exception. -/
  | canReceiveError (c : Fin 4) (lec : Fin 8) (dataPhase plus8 exception : Bool)
  /-- PASSCTL_END_SEND (R391): The active unit finishes a pass by sending the loop, axis and list records and PASSCTL END with the image CRC, and TRH_PASS.BUSY clears. -/
  | passctlEndSend
deriving DecidableEq, Repr

end Sys2Proof
end

