-- ==== Sys2Proof/Decode.lean ====
section
/-! DEFINITION. Commands from words. No row of the opcode table gives its command any bits, so no word spells one. -/
namespace Sys2Proof

/-- The command a word of `nbits` bits spells by the table's bits: none of the table's rows has bits. -/
def decodeTableWord (_nbits _w : Nat) : Option Instr := none

end Sys2Proof
end

