-- ==== Sys2Proof/Machine/Tab.lean ====
section
/-! DEFINITION. Sparse tables: look-up, update and their canonical form. -/
namespace Sys2Proof.Machine

/-- The value a table holds for number `k`; `d` is what an unlisted number has. -/
def tabAt {α : Type} (d : α) : Tab α → Nat → α
  | [], _ => d
  | (k', v) :: t, k => if k = k' then v else tabAt d t k

/-- The table without the pairs of number `k`. -/
def tabDel {α : Type} : Tab α → Nat → Tab α
  | [], _ => []
  | (k', v) :: t, k => if k = k' then tabDel t k else (k', v) :: tabDel t k

/-- Put a pair in front of the first pair with a larger number. -/
def tabIns {α : Type} : Tab α → Nat → α → Tab α
  | [], k, v => [(k, v)]
  | (k', v') :: t, k, v => if k < k' then (k, v) :: (k', v') :: t else (k', v') :: tabIns t k v

/-- Give number `k` the value `v`; a value equal to the unlisted one removes the pair. -/
def tabPut {α : Type} [DecidableEq α] (d : α) (t : Tab α) (k : Nat) (v : α) : Tab α :=
  if v = d then tabDel t k else tabIns (tabDel t k) k v

/-- The numbers of a table rise strictly, each above `lo` (`lo` counts one up: `k ≥ lo`). -/
def tabRising {α : Type} : Nat → Tab α → Bool
  | _, [] => true
  | lo, (k, _) :: t => decide (lo ≤ k) && tabRising (k + 1) t

/-- The canonical form of a table. -/
def tabWf {α : Type} [DecidableEq α] (d : α) (t : Tab α) : Bool :=
  tabRising 0 t && t.all (fun p => decide (p.2 ≠ d))

/-- Insert a number into a rising list of numbers. -/
def setIns : List Nat → Nat → List Nat
  | [], k => [k]
  | a :: l, k => if k < a then k :: a :: l else if k = a then a :: l else a :: setIns l k

/-- Remove a number from a list of numbers. -/
def setDel (l : List Nat) (k : Nat) : List Nat := l.filter (fun a => a ≠ k)

/-- Put a number into the set, or take it out. -/
def setTo (l : List Nat) (k : Nat) (b : Bool) : List Nat := if b then setIns l k else setDel l k

/-- The numbers `lo`, `lo + 1`, …: `n` of them. -/
def upFrom (lo : Nat) : Nat → List Nat
  | 0 => []
  | n + 1 => lo :: upFrom (lo + 1) n

end Sys2Proof.Machine
end

