-- ==== Sys2Proof/Machine/Bits.lean ====
section
/-! DEFINITION. Bit fields, two's complement, saturation and little-endian byte order (R6 to R8). -/
namespace Sys2Proof.Machine

/-- Bits `[lo + w - 1 : lo]` of a number (R6). -/
def bitsOf (v lo w : Nat) : Nat := (v / 2 ^ lo) % 2 ^ w

/-- Bit `i` of a number. -/
def bitAt (v i : Nat) : Bool := (v / 2 ^ i) % 2 == 1

/-- A number as a `w`-bit two's-complement value (R8). -/
def sInt (w v : Nat) : Int :=
  let u := v % 2 ^ w
  if u < 2 ^ (w - 1) then (u : Int) else (u : Int) - (2 : Int) ^ w

/-- The `w`-bit two's-complement code of an integer (R8). -/
def uOf (w : Nat) (x : Int) : Nat := (x % ((2 : Int) ^ w)).toNat

/-- An integer held between two limits. -/
def clampI (lo hi x : Int) : Int := if x < lo then lo else if hi < x then hi else x

/-- Count up without passing a `w`-bit limit. -/
def satAdd (w a b : Nat) : Nat := Nat.min (a + b) (2 ^ w - 1)

/-- 1 for true, 0 for false. -/
def b2n (b : Bool) : Nat := if b then 1 else 0

/-- The `n` bytes of a number, lowest first (R7). -/
def leBytes : Nat → Nat → List Byte
  | 0, _ => []
  | n + 1, v => BitVec.ofNat 8 v :: leBytes n (v / 256)

/-- The number whose bytes these are, lowest first (R7). -/
def leNat : List Byte → Nat
  | [] => 0
  | b :: l => b.toNat + 256 * leNat l

/-- The bytes of a number in network order, `n` of them. -/
def beBytes (n v : Nat) : List Byte := (leBytes n v).reverse

/-- The number a network-order byte string spells. -/
def beNat (l : List Byte) : Nat := leNat l.reverse

/-- Round a quotient to the nearest integer, ties to even (`den > 0`). -/
def divRoundEven (num : Int) (den : Nat) : Int :=
  let q := num / (den : Int)
  let r := num - q * (den : Int)
  if 2 * r < (den : Int) then q
  else if 2 * r > (den : Int) then q + 1
  else if q % 2 = 0 then q else q + 1

/-- Integer square root by bits: the greatest `r` with `r * r ≤ n`, `n < 4 ^ k`. -/
def isqrtGo (n : Nat) : Nat → Nat → Nat
  | 0, r => r
  | k + 1, r => let c := r + 2 ^ k; isqrtGo n k (if c * c ≤ n then c else r)

/-- Integer square root. -/
def isqrt (n : Nat) : Nat := isqrtGo n (Nat.log2 n / 2 + 1) 0

/-- The exclusive or of the bits of a number, `w` of them. -/
def parityOf : Nat → Nat → Bool
  | 0, _ => false
  | w + 1, v => (v % 2 == 1) != parityOf w (v / 2)

/-- Reflected CRC of a byte string: `poly` is the reflected polynomial. -/
def crcBit (poly : Nat) : Nat → Nat → Nat
  | 0, c => c
  | n + 1, c => crcBit poly n (if c % 2 = 1 then Nat.xor (c / 2) poly else c / 2)

/-- One byte more of a reflected CRC. -/
def crcByte (poly c : Nat) (b : Byte) : Nat := crcBit poly 8 (Nat.xor c b.toNat)

/-- CRC-32C with the parameters of R361: reflected, initial value and final XOR all ones. -/
def crc32c (l : List Byte) : Nat :=
  Nat.xor (l.foldl (crcByte 0x82F63B78) 0xFFFFFFFF) 0xFFFFFFFF

/-- One bit of the unreflected CRC-16 of R395. -/
def crc16Bit : Nat → Nat → Nat
  | 0, c => c
  | n + 1, c =>
    crc16Bit n ((if c / 2 ^ 15 % 2 = 1 then Nat.xor (c * 2) 0x1021 else c * 2) % 2 ^ 16)

/-- CRC-16 of a byte string (R395): polynomial 0x1021, initial value 0xFFFF, no reflection. -/
def crc16 (l : List Byte) : Nat :=
  l.foldl (fun c b => crc16Bit 8 (Nat.xor c (b.toNat * 256))) 0xFFFF

end Sys2Proof.Machine
end

