-- ==== Sys2Proof/Machine/Encoding.lean ====
section
/-! DEFINITION. The words of JV32 (R224 to R227, R229, R230): what an engine makes of the word at its pc, and the word of
an instruction. -/
namespace Sys2Proof.Machine

/-! ### Fields of a word (R224) -/

/-- A register field from bit `lo` up. -/
def regField (w : Word) (lo : Nat) : Fin 32 := ⟨bitsOf w.toNat lo 5, Nat.mod_lt _ (by decide)⟩
/-- imm [15:0]. -/
def immField (w : Word) : BitVec 16 := w.setWidth 16
/-- imm [25:0]. -/
def jField (w : Word) : BitVec 26 := w.setWidth 26
/-- `i` if a field the instruction does not use is 0. -/
def ifZero (unused : Nat) (i : Instr) : Option Instr := if unused = 0 then some i else none

/-! ### The decoder -/

/-- Major opcode 0x01 by func (R226). -/
def decodeAlu (e : Fin 8) (func : Nat) (rd rs1 rs2 : Fin 32) : Option Instr :=
  match func with
  | 0x000 => some (.add e rd rs1 rs2)
  | 0x001 => some (.sub e rd rs1 rs2)
  | 0x002 => some (.and e rd rs1 rs2)
  | 0x003 => some (.or e rd rs1 rs2)
  | 0x004 => some (.xor e rd rs1 rs2)
  | 0x005 => some (.shl e rd rs1 rs2)
  | 0x006 => some (.shr e rd rs1 rs2)
  | 0x007 => some (.shra e rd rs1 rs2)
  | 0x008 => some (.cmplt e rd rs1 rs2)
  | 0x009 => some (.cmpltu e rd rs1 rs2)
  | 0x00A => some (.mul e rd rs1 rs2)
  | 0x00B => some (.mulhs e rd rs1 rs2)
  | 0x00C => some (.mulhu e rd rs1 rs2)
  | 0x00D => some (.quo e rd rs1 rs2)
  | 0x00E => some (.quou e rd rs1 rs2)
  | 0x00F => some (.mod e rd rs1 rs2)
  | 0x010 => some (.modu e rd rs1 rs2)
  | 0x011 => some (.min e rd rs1 rs2)
  | 0x012 => some (.max e rd rs1 rs2)
  | 0x013 => some (.minu e rd rs1 rs2)
  | 0x014 => some (.maxu e rd rs1 rs2)
  | 0x015 => some (.btst e rd rs1 rs2)
  | 0x016 => some (.bset e rd rs1 rs2)
  | 0x017 => some (.bclr e rd rs1 rs2)
  | 0x018 => some (.bflip e rd rs1 rs2)
  | 0x019 => ifZero rs2 (.ptst e rd rs1)
  | _ => none

/-- An FPU function that takes a rounding mode (R227); `r2` is the field rs2. -/
def decodeFpuRm (e : Fin 8) (f : Nat) (rm : Fin 5) (rd rs1 r2 : Fin 32) : Option Instr :=
  match f with
  | 0x00 => some (.fadd e rm rd rs1 r2)
  | 0x01 => some (.fsub e rm rd rs1 r2)
  | 0x02 => some (.fmul e rm rd rs1 r2)
  | 0x03 => some (.fdiv e rm rd rs1 r2)
  | 0x04 => ifZero r2 (.froot e rm rd rs1)
  | 0x0A => ifZero r2 (.ftoi e rm rd rs1)
  | 0x0B => ifZero r2 (.ftoiu e rm rd rs1)
  | 0x0C => ifZero r2 (.itof e rm rd rs1)
  | 0x0D => ifZero r2 (.utof e rm rd rs1)
  | _ => none

/-- An FPU function without a rounding mode (R227). -/
def decodeFpuPlain (e : Fin 8) (f : Nat) (rd rs1 r2 : Fin 32) : Option Instr :=
  match f with
  | 0x05 => some (.flo e rd rs1 r2)
  | 0x06 => some (.fhi e rd rs1 r2)
  | 0x07 => some (.fcmpeq e rd rs1 r2)
  | 0x08 => some (.fcmplt e rd rs1 r2)
  | 0x09 => some (.fcmple e rd rs1 r2)
  | 0x0E => some (.fcpys e rd rs1 r2)
  | 0x0F => some (.fnegs e rd rs1 r2)
  | 0x10 => some (.fxors e rd rs1 r2)
  | 0x11 => ifZero r2 (.fkind e rd rs1)
  | _ => none

/-- Major opcode 0x02 by func: rm in [10:8], [7:6] = 0, the function in [5:0] (R227). -/
def decodeFpu (e : Fin 8) (func : Nat) (rd rs1 rs2 : Fin 32) : Option Instr :=
  let f := func % 64
  let rm := func / 256
  if func / 64 % 4 ≠ 0 then none
  else if h : rm < 5 then
    match decodeFpuRm e f ⟨rm, h⟩ rd rs1 rs2 with
    | some i => some i
    | none => if rm = 0 then decodeFpuPlain e f rd rs1 rs2 else none
  else none

/-- Major opcode 0x03 by func (R227). -/
def decodeFma (e : Fin 8) (func : Nat) (rd rs1 rs2 rs3 : Fin 32) : Option Instr :=
  match func with
  | 0 => some (.fmac e rd rs1 rs2 rs3)
  | 1 => some (.fmsb e rd rs1 rs2 rs3)
  | 2 => some (.fnmac e rd rs1 rs2 rs3)
  | 3 => some (.fnmsb e rd rs1 rs2 rs3)
  | _ => none

/-- Major opcode 0x0A: imm[6:5] names the shift, imm[4:0] the amount (R225). -/
def decodeShk (e : Fin 8) (rd rs1 : Fin 32) (imm : BitVec 16) : Option Instr :=
  match imm.toNat / 32 with
  | 0 => some (.shkShl e rd rs1 (imm.setWidth 5))
  | 1 => some (.shkShr e rd rs1 (imm.setWidth 5))
  | 2 => some (.shkShra e rd rs1 (imm.setWidth 5))
  | _ => none

/-- Major opcode 0x20 by func (R229). -/
def decodeAt (e : Fin 8) (func : Nat) (rd rs1 rs2 : Fin 32) : Option Instr :=
  match func with
  | 0x000 => some (.atswap e rd rs1 rs2)
  | 0x001 => some (.atadd e rd rs1 rs2)
  | 0x002 => some (.atand e rd rs1 rs2)
  | 0x003 => some (.ator e rd rs1 rs2)
  | 0x004 => some (.atxor e rd rs1 rs2)
  | 0x005 => some (.atmin e rd rs1 rs2)
  | 0x006 => some (.atmax e rd rs1 rs2)
  | 0x007 => some (.atminu e rd rs1 rs2)
  | 0x008 => some (.atmaxu e rd rs1 rs2)
  | 0x009 => some (.atcas e rd rs1 rs2)
  | _ => none

/-- Major opcode 0x2C by func (R230): fields without an operand are 0. -/
def decodeSys (e : Fin 8) (func : Nat) (rd rs1 rs2 : Fin 32) : Option Instr :=
  match func with
  | 0x000 => ifZero (rd + rs1.val + rs2) (.cend e)
  | 0x001 => some (.waitf e rd rs1 rs2)
  | 0x002 => ifZero (rd.val + rs2) (.delay e rs1)
  | 0x003 => some (.hwait e rd rs1 rs2)
  | 0x004 => ifZero rd (.fset e rs1 rs2)
  | 0x005 => ifZero rd (.fclr e rs1 rs2)
  | 0x006 => ifZero (rs1.val + rs2) (.fget e rd)
  | 0x007 => ifZero (rs1.val + rs2) (.rget e rd)
  | 0x008 => some (.post e rd rs1 rs2)
  | 0x009 => ifZero (rs1.val + rs2) (.take e rd)
  | 0x00A => ifZero (rd.val + rs2) (.done e rs1)
  | 0x00C => ifZero (rd + rs1.val + rs2) (.fence e)
  | 0x00E => ifZero (rd + rs1.val + rs2) (.xret e)
  | 0x00F => some (.trap e (BitVec.ofNat 15 (rd * 1024 + rs1 * 32 + rs2)))
  | _ => none

/-- The instruction a word stands for on an engine (R224, R225); `none` for a reserved encoding, which raises ILLEGAL. -/
def jvDecode (e : Fin 8) (w : Word) : Option Instr :=
  let a := regField w 21
  let b := regField w 16
  let c := regField w 11
  let func := bitsOf w.toNat 0 11
  let imm := immField w
  match bitsOf w.toNat 26 6 with
  | 0x01 => decodeAlu e func a b c
  | 0x02 => decodeFpu e func a b c
  | 0x03 => decodeFma e (bitsOf w.toNat 0 6) a b c (regField w 6)
  | 0x04 => some (.addk e a b imm)
  | 0x05 => some (.andk e a b imm)
  | 0x06 => some (.ork e a b imm)
  | 0x07 => some (.xork e a b imm)
  | 0x08 => some (.cmpltk e a b imm)
  | 0x09 => some (.cmpltuk e a b imm)
  | 0x0A => decodeShk e a b imm
  | 0x0B => ifZero b (.hik e a imm)
  | 0x10 => some (.go e (jField w))
  | 0x11 => some (.call e (jField w))
  | 0x12 => some (.gor e a b imm)
  | 0x18 => some (.breq e a b imm)
  | 0x19 => some (.brne e a b imm)
  | 0x1A => some (.brlt e a b imm)
  | 0x1B => some (.brge e a b imm)
  | 0x1C => some (.brltu e a b imm)
  | 0x1D => some (.brgeu e a b imm)
  | 0x20 => decodeAt e func a b c
  | 0x24 => ifZero b (.getc e a imm)
  | 0x25 => ifZero a (.putc e imm b)
  | 0x2C => decodeSys e func a b c
  | 0x30 => some (.ldb e a b imm)
  | 0x31 => some (.ldbu e a b imm)
  | 0x32 => some (.ldh e a b imm)
  | 0x33 => some (.ldhu e a b imm)
  | 0x34 => some (.ldw e a b imm)
  | 0x35 => some (.ldp e a b imm)
  | 0x38 => some (.stb e a b imm)
  | 0x39 => some (.sth e a b imm)
  | 0x3A => some (.stw e a b imm)
  | 0x3B => some (.stp e a b imm)
  | _ => none

/-! ### The encoder -/

/-- Format A. -/
def wordA (op a b c func : Nat) : Option Word := some (BitVec.ofNat 32 (op * 2 ^ 26 + a * 2 ^ 21 + b * 2 ^ 16 + c * 2 ^ 11 + func))
/-- Format Q. -/
def wordQ (op a b c d func : Nat) : Option Word := wordA op a b c (d * 64 + func)
/-- Formats I, S and B. -/
def wordI (op a b imm : Nat) : Option Word := some (BitVec.ofNat 32 (op * 2 ^ 26 + a * 2 ^ 21 + b * 2 ^ 16 + imm))
/-- Format J. -/
def wordJ (op imm : Nat) : Option Word := some (BitVec.ofNat 32 (op * 2 ^ 26 + imm))

/-- The word of an engine's instruction; `none` for a command that is no instruction. -/
def jvEncode : Instr → Option Word
  | .add _ d a b => wordA 1 d a b 0x000
  | .sub _ d a b => wordA 1 d a b 0x001
  | .and _ d a b => wordA 1 d a b 0x002
  | .or _ d a b => wordA 1 d a b 0x003
  | .xor _ d a b => wordA 1 d a b 0x004
  | .shl _ d a b => wordA 1 d a b 0x005
  | .shr _ d a b => wordA 1 d a b 0x006
  | .shra _ d a b => wordA 1 d a b 0x007
  | .cmplt _ d a b => wordA 1 d a b 0x008
  | .cmpltu _ d a b => wordA 1 d a b 0x009
  | .mul _ d a b => wordA 1 d a b 0x00A
  | .mulhs _ d a b => wordA 1 d a b 0x00B
  | .mulhu _ d a b => wordA 1 d a b 0x00C
  | .quo _ d a b => wordA 1 d a b 0x00D
  | .quou _ d a b => wordA 1 d a b 0x00E
  | .mod _ d a b => wordA 1 d a b 0x00F
  | .modu _ d a b => wordA 1 d a b 0x010
  | .min _ d a b => wordA 1 d a b 0x011
  | .max _ d a b => wordA 1 d a b 0x012
  | .minu _ d a b => wordA 1 d a b 0x013
  | .maxu _ d a b => wordA 1 d a b 0x014
  | .btst _ d a b => wordA 1 d a b 0x015
  | .bset _ d a b => wordA 1 d a b 0x016
  | .bclr _ d a b => wordA 1 d a b 0x017
  | .bflip _ d a b => wordA 1 d a b 0x018
  | .ptst _ d a => wordA 1 d a 0 0x019
  | .fadd _ rm d a b => wordA 2 d a b (rm * 256 + 0x00)
  | .fsub _ rm d a b => wordA 2 d a b (rm * 256 + 0x01)
  | .fmul _ rm d a b => wordA 2 d a b (rm * 256 + 0x02)
  | .fdiv _ rm d a b => wordA 2 d a b (rm * 256 + 0x03)
  | .froot _ rm d a => wordA 2 d a 0 (rm * 256 + 0x04)
  | .flo _ d a b => wordA 2 d a b 0x05
  | .fhi _ d a b => wordA 2 d a b 0x06
  | .fcmpeq _ d a b => wordA 2 d a b 0x07
  | .fcmplt _ d a b => wordA 2 d a b 0x08
  | .fcmple _ d a b => wordA 2 d a b 0x09
  | .ftoi _ rm d a => wordA 2 d a 0 (rm * 256 + 0x0A)
  | .ftoiu _ rm d a => wordA 2 d a 0 (rm * 256 + 0x0B)
  | .itof _ rm d a => wordA 2 d a 0 (rm * 256 + 0x0C)
  | .utof _ rm d a => wordA 2 d a 0 (rm * 256 + 0x0D)
  | .fcpys _ d a b => wordA 2 d a b 0x0E
  | .fnegs _ d a b => wordA 2 d a b 0x0F
  | .fxors _ d a b => wordA 2 d a b 0x10
  | .fkind _ d a => wordA 2 d a 0 0x11
  | .fmac _ d a b c => wordQ 3 d a b c 0
  | .fmsb _ d a b c => wordQ 3 d a b c 1
  | .fnmac _ d a b c => wordQ 3 d a b c 2
  | .fnmsb _ d a b c => wordQ 3 d a b c 3
  | .addk _ d a i => wordI 0x04 d a i.toNat
  | .andk _ d a i => wordI 0x05 d a i.toNat
  | .ork _ d a i => wordI 0x06 d a i.toNat
  | .xork _ d a i => wordI 0x07 d a i.toNat
  | .cmpltk _ d a i => wordI 0x08 d a i.toNat
  | .cmpltuk _ d a i => wordI 0x09 d a i.toNat
  | .shkShl _ d a h => wordI 0x0A d a h.toNat
  | .shkShr _ d a h => wordI 0x0A d a (32 + h.toNat)
  | .shkShra _ d a h => wordI 0x0A d a (64 + h.toNat)
  | .hik _ d i => wordI 0x0B d 0 i.toNat
  | .go _ i => wordJ 0x10 i.toNat
  | .call _ i => wordJ 0x11 i.toNat
  | .gor _ d a i => wordI 0x12 d a i.toNat
  | .breq _ a b i => wordI 0x18 a b i.toNat
  | .brne _ a b i => wordI 0x19 a b i.toNat
  | .brlt _ a b i => wordI 0x1A a b i.toNat
  | .brge _ a b i => wordI 0x1B a b i.toNat
  | .brltu _ a b i => wordI 0x1C a b i.toNat
  | .brgeu _ a b i => wordI 0x1D a b i.toNat
  | .atswap _ d a b => wordA 0x20 d a b 0x000
  | .atadd _ d a b => wordA 0x20 d a b 0x001
  | .atand _ d a b => wordA 0x20 d a b 0x002
  | .ator _ d a b => wordA 0x20 d a b 0x003
  | .atxor _ d a b => wordA 0x20 d a b 0x004
  | .atmin _ d a b => wordA 0x20 d a b 0x005
  | .atmax _ d a b => wordA 0x20 d a b 0x006
  | .atminu _ d a b => wordA 0x20 d a b 0x007
  | .atmaxu _ d a b => wordA 0x20 d a b 0x008
  | .atcas _ d a b => wordA 0x20 d a b 0x009
  | .getc _ d i => wordI 0x24 d 0 i.toNat
  | .putc _ i a => wordI 0x25 0 a i.toNat
  | .cend _ => wordA 0x2C 0 0 0 0x000
  | .waitf _ d a b => wordA 0x2C d a b 0x001
  | .delay _ a => wordA 0x2C 0 a 0 0x002
  | .hwait _ d a b => wordA 0x2C d a b 0x003
  | .fset _ a b => wordA 0x2C 0 a b 0x004
  | .fclr _ a b => wordA 0x2C 0 a b 0x005
  | .fget _ d => wordA 0x2C d 0 0 0x006
  | .rget _ d => wordA 0x2C d 0 0 0x007
  | .post _ d a b => wordA 0x2C d a b 0x008
  | .take _ d => wordA 0x2C d 0 0 0x009
  | .done _ a => wordA 0x2C 0 a 0 0x00A
  | .fence _ => wordA 0x2C 0 0 0 0x00C
  | .xret _ => wordA 0x2C 0 0 0 0x00E
  | .trap _ c => wordI 0x2C 0 0 (c.toNat * 2048 + 0x00F)
  | .ldb _ d a i => wordI 0x30 d a i.toNat
  | .ldbu _ d a i => wordI 0x31 d a i.toNat
  | .ldh _ d a i => wordI 0x32 d a i.toNat
  | .ldhu _ d a i => wordI 0x33 d a i.toNat
  | .ldw _ d a i => wordI 0x34 d a i.toNat
  | .ldp _ d a i => wordI 0x35 d a i.toNat
  | .stb _ d a i => wordI 0x38 d a i.toNat
  | .sth _ d a i => wordI 0x39 d a i.toNat
  | .stw _ d a i => wordI 0x3A d a i.toNat
  | .stp _ d a i => wordI 0x3B d a i.toNat
  | _ => none

end Sys2Proof.Machine
end

