-- ==== Sys2Proof/Config.lean ====
section
/-! DEFINITION. What the spec leaves open: free values, of which nothing is known. -/
namespace Sys2Proof.Config

/-- A value the spec does not state, by the number of its draw (`State.fresh`): the machine goes on with it. [DESIGN CHOICE, log 8] -/
opaque freeWord : Nat → BitVec 64

/-- Bytes the spec does not state, by draw and position: what a memory holds after a test that overwrites it. [DESIGN CHOICE, log 8] -/
opaque freeByte : Nat → Nat → BitVec 8

/-- Whether the signature over a firmware region verifies: the spec gives no algorithm (R436). [DESIGN CHOICE, log 117] -/
opaque sigOk : List Byte → Bool

end Sys2Proof.Config
end

