-- ==== Sys2Proof/Machine/Regs.lean ====
section
/-! DEFINITION. The register fields of BAR0, one constant per field of the register tables of spec/ (R9, R10, R13,
R460): offset, index strides, bit position, width, access code, reset value and the events it is kept through. -/
namespace Sys2Proof.Machine

/-- The events of R13: power-on, brown-out, watchdog, software, function-level, cold, warm, standby. -/
inductive Event where
  | p | b | w | s | f | c | h | k
deriving DecidableEq, Repr

/-- Access codes of R10. -/
inductive Access where
  | rw | ro | w1c | w1s | wo | bl
deriving DecidableEq, Repr

/-- Reset value of a field: one value, its own index, one value at index 0 (0 elsewhere), or one value from an index on. -/
inductive ResetRule where
  | const (v : Nat)
  | index
  | first (v : Nat)
  | fromIdx (i v : Nat)
deriving DecidableEq, Repr

/-- A register field. The register of index `i`, `j` lies at `base + s1 × i + s2 × j` and the field at bit `lo + bs × j`. -/
structure Field where
  base : Nat
  s1 : Nat
  c1 : Nat
  s2 : Nat
  c2 : Nat
  bs : Nat
  lo : Nat
  w : Nat
  acc : Access
  rst : ResetRule
  kept : List Event
deriving DecidableEq, Repr

/-- Reset value of a field (R13). -/
def Field.reset (f : Field) (i : Nat) : Nat :=
  match f.rst with
  | .const v => v
  | .index => i
  | .first v => if i = 0 then v else 0
  | .fromIdx k v => if k ≤ i then v else 0

/-- Where the table of register values holds the field: 32 times the offset plus the field's low bit. [DEDUCED, log 10] -/
def Field.key (f : Field) (i j : Nat) : Nat := (f.base + f.s1 * i + f.s2 * j) * 32 + f.lo + f.bs * j

/-- Kept through F, C and H: the common case. -/
def keptFCH : List Event := [.f, .c, .h]
/-- Kept through every event. -/
def keptAll : List Event := [.p, .b, .w, .s, .f, .c, .h, .k]

namespace Reg

/-- SYS_CLKCTL.AUTOFB (chapter 01). -/
def SYS_CLKCTL_AUTOFB : Field := ⟨0x10, 0, 1, 0, 1, 0, 1, 1, .rw, .const 1, keptFCH⟩
/-- SYS_CLKCTL.REFSEL (chapter 01). -/
def SYS_CLKCTL_REFSEL : Field := ⟨0x10, 0, 1, 0, 1, 0, 0, 1, .rw, .const 0, keptFCH⟩
/-- SYS_CLKSTAT.SAFXOK (chapter 01). -/
def SYS_CLKSTAT_SAFXOK : Field := ⟨0x14, 0, 1, 0, 1, 0, 3, 1, .ro, .const 0, keptFCH⟩
/-- SYS_CLKSTAT.PLLLOCK (chapter 01). -/
def SYS_CLKSTAT_PLLLOCK : Field := ⟨0x14, 0, 1, 0, 1, 0, 2, 1, .ro, .const 0, keptFCH⟩
/-- SYS_CLKSTAT.REFLOSS (chapter 01). -/
def SYS_CLKSTAT_REFLOSS : Field := ⟨0x14, 0, 1, 0, 1, 0, 1, 1, .w1c, .const 0, keptFCH⟩
/-- SYS_CLKSTAT.SRC (chapter 01). -/
def SYS_CLKSTAT_SRC : Field := ⟨0x14, 0, 1, 0, 1, 0, 0, 1, .ro, .const 0, keptFCH⟩
/-- SYS_ID.PART (chapter 01). -/
def SYS_ID_PART : Field := ⟨0x0, 0, 1, 0, 1, 0, 16, 16, .ro, .const 0x4872, keptAll⟩
/-- SYS_ID.STEP (chapter 01). -/
def SYS_ID_STEP : Field := ⟨0x0, 0, 1, 0, 1, 0, 8, 8, .ro, .const 1, keptAll⟩
/-- HST_TCTL.STEP (chapter 02). -/
def HST_TCTL_STEP : Field := ⟨0x20000, 0, 1, 0, 1, 0, 2, 1, .wo, .const 0, []⟩
/-- HST_TCTL.SNAP (chapter 02). -/
def HST_TCTL_SNAP : Field := ⟨0x20000, 0, 1, 0, 1, 0, 1, 1, .wo, .const 0, []⟩
/-- HST_TCTL.SERVO (chapter 02). -/
def HST_TCTL_SERVO : Field := ⟨0x20000, 0, 1, 0, 1, 0, 0, 1, .rw, .const 1, keptFCH⟩
/-- HST_TSTAT.HOLDOVER (chapter 02). -/
def HST_TSTAT_HOLDOVER : Field := ⟨0x20004, 0, 1, 0, 1, 0, 3, 1, .ro, .const 0, keptFCH⟩
/-- HST_TSTAT.SLEWBUSY (chapter 02). -/
def HST_TSTAT_SLEWBUSY : Field := ⟨0x20004, 0, 1, 0, 1, 0, 2, 1, .ro, .const 0, keptFCH⟩
/-- HST_TSTAT.RATECLAMP (chapter 02). -/
def HST_TSTAT_RATECLAMP : Field := ⟨0x20004, 0, 1, 0, 1, 0, 1, 1, .w1c, .const 0, keptFCH⟩
/-- HST_TSTAT.STEPREJ (chapter 02). -/
def HST_TSTAT_STEPREJ : Field := ⟨0x20004, 0, 1, 0, 1, 0, 0, 1, .w1c, .const 0, keptFCH⟩
/-- HST_RATE.RATE (chapter 02). -/
def HST_RATE_RATE : Field := ⟨0x20008, 0, 1, 0, 1, 0, 0, 32, .rw, .const 0, keptFCH⟩
/-- HST_SLEW.SLEW (chapter 02). -/
def HST_SLEW_SLEW : Field := ⟨0x2000c, 0, 1, 0, 1, 0, 0, 32, .rw, .const 0, keptFCH⟩
/-- HST_TNS.NS (chapter 02). -/
def HST_TNS_NS : Field := ⟨0x20010, 0, 1, 0, 1, 0, 0, 30, .ro, .const 0, keptFCH⟩
/-- HST_TSEC_LO.SEC (chapter 02). -/
def HST_TSEC_LO_SEC : Field := ⟨0x20014, 0, 1, 0, 1, 0, 0, 32, .ro, .const 0, keptFCH⟩
/-- HST_TSEC_HI.SEC (chapter 02). -/
def HST_TSEC_HI_SEC : Field := ⟨0x20018, 0, 1, 0, 1, 0, 0, 16, .ro, .const 0, keptFCH⟩
/-- HST_HTIME_LO.HT (chapter 02). -/
def HST_HTIME_LO_HT : Field := ⟨0x2001c, 0, 1, 0, 1, 0, 0, 32, .ro, .const 0, keptFCH⟩
/-- HST_HTIME_HI.HT (chapter 02). -/
def HST_HTIME_HI_HT : Field := ⟨0x20020, 0, 1, 0, 1, 0, 0, 32, .ro, .const 0, keptFCH⟩
/-- HST_TSET_NS.NS (chapter 02). -/
def HST_TSET_NS_NS : Field := ⟨0x20024, 0, 1, 0, 1, 0, 0, 30, .rw, .const 0, keptFCH⟩
/-- HST_TSET_SLO.SEC (chapter 02). -/
def HST_TSET_SLO_SEC : Field := ⟨0x20028, 0, 1, 0, 1, 0, 0, 32, .rw, .const 0, keptFCH⟩
/-- HST_TSET_SHI.SEC (chapter 02). -/
def HST_TSET_SHI_SEC : Field := ⟨0x2002c, 0, 1, 0, 1, 0, 0, 16, .rw, .const 0, keptFCH⟩
/-- HST_RINGCTLn.RELOAD (chapter 02). -/
def HST_RINGCTL_RELOAD : Field := ⟨0x20100, 32, 8, 0, 1, 0, 1, 1, .w1s, .const 0, keptFCH⟩
/-- HST_RINGCTLn.EN (chapter 02). -/
def HST_RINGCTL_EN : Field := ⟨0x20100, 32, 8, 0, 1, 0, 0, 1, .rw, .const 0, keptFCH⟩
/-- HST_RPERn.PER (chapter 02). -/
def HST_RPER_PER : Field := ⟨0x20104, 32, 8, 0, 1, 0, 0, 19, .rw, .const 0x1f40, keptFCH⟩
/-- HST_RPHASEn.PHASE (chapter 02). -/
def HST_RPHASE_PHASE : Field := ⟨0x20108, 32, 8, 0, 1, 0, 0, 24, .rw, .const 0, keptFCH⟩
/-- HST_RDLINn.DLIN (chapter 02). -/
def HST_RDLIN_DLIN : Field := ⟨0x2010c, 32, 8, 0, 1, 0, 0, 24, .rw, .const 0xfa0, keptFCH⟩
/-- HST_RSEALn.SEAL (chapter 02). -/
def HST_RSEAL_SEAL : Field := ⟨0x20110, 32, 8, 0, 1, 0, 0, 24, .rw, .const 0x2bf20, keptFCH⟩
/-- HST_RSTATn.RUN (chapter 02). -/
def HST_RSTAT_RUN : Field := ⟨0x20114, 32, 8, 0, 1, 0, 31, 1, .ro, .const 0, keptFCH⟩
/-- HST_RSTATn.PEND (chapter 02). -/
def HST_RSTAT_PEND : Field := ⟨0x20114, 32, 8, 0, 1, 0, 30, 1, .ro, .const 0, keptFCH⟩
/-- HST_RSTATn.CFGERR (chapter 02). -/
def HST_RSTAT_CFGERR : Field := ⟨0x20114, 32, 8, 0, 1, 0, 29, 1, .ro, .const 0, keptFCH⟩
/-- HST_RSTATn.LATE (chapter 02). -/
def HST_RSTAT_LATE : Field := ⟨0x20114, 32, 8, 0, 1, 0, 1, 1, .w1c, .const 0, keptFCH⟩
/-- HST_RSTATn.REPH (chapter 02). -/
def HST_RSTAT_REPH : Field := ⟨0x20114, 32, 8, 0, 1, 0, 0, 1, .w1c, .const 0, keptFCH⟩
/-- HST_RHNUMn.HNUM (chapter 02). -/
def HST_RHNUM_HNUM : Field := ⟨0x20118, 32, 8, 0, 1, 0, 0, 32, .ro, .const 0, keptFCH⟩
/-- HST_RLATECNTn.CNT (chapter 02). -/
def HST_RLATECNT_CNT : Field := ⟨0x2011c, 32, 8, 0, 1, 0, 0, 32, .ro, .const 0, keptFCH⟩
/-- HST_LCTLm.START (chapter 02). -/
def HST_LCTL_START : Field := ⟨0x21000, 16, 256, 0, 1, 0, 31, 1, .wo, .const 0, []⟩
/-- HST_LCTLm.STOP (chapter 02). -/
def HST_LCTL_STOP : Field := ⟨0x21000, 16, 256, 0, 1, 0, 30, 1, .wo, .const 0, []⟩
/-- HST_LCTLm.HOLD (chapter 02). -/
def HST_LCTL_HOLD : Field := ⟨0x21000, 16, 256, 0, 1, 0, 29, 1, .rw, .const 0, [.f]⟩
/-- HST_LCTLm.RING (chapter 02). -/
def HST_LCTL_RING : Field := ⟨0x21000, 16, 256, 0, 1, 0, 24, 3, .rw, .const 0, keptFCH⟩
/-- HST_LCTLm.LAST (chapter 02). -/
def HST_LCTL_LAST : Field := ⟨0x21000, 16, 256, 0, 1, 0, 12, 12, .rw, .const 0, keptFCH⟩
/-- HST_LCTLm.FIRST (chapter 02). -/
def HST_LCTL_FIRST : Field := ⟨0x21000, 16, 256, 0, 1, 0, 0, 12, .rw, .const 0, keptFCH⟩
/-- HST_LBASEm.BASE (chapter 02). -/
def HST_LBASE_BASE : Field := ⟨0x21004, 16, 256, 0, 1, 0, 0, 32, .rw, .const 0, keptFCH⟩
/-- HST_LSTATm.STATE (chapter 02). -/
def HST_LSTAT_STATE : Field := ⟨0x21008, 16, 256, 0, 1, 0, 29, 3, .ro, .const 0, [.f]⟩
/-- HST_LSTATm.CAUSE (chapter 02). -/
def HST_LSTAT_CAUSE : Field := ⟨0x21008, 16, 256, 0, 1, 0, 24, 4, .ro, .const 0, [.f]⟩
/-- HST_LSTATm.STEP (chapter 02). -/
def HST_LSTAT_STEP : Field := ⟨0x21008, 16, 256, 0, 1, 0, 0, 12, .ro, .const 0, [.f]⟩
/-- HST_LCNTm.CNT (chapter 02). -/
def HST_LCNT_CNT : Field := ⟨0x2100c, 16, 256, 0, 1, 0, 0, 24, .ro, .const 0, [.f]⟩
/-- HST_LDONEi.DONE (chapter 02). -/
def HST_LDONE_DONE : Field := ⟨0x20200, 4, 8, 0, 1, 0, 0, 32, .w1c, .const 0, [.f]⟩
/-- HST_LFLTi.FLT (chapter 02). -/
def HST_LFLT_FLT : Field := ⟨0x20220, 4, 8, 0, 1, 0, 0, 32, .w1c, .const 0, [.f]⟩
/-- CLE_CTL.CLRMAX (chapter 03). -/
def CLE_CTL_CLRMAX : Field := ⟨0x30000, 0, 1, 0, 1, 0, 1, 1, .wo, .const 0, []⟩
/-- CLE_CTL.EN (chapter 03). -/
def CLE_CTL_EN : Field := ⟨0x30000, 0, 1, 0, 1, 0, 0, 1, .rw, .const 0, keptFCH⟩
/-- CLE_DBASE.BASE (chapter 03). -/
def CLE_DBASE_BASE : Field := ⟨0x30004, 0, 1, 0, 1, 0, 12, 20, .rw, .const 0, keptFCH⟩
/-- CLE_STAT.PBUSY (chapter 03). -/
def CLE_STAT_PBUSY : Field := ⟨0x30008, 0, 1, 0, 1, 0, 0, 8, .ro, .const 0, keptFCH⟩
/-- CLE_PCHn.LEN (chapter 03). -/
def CLE_PCH_LEN : Field := ⟨0x30100, 16, 8, 0, 1, 0, 16, 13, .rw, .const 0, keptFCH⟩
/-- CLE_PCHn.HEAD (chapter 03). -/
def CLE_PCH_HEAD : Field := ⟨0x30100, 16, 8, 0, 1, 0, 0, 12, .rw, .const 0, keptFCH⟩
/-- CLE_PSTATn.CHAINERR (chapter 03). -/
def CLE_PSTAT_CHAINERR : Field := ⟨0x30104, 16, 8, 0, 1, 0, 31, 1, .w1c, .const 0, [.f]⟩
/-- CLE_PSTATn.LATE (chapter 03). -/
def CLE_PSTAT_LATE : Field := ⟨0x30104, 16, 8, 0, 1, 0, 30, 1, .w1c, .const 0, [.f]⟩
/-- CLE_PSTATn.NEVAL (chapter 03). -/
def CLE_PSTAT_NEVAL : Field := ⟨0x30104, 16, 8, 0, 1, 0, 16, 13, .ro, .const 0, [.f]⟩
/-- CLE_PSTATn.STOP (chapter 03). -/
def CLE_PSTAT_STOP : Field := ⟨0x30104, 16, 8, 0, 1, 0, 0, 12, .ro, .const 0, [.f]⟩
/-- CLE_PTIMEn.MAX (chapter 03). -/
def CLE_PTIME_MAX : Field := ⟨0x30108, 16, 8, 0, 1, 0, 16, 16, .ro, .const 0, [.f]⟩
/-- CLE_PTIMEn.LAST (chapter 03). -/
def CLE_PTIME_LAST : Field := ⟨0x30108, 16, 8, 0, 1, 0, 0, 16, .ro, .const 0, [.f]⟩
/-- CLE_EVSUMi.EV (chapter 03). -/
def CLE_EVSUM_EV : Field := ⟨0x30200, 4, 128, 0, 1, 0, 0, 32, .w1c, .const 0, [.f]⟩
/-- CLE_FSETs.B0 (chapter 03). -/
def CLE_FSET_B0 : Field := ⟨0x31000, 32, 512, 0, 1, 0, 0, 32, .rw, .const 0x3f800000, keptFCH⟩
/-- CLE_FSETs.B1 (chapter 03). -/
def CLE_FSET_B1 : Field := ⟨0x31004, 32, 512, 0, 1, 0, 0, 32, .rw, .const 0, keptFCH⟩
/-- CLE_FSETs.B2 (chapter 03). -/
def CLE_FSET_B2 : Field := ⟨0x31008, 32, 512, 0, 1, 0, 0, 32, .rw, .const 0, keptFCH⟩
/-- CLE_FSETs.A1 (chapter 03). -/
def CLE_FSET_A1 : Field := ⟨0x3100c, 32, 512, 0, 1, 0, 0, 32, .rw, .const 0, keptFCH⟩
/-- CLE_FSETs.A2 (chapter 03). -/
def CLE_FSET_A2 : Field := ⟨0x31010, 32, 512, 0, 1, 0, 0, 32, .rw, .const 0, keptFCH⟩
/-- CLE_FSETs.COMMIT (chapter 03). -/
def CLE_FSET_COMMIT : Field := ⟨0x31014, 32, 512, 0, 1, 0, 0, 1, .w1s, .const 0, []⟩
/-- CLE_FSETs.PEND (chapter 03). -/
def CLE_FSET_PEND : Field := ⟨0x31018, 32, 512, 0, 1, 0, 0, 1, .ro, .const 0, keptFCH⟩
/-- AXS_CTL.CLRMAX (chapter 04). -/
def AXS_CTL_CLRMAX : Field := ⟨0x40000, 0, 1, 0, 1, 0, 1, 1, .wo, .const 0, []⟩
/-- AXS_CTL.EN (chapter 04). -/
def AXS_CTL_EN : Field := ⟨0x40000, 0, 1, 0, 1, 0, 0, 1, .rw, .const 0, keptFCH⟩
/-- AXS_ABASE.BASE (chapter 04). -/
def AXS_ABASE_BASE : Field := ⟨0x40004, 0, 1, 0, 1, 0, 16, 16, .rw, .const 0, keptFCH⟩
/-- AXS_CCBASE.BASE (chapter 04). -/
def AXS_CCBASE_BASE : Field := ⟨0x40008, 0, 1, 0, 1, 0, 16, 16, .rw, .const 0, keptFCH⟩
/-- AXS_AMAPi.EN (chapter 04). -/
def AXS_AMAP_EN : Field := ⟨0x40040, 4, 64, 0, 8, 4, 3, 1, .rw, .const 0, keptFCH⟩
/-- AXS_AMAPi.RING (chapter 04). -/
def AXS_AMAP_RING : Field := ⟨0x40040, 4, 64, 0, 8, 4, 0, 3, .rw, .const 0, keptFCH⟩
/-- AXS_PSTATn.LATE (chapter 04). -/
def AXS_PSTAT_LATE : Field := ⟨0x40200, 16, 8, 0, 1, 0, 30, 1, .w1c, .const 0, [.f]⟩
/-- AXS_PSTATn.NEVAL (chapter 04). -/
def AXS_PSTAT_NEVAL : Field := ⟨0x40200, 16, 8, 0, 1, 0, 16, 10, .ro, .const 0, [.f]⟩
/-- AXS_PSTATn.STOP (chapter 04). -/
def AXS_PSTAT_STOP : Field := ⟨0x40200, 16, 8, 0, 1, 0, 0, 9, .ro, .const 0, [.f]⟩
/-- AXS_PTIMEn.MAX (chapter 04). -/
def AXS_PTIME_MAX : Field := ⟨0x40204, 16, 8, 0, 1, 0, 16, 16, .ro, .const 0, [.f]⟩
/-- AXS_PTIMEn.LAST (chapter 04). -/
def AXS_PTIME_LAST : Field := ⟨0x40204, 16, 8, 0, 1, 0, 0, 16, .ro, .const 0, [.f]⟩
/-- AXS_EVSUMi.EV (chapter 04). -/
def AXS_EVSUM_EV : Field := ⟨0x40300, 4, 16, 0, 1, 0, 0, 32, .w1c, .const 0, [.f]⟩
/-- AXS_CCCFGu.EN (chapter 04). -/
def AXS_CCCFG_EN : Field := ⟨0x41000, 32, 64, 0, 1, 0, 31, 1, .rw, .const 0, keptFCH⟩
/-- AXS_CCCFGu.SRCK (chapter 04). -/
def AXS_CCCFG_SRCK : Field := ⟨0x41000, 32, 64, 0, 1, 0, 29, 2, .rw, .const 0, keptFCH⟩
/-- AXS_CCCFGu.SRCN (chapter 04). -/
def AXS_CCCFG_SRCN : Field := ⟨0x41000, 32, 64, 0, 1, 0, 24, 5, .rw, .const 0, keptFCH⟩
/-- AXS_CCCFGu.OUTEN (chapter 04). -/
def AXS_CCCFG_OUTEN : Field := ⟨0x41000, 32, 64, 0, 1, 0, 23, 1, .rw, .const 0, keptFCH⟩
/-- AXS_CCCFGu.OUTLINE (chapter 04). -/
def AXS_CCCFG_OUTLINE : Field := ⟨0x41000, 32, 64, 0, 1, 0, 16, 7, .rw, .const 0, keptFCH⟩
/-- AXS_CCCFGu.PULSE (chapter 04). -/
def AXS_CCCFG_PULSE : Field := ⟨0x41000, 32, 64, 0, 1, 0, 0, 16, .rw, .const 0, keptFCH⟩
/-- AXS_CCEVu.FEV (chapter 04). -/
def AXS_CCEV_FEV : Field := ⟨0x41004, 32, 64, 0, 1, 0, 31, 1, .rw, .const 0, keptFCH⟩
/-- AXS_CCEVu.KEV (chapter 04). -/
def AXS_CCEV_KEV : Field := ⟨0x41004, 32, 64, 0, 1, 0, 30, 1, .rw, .const 0, keptFCH⟩
/-- AXS_CCEVu.TASK (chapter 04). -/
def AXS_CCEV_TASK : Field := ⟨0x41004, 32, 64, 0, 1, 0, 16, 8, .rw, .const 0, keptFCH⟩
/-- AXS_CCEVu.FLAG (chapter 04). -/
def AXS_CCEV_FLAG : Field := ⟨0x41004, 32, 64, 0, 1, 0, 0, 5, .rw, .const 0, keptFCH⟩
/-- AXS_CCCAPu.CAPEN (chapter 04). -/
def AXS_CCCAP_CAPEN : Field := ⟨0x41008, 32, 64, 0, 1, 0, 31, 1, .rw, .const 0, keptFCH⟩
/-- AXS_CCCAPu.EDGE (chapter 04). -/
def AXS_CCCAP_EDGE : Field := ⟨0x41008, 32, 64, 0, 1, 0, 29, 2, .rw, .const 0, keptFCH⟩
/-- AXS_CCCAPu.CAPLINE (chapter 04). -/
def AXS_CCCAP_CAPLINE : Field := ⟨0x41008, 32, 64, 0, 1, 0, 16, 7, .rw, .const 0, keptFCH⟩
/-- AXS_CCCAPu.FILT (chapter 04). -/
def AXS_CCCAP_FILT : Field := ⟨0x41008, 32, 64, 0, 1, 0, 0, 16, .rw, .const 0, keptFCH⟩
/-- AXS_CCSTATu.BEHIND (chapter 04). -/
def AXS_CCSTAT_BEHIND : Field := ⟨0x4100c, 32, 64, 0, 1, 0, 31, 1, .w1c, .const 0, [.f]⟩
/-- AXS_CCSTATu.PASSED (chapter 04). -/
def AXS_CCSTAT_PASSED : Field := ⟨0x4100c, 32, 64, 0, 1, 0, 30, 1, .w1c, .const 0, [.f]⟩
/-- AXS_CCSTATu.QOVF (chapter 04). -/
def AXS_CCSTAT_QOVF : Field := ⟨0x4100c, 32, 64, 0, 1, 0, 29, 1, .w1c, .const 0, [.f]⟩
/-- AXS_CCSTATu.KOVF (chapter 04). -/
def AXS_CCSTAT_KOVF : Field := ⟨0x4100c, 32, 64, 0, 1, 0, 28, 1, .w1c, .const 0, [.f]⟩
/-- AXS_CCSTATu.POISON (chapter 04). -/
def AXS_CCSTAT_POISON : Field := ⟨0x4100c, 32, 64, 0, 1, 0, 27, 1, .w1c, .const 0, [.f]⟩
/-- AXS_CCSTATu.RETRIG (chapter 04). -/
def AXS_CCSTAT_RETRIG : Field := ⟨0x4100c, 32, 64, 0, 1, 0, 26, 1, .w1c, .const 0, [.f]⟩
/-- AXS_CCSTATu.NOOUT (chapter 04). -/
def AXS_CCSTAT_NOOUT : Field := ⟨0x4100c, 32, 64, 0, 1, 0, 25, 1, .w1c, .const 0, [.f]⟩
/-- AXS_CCSTATu.CLEVEL (chapter 04). -/
def AXS_CCSTAT_CLEVEL : Field := ⟨0x4100c, 32, 64, 0, 1, 0, 0, 5, .ro, .const 0, [.f]⟩
/-- AXS_CCCNTu.KLOST (chapter 04). -/
def AXS_CCCNT_KLOST : Field := ⟨0x41010, 32, 64, 0, 1, 0, 16, 16, .ro, .const 0, [.f]⟩
/-- AXS_CCCNTu.FIRES (chapter 04). -/
def AXS_CCCNT_FIRES : Field := ⟨0x41010, 32, 64, 0, 1, 0, 0, 16, .ro, .const 0, [.f]⟩
/-- FBK_CTL.CLRERR (chapter 05). -/
def FBK_CTL_CLRERR : Field := ⟨0x50000, 0, 1, 0, 1, 0, 0, 1, .wo, .const 0, []⟩
/-- FBK_FBASE.BASE (chapter 05). -/
def FBK_FBASE_BASE : Field := ⟨0x50004, 0, 1, 0, 1, 0, 12, 20, .rw, .const 0, keptFCH⟩
/-- FBK_RBASE.BASE (chapter 05). -/
def FBK_RBASE_BASE : Field := ⟨0x50008, 0, 1, 0, 1, 0, 14, 18, .rw, .const 0, keptFCH⟩
/-- FBK_EVSUM.EV (chapter 05). -/
def FBK_EVSUM_EV : Field := ⟨0x50010, 0, 1, 0, 1, 0, 0, 24, .w1c, .const 0, [.f]⟩
/-- FBK_CFGc.EN (chapter 05). -/
def FBK_CFG_EN : Field := ⟨0x50100, 64, 24, 0, 1, 0, 31, 1, .rw, .const 0, keptFCH⟩
/-- FBK_CFGc.MODE (chapter 05). -/
def FBK_CFG_MODE : Field := ⟨0x50100, 64, 24, 0, 1, 0, 28, 3, .rw, .const 0, keptFCH⟩
/-- FBK_CFGc.RING (chapter 05). -/
def FBK_CFG_RING : Field := ⟨0x50100, 64, 24, 0, 1, 0, 24, 3, .rw, .const 0, keptFCH⟩
/-- FBK_CFGc.INV (chapter 05). -/
def FBK_CFG_INV : Field := ⟨0x50100, 64, 24, 0, 1, 0, 23, 1, .rw, .const 0, keptFCH⟩
/-- FBK_CFGc.FILT (chapter 05). -/
def FBK_CFG_FILT : Field := ⟨0x50100, 64, 24, 0, 1, 0, 20, 3, .rw, .const 0, keptFCH⟩
/-- FBK_CFGc.BW (chapter 05). -/
def FBK_CFG_BW : Field := ⟨0x50100, 64, 24, 0, 1, 0, 8, 10, .rw, .const 0x64, keptFCH⟩
/-- FBK_CFGc.DAMP (chapter 05). -/
def FBK_CFG_DAMP : Field := ⟨0x50100, 64, 24, 0, 1, 0, 6, 2, .rw, .const 2, keptFCH⟩
/-- FBK_CFGc.CSH (chapter 05). -/
def FBK_CFG_CSH : Field := ⟨0x50100, 64, 24, 0, 1, 0, 0, 5, .rw, .const 2, keptFCH⟩
/-- FBK_SSIc.MONO (chapter 05). -/
def FBK_SSI_MONO : Field := ⟨0x50104, 64, 24, 0, 1, 0, 26, 6, .rw, .const 0x14, keptFCH⟩
/-- FBK_SSIc.DLY (chapter 05). -/
def FBK_SSI_DLY : Field := ⟨0x50104, 64, 24, 0, 1, 0, 20, 6, .rw, .const 0, keptFCH⟩
/-- FBK_SSIc.CLKDIV (chapter 05). -/
def FBK_SSI_CLKDIV : Field := ⟨0x50104, 64, 24, 0, 1, 0, 12, 8, .rw, .const 0x63, keptFCH⟩
/-- FBK_SSIc.PAR (chapter 05). -/
def FBK_SSI_PAR : Field := ⟨0x50104, 64, 24, 0, 1, 0, 8, 2, .rw, .const 0, keptFCH⟩
/-- FBK_SSIc.ERRB (chapter 05). -/
def FBK_SSI_ERRB : Field := ⟨0x50104, 64, 24, 0, 1, 0, 7, 1, .rw, .const 0, keptFCH⟩
/-- FBK_SSIc.GRAY (chapter 05). -/
def FBK_SSI_GRAY : Field := ⟨0x50104, 64, 24, 0, 1, 0, 6, 1, .rw, .const 0, keptFCH⟩
/-- FBK_SSIc.BITS (chapter 05). -/
def FBK_SSI_BITS : Field := ⟨0x50104, 64, 24, 0, 1, 0, 0, 6, .rw, .const 0x18, keptFCH⟩
/-- FBK_SSI2c.XTOL (chapter 05). -/
def FBK_SSI2_XTOL : Field := ⟨0x50108, 64, 24, 0, 1, 0, 16, 16, .rw, .const 0x40, keptFCH⟩
/-- FBK_SSI2c.XCHK (chapter 05). -/
def FBK_SSI2_XCHK : Field := ⟨0x50108, 64, 24, 0, 1, 0, 8, 1, .rw, .const 0, keptFCH⟩
/-- FBK_SSI2c.SHIFT (chapter 05). -/
def FBK_SSI2_SHIFT : Field := ⟨0x50108, 64, 24, 0, 1, 0, 0, 6, .rw, .const 0, keptFCH⟩
/-- FBK_AMPWc.WHI (chapter 05). -/
def FBK_AMPW_WHI : Field := ⟨0x5010c, 64, 24, 0, 1, 0, 16, 16, .rw, .const 0x170a, keptFCH⟩
/-- FBK_AMPWc.WLO (chapter 05). -/
def FBK_AMPW_WLO : Field := ⟨0x5010c, 64, 24, 0, 1, 0, 0, 16, .rw, .const 0xa3d, keptFCH⟩
/-- FBK_AMPFc.FHI (chapter 05). -/
def FBK_AMPF_FHI : Field := ⟨0x50110, 64, 24, 0, 1, 0, 16, 16, .rw, .const 0x2400, keptFCH⟩
/-- FBK_AMPFc.FLO (chapter 05). -/
def FBK_AMPF_FLO : Field := ⟨0x50110, 64, 24, 0, 1, 0, 0, 16, .rw, .const 0x400, keptFCH⟩
/-- FBK_AMPCc.FCNT (chapter 05). -/
def FBK_AMPC_FCNT : Field := ⟨0x50114, 64, 24, 0, 1, 0, 16, 16, .rw, .const 0x14, keptFCH⟩
/-- FBK_AMPCc.WCNT (chapter 05). -/
def FBK_AMPC_WCNT : Field := ⟨0x50114, 64, 24, 0, 1, 0, 0, 16, .rw, .const 0x7d0, keptFCH⟩
/-- FBK_TRIMc.GAINC (chapter 05). -/
def FBK_TRIM_GAINC : Field := ⟨0x50118, 64, 24, 0, 1, 0, 16, 16, .rw, .const 0x8000, keptFCH⟩
/-- FBK_TRIMc.OFSC (chapter 05). -/
def FBK_TRIM_OFSC : Field := ⟨0x50118, 64, 24, 0, 1, 0, 8, 8, .rw, .const 0, keptFCH⟩
/-- FBK_TRIMc.OFSS (chapter 05). -/
def FBK_TRIM_OFSS : Field := ⟨0x50118, 64, 24, 0, 1, 0, 0, 8, .rw, .const 0, keptFCH⟩
/-- FBK_STILLc.STILLQ (chapter 05). -/
def FBK_STILL_STILLQ : Field := ⟨0x5011c, 64, 24, 0, 1, 0, 16, 16, .rw, .const 0x40, keptFCH⟩
/-- FBK_STILLc.STILLT (chapter 05). -/
def FBK_STILL_STILLT : Field := ⟨0x5011c, 64, 24, 0, 1, 0, 0, 16, .rw, .const 0x7d0, keptFCH⟩
/-- FBK_ZCFGc.ZTOL (chapter 05). -/
def FBK_ZCFG_ZTOL : Field := ⟨0x50120, 64, 24, 0, 1, 0, 24, 8, .rw, .const 2, keptFCH⟩
/-- FBK_ZCFGc.CPR (chapter 05). -/
def FBK_ZCFG_CPR : Field := ⟨0x50120, 64, 24, 0, 1, 0, 0, 24, .rw, .const 0, keptFCH⟩
/-- FBK_ZCTLc.ZARM (chapter 05). -/
def FBK_ZCTL_ZARM : Field := ⟨0x50124, 64, 24, 0, 1, 0, 0, 1, .w1s, .const 0, keptFCH⟩
/-- FBK_ZPOSLc.POS (chapter 05). -/
def FBK_ZPOSL_POS : Field := ⟨0x50128, 64, 24, 0, 1, 0, 0, 32, .ro, .const 0, keptFCH⟩
/-- FBK_ZPOSHc.POS (chapter 05). -/
def FBK_ZPOSH_POS : Field := ⟨0x5012c, 64, 24, 0, 1, 0, 0, 32, .ro, .const 0, keptFCH⟩
/-- FBK_STATc.BITS (chapter 05). -/
def FBK_STAT_BITS : Field := ⟨0x50130, 64, 24, 0, 1, 0, 14, 18, .w1c, .const 0, [.f]⟩
/-- FBK_STATc.CFGERR (chapter 05). -/
def FBK_STAT_CFGERR : Field := ⟨0x50130, 64, 24, 0, 1, 0, 0, 1, .ro, .const 0, keptFCH⟩
/-- FBK_ERRCNTc.PHASE (chapter 05). -/
def FBK_ERRCNT_PHASE : Field := ⟨0x50134, 64, 24, 0, 1, 0, 16, 16, .ro, .const 0, keptFCH⟩
/-- FBK_ERRCNTc.SSI (chapter 05). -/
def FBK_ERRCNT_SSI : Field := ⟨0x50134, 64, 24, 0, 1, 0, 0, 16, .ro, .const 0, keptFCH⟩
/-- FBK_EMCFGe.EN (chapter 05). -/
def FBK_EMCFG_EN : Field := ⟨0x50800, 32, 8, 0, 1, 0, 31, 1, .rw, .const 0, keptFCH⟩
/-- FBK_EMCFGe.SRCK (chapter 05). -/
def FBK_EMCFG_SRCK : Field := ⟨0x50800, 32, 8, 0, 1, 0, 29, 2, .rw, .const 0, keptFCH⟩
/-- FBK_EMCFGe.RING (chapter 05). -/
def FBK_EMCFG_RING : Field := ⟨0x50800, 32, 8, 0, 1, 0, 26, 3, .rw, .const 0, keptFCH⟩
/-- FBK_EMCFGe.SRCN (chapter 05). -/
def FBK_EMCFG_SRCN : Field := ⟨0x50800, 32, 8, 0, 1, 0, 16, 9, .rw, .const 0, keptFCH⟩
/-- FBK_EMCFGe.ZEN (chapter 05). -/
def FBK_EMCFG_ZEN : Field := ⟨0x50800, 32, 8, 0, 1, 0, 15, 1, .rw, .const 0, keptFCH⟩
/-- FBK_EMCFGe.INV (chapter 05). -/
def FBK_EMCFG_INV : Field := ⟨0x50800, 32, 8, 0, 1, 0, 14, 1, .rw, .const 0, keptFCH⟩
/-- FBK_EMCFGe.EDGEMAX (chapter 05). -/
def FBK_EMCFG_EDGEMAX : Field := ⟨0x50800, 32, 8, 0, 1, 0, 0, 8, .rw, .const 0xc8, keptFCH⟩
/-- FBK_EMRATLe.RATIO (chapter 05). -/
def FBK_EMRATL_RATIO : Field := ⟨0x50804, 32, 8, 0, 1, 0, 0, 32, .rw, .const 0, keptFCH⟩
/-- FBK_EMRATHe.RATIO (chapter 05). -/
def FBK_EMRATH_RATIO : Field := ⟨0x50808, 32, 8, 0, 1, 0, 0, 32, .rw, .const 1, keptFCH⟩
/-- FBK_EMZPERe.ZPER (chapter 05). -/
def FBK_EMZPER_ZPER : Field := ⟨0x5080c, 32, 8, 0, 1, 0, 0, 21, .rw, .const 0x10000, keptFCH⟩
/-- FBK_EMSTATe.ELIM (chapter 05). -/
def FBK_EMSTAT_ELIM : Field := ⟨0x50810, 32, 8, 0, 1, 0, 31, 1, .w1c, .const 0, [.f]⟩
/-- FBK_EMSTATe.SRCBAD (chapter 05). -/
def FBK_EMSTAT_SRCBAD : Field := ⟨0x50810, 32, 8, 0, 1, 0, 30, 1, .w1c, .const 0, [.f]⟩
/-- FBK_EMSTATe.BACKLOG (chapter 05). -/
def FBK_EMSTAT_BACKLOG : Field := ⟨0x50810, 32, 8, 0, 1, 0, 0, 24, .ro, .const 0, keptFCH⟩
/-- FBK_EMCNTe.C (chapter 05). -/
def FBK_EMCNT_C : Field := ⟨0x50814, 32, 8, 0, 1, 0, 0, 32, .ro, .const 0, keptFCH⟩
/-- CNV_CTL.CLRCNT (chapter 06). -/
def CNV_CTL_CLRCNT : Field := ⟨0x60000, 0, 1, 0, 1, 0, 1, 1, .wo, .const 0, []⟩
/-- CNV_CTL.REFSEL (chapter 06). -/
def CNV_CTL_REFSEL : Field := ⟨0x60000, 0, 1, 0, 1, 0, 0, 1, .rw, .const 0, keptFCH⟩
/-- CNV_IBASE.BASE (chapter 06). -/
def CNV_IBASE_BASE : Field := ⟨0x60004, 0, 1, 0, 1, 0, 10, 22, .rw, .const 0, keptFCH⟩
/-- CNV_DBASE.BASE (chapter 06). -/
def CNV_DBASE_BASE : Field := ⟨0x60008, 0, 1, 0, 1, 0, 6, 26, .rw, .const 0, keptFCH⟩
/-- CNV_REFSTAT.REFERR (chapter 06). -/
def CNV_REFSTAT_REFERR : Field := ⟨0x6000c, 0, 1, 0, 1, 0, 1, 1, .w1c, .const 0, [.f]⟩
/-- CNV_REFSTAT.REFOK (chapter 06). -/
def CNV_REFSTAT_REFOK : Field := ⟨0x6000c, 0, 1, 0, 1, 0, 0, 1, .ro, .const 0, keptFCH⟩
/-- CNV_EVSUM.DAC (chapter 06). -/
def CNV_EVSUM_DAC : Field := ⟨0x60010, 0, 1, 0, 1, 0, 16, 16, .w1c, .const 0, [.f]⟩
/-- CNV_EVSUM.ADC (chapter 06). -/
def CNV_EVSUM_ADC : Field := ⟨0x60010, 0, 1, 0, 1, 0, 0, 16, .w1c, .const 0, [.f]⟩
/-- CNV_CFGn.EN (chapter 06). -/
def CNV_CFG_EN : Field := ⟨0x60100, 16, 16, 0, 1, 0, 31, 1, .rw, .const 0, keptFCH⟩
/-- CNV_CFGn.ILV (chapter 06). -/
def CNV_CFG_ILV : Field := ⟨0x60100, 16, 16, 0, 1, 0, 30, 1, .rw, .const 0, keptFCH⟩
/-- CNV_CFGn.PDDIS (chapter 06). -/
def CNV_CFG_PDDIS : Field := ⟨0x60100, 16, 16, 0, 1, 0, 29, 1, .rw, .const 0, keptFCH⟩
/-- CNV_CFGn.RING (chapter 06). -/
def CNV_CFG_RING : Field := ⟨0x60100, 16, 16, 0, 1, 0, 24, 3, .rw, .const 0, keptFCH⟩
/-- CNV_CFGn.NENT (chapter 06). -/
def CNV_CFG_NENT : Field := ⟨0x60100, 16, 16, 0, 1, 0, 16, 3, .rw, .const 0, keptFCH⟩
/-- CNV_CFGn.AVG (chapter 06). -/
def CNV_CFG_AVG : Field := ⟨0x60100, 16, 16, 0, 1, 0, 0, 8, .rw, .const 0, keptFCH⟩
/-- CNV_STATn.RUN (chapter 06). -/
def CNV_STAT_RUN : Field := ⟨0x60104, 16, 16, 0, 1, 0, 31, 1, .ro, .const 0, keptFCH⟩
/-- CNV_STATn.CFGERR (chapter 06). -/
def CNV_STAT_CFGERR : Field := ⟨0x60104, 16, 16, 0, 1, 0, 30, 1, .ro, .const 0, keptFCH⟩
/-- CNV_STATn.PWRDN (chapter 06). -/
def CNV_STAT_PWRDN : Field := ⟨0x60104, 16, 16, 0, 1, 0, 29, 1, .ro, .const 0, keptFCH⟩
/-- CNV_STATn.STALE (chapter 06). -/
def CNV_STAT_STALE : Field := ⟨0x60104, 16, 16, 0, 1, 0, 7, 1, .w1c, .const 0, [.f]⟩
/-- CNV_STATn.OVR (chapter 06). -/
def CNV_STAT_OVR : Field := ⟨0x60104, 16, 16, 0, 1, 0, 6, 1, .w1c, .const 0, [.f]⟩
/-- CNV_STATn.REFERR (chapter 06). -/
def CNV_STAT_REFERR : Field := ⟨0x60104, 16, 16, 0, 1, 0, 5, 1, .w1c, .const 0, [.f]⟩
/-- CNV_STATn.WAKEERR (chapter 06). -/
def CNV_STAT_WAKEERR : Field := ⟨0x60104, 16, 16, 0, 1, 0, 4, 1, .w1c, .const 0, [.f]⟩
/-- CNV_STATn.PSN (chapter 06). -/
def CNV_STAT_PSN : Field := ⟨0x60104, 16, 16, 0, 1, 0, 3, 1, .w1c, .const 0, [.f]⟩
/-- CNV_CNTn.STALECNT (chapter 06). -/
def CNV_CNT_STALECNT : Field := ⟨0x60108, 16, 16, 0, 1, 0, 16, 16, .ro, .const 0, [.f]⟩
/-- CNV_CNTn.OVRCNT (chapter 06). -/
def CNV_CNT_OVRCNT : Field := ⟨0x60108, 16, 16, 0, 1, 0, 0, 16, .ro, .const 0, [.f]⟩
/-- CNV_ENTn_j.SCEN (chapter 06). -/
def CNV_ENT_SCEN : Field := ⟨0x61000, 32, 16, 4, 8, 0, 10, 1, .rw, .const 0, keptFCH⟩
/-- CNV_ENTn_j.RANGE (chapter 06). -/
def CNV_ENT_RANGE : Field := ⟨0x61000, 32, 16, 4, 8, 0, 8, 2, .rw, .const 0, keptFCH⟩
/-- CNV_ENTn_j.CH (chapter 06). -/
def CNV_ENT_CH : Field := ⟨0x61000, 32, 16, 4, 8, 0, 0, 7, .rw, .const 0, keptFCH⟩
/-- CNV_SCLn_j.SCALE (chapter 06). -/
def CNV_SCL_SCALE : Field := ⟨0x62000, 64, 16, 8, 8, 0, 0, 32, .rw, .const 0x3f800000, keptFCH⟩
/-- CNV_SOFn_j.OFFSET (chapter 06). -/
def CNV_SOF_OFFSET : Field := ⟨0x62004, 64, 16, 8, 8, 0, 0, 32, .rw, .const 0, keptFCH⟩
/-- CNV_ILBASEp.BASE (chapter 06). -/
def CNV_ILBASE_BASE : Field := ⟨0x60400, 16, 8, 0, 1, 0, 5, 27, .rw, .const 0, keptFCH⟩
/-- CNV_ILLENp.LOG2 (chapter 06). -/
def CNV_ILLEN_LOG2 : Field := ⟨0x60404, 16, 8, 0, 1, 0, 0, 5, .rw, .const 0xc, keptFCH⟩
/-- CNV_ILTRIMp.SKEW (chapter 06). -/
def CNV_ILTRIM_SKEW : Field := ⟨0x60408, 16, 8, 0, 1, 0, 24, 8, .rw, .const 0, keptFCH⟩
/-- CNV_ILTRIMp.OFS (chapter 06). -/
def CNV_ILTRIM_OFS : Field := ⟨0x60408, 16, 8, 0, 1, 0, 0, 16, .rw, .const 0, keptFCH⟩
/-- CNV_ILGAINp.GAIN (chapter 06). -/
def CNV_ILGAIN_GAIN : Field := ⟨0x6040c, 16, 8, 0, 1, 0, 0, 16, .rw, .const 0, keptFCH⟩
/-- CNV_DCFGd.EN (chapter 06). -/
def CNV_DCFG_EN : Field := ⟨0x60800, 16, 16, 0, 1, 0, 31, 1, .rw, .const 0, keptFCH⟩
/-- CNV_DCFGd.FMT (chapter 06). -/
def CNV_DCFG_FMT : Field := ⟨0x60800, 16, 16, 0, 1, 0, 30, 1, .rw, .const 0, keptFCH⟩
/-- CNV_DCFGd.RING (chapter 06). -/
def CNV_DCFG_RING : Field := ⟨0x60800, 16, 16, 0, 1, 0, 24, 3, .rw, .const 0, keptFCH⟩
/-- CNV_DCFGd.SAFE (chapter 06). -/
def CNV_DCFG_SAFE : Field := ⟨0x60800, 16, 16, 0, 1, 0, 0, 16, .rw, .const 0, keptFCH⟩
/-- CNV_DSCLd.DSCALE (chapter 06). -/
def CNV_DSCL_DSCALE : Field := ⟨0x60804, 16, 16, 0, 1, 0, 0, 32, .rw, .const 0x3f800000, keptFCH⟩
/-- CNV_DOFSd.DOFS (chapter 06). -/
def CNV_DOFS_DOFS : Field := ⟨0x60808, 16, 16, 0, 1, 0, 0, 32, .rw, .const 0, keptFCH⟩
/-- CNV_DSTATd.NAN (chapter 06). -/
def CNV_DSTAT_NAN : Field := ⟨0x6080c, 16, 16, 0, 1, 0, 31, 1, .w1c, .const 0, [.f]⟩
/-- CNV_DSTATd.PSN (chapter 06). -/
def CNV_DSTAT_PSN : Field := ⟨0x6080c, 16, 16, 0, 1, 0, 30, 1, .w1c, .const 0, [.f]⟩
/-- CNV_DSTATd.CLIP (chapter 06). -/
def CNV_DSTAT_CLIP : Field := ⟨0x6080c, 16, 16, 0, 1, 0, 29, 1, .w1c, .const 0, [.f]⟩
/-- CNV_DSTATd.CODE (chapter 06). -/
def CNV_DSTAT_CODE : Field := ⟨0x6080c, 16, 16, 0, 1, 0, 0, 16, .ro, .const 0, keptFCH⟩
/-- TEX_PSTAT.FORCED (chapter 07). -/
def TEX_PSTAT_FORCED : Field := ⟨0x73000, 0, 1, 0, 1, 0, 31, 1, .ro, .const 0, [.f, .h]⟩
/-- TEX_PSTAT.RUNREJ (chapter 07). -/
def TEX_PSTAT_RUNREJ : Field := ⟨0x73000, 0, 1, 0, 1, 0, 30, 1, .w1c, .const 0, keptFCH⟩
/-- TEX_PSTAT.WARMREJ (chapter 07). -/
def TEX_PSTAT_WARMREJ : Field := ⟨0x73000, 0, 1, 0, 1, 0, 29, 1, .w1c, .const 0, keptFCH⟩
/-- TEX_PSTAT.STATE (chapter 07). -/
def TEX_PSTAT_STATE : Field := ⟨0x73000, 0, 1, 0, 1, 0, 0, 2, .ro, .const 0, [.f]⟩
/-- TEX_PCMD.CMD (chapter 07). -/
def TEX_PCMD_CMD : Field := ⟨0x73004, 0, 1, 0, 1, 0, 0, 3, .wo, .const 0, []⟩
/-- TEX_IBASE.BASE (chapter 07). -/
def TEX_IBASE_BASE : Field := ⟨0x73008, 0, 1, 0, 1, 0, 15, 17, .rw, .const 0, keptFCH⟩
/-- TEX_CKCFG.CKPER (chapter 07). -/
def TEX_CKCFG_CKPER : Field := ⟨0x7300c, 0, 1, 0, 1, 0, 0, 16, .rw, .const 0, keptFCH⟩
/-- TEX_CKSTAT.BUSY (chapter 07). -/
def TEX_CKSTAT_BUSY : Field := ⟨0x73010, 0, 1, 0, 1, 0, 31, 1, .ro, .const 0, keptFCH⟩
/-- TEX_CKSTAT.FAIL (chapter 07). -/
def TEX_CKSTAT_FAIL : Field := ⟨0x73010, 0, 1, 0, 1, 0, 30, 1, .w1c, .const 0, keptFCH⟩
/-- TEX_CKSTAT.PARTIAL (chapter 07). -/
def TEX_CKSTAT_PARTIAL : Field := ⟨0x73010, 0, 1, 0, 1, 0, 29, 1, .ro, .const 0, keptFCH⟩
/-- TEX_CKSTAT.SEQ (chapter 07). -/
def TEX_CKSTAT_SEQ : Field := ⟨0x73010, 0, 1, 0, 1, 0, 0, 16, .ro, .const 0, keptAll⟩
/-- TEX_CKTLO.HT (chapter 07). -/
def TEX_CKTLO_HT : Field := ⟨0x73014, 0, 1, 0, 1, 0, 0, 32, .ro, .const 0, keptAll⟩
/-- TEX_CKTHI.HT (chapter 07). -/
def TEX_CKTHI_HT : Field := ⟨0x73018, 0, 1, 0, 1, 0, 0, 32, .ro, .const 0, keptAll⟩
/-- TEX_OCCTL.ARM (chapter 07). -/
def TEX_OCCTL_ARM : Field := ⟨0x73020, 0, 1, 0, 1, 0, 31, 1, .w1s, .const 0, []⟩
/-- TEX_OCCTL.ABORT (chapter 07). -/
def TEX_OCCTL_ABORT : Field := ⟨0x73020, 0, 1, 0, 1, 0, 30, 1, .wo, .const 0, []⟩
/-- TEX_OCCTL.TMO (chapter 07). -/
def TEX_OCCTL_TMO : Field := ⟨0x73020, 0, 1, 0, 1, 0, 0, 16, .rw, .const 0x3e8, keptFCH⟩
/-- TEX_OCSTAT.DONE (chapter 07). -/
def TEX_OCSTAT_DONE : Field := ⟨0x73024, 0, 1, 0, 1, 0, 30, 1, .w1c, .const 0, keptFCH⟩
/-- TEX_OCSTAT.REJ (chapter 07). -/
def TEX_OCSTAT_REJ : Field := ⟨0x73024, 0, 1, 0, 1, 0, 29, 1, .w1c, .const 0, keptFCH⟩
/-- TEX_OCSTAT.CAUSE (chapter 07). -/
def TEX_OCSTAT_CAUSE : Field := ⟨0x73024, 0, 1, 0, 1, 0, 0, 4, .ro, .const 0, keptFCH⟩
/-- TEX_OCMASKi.MASK (chapter 07). -/
def TEX_OCMASK_MASK : Field := ⟨0x73040, 4, 8, 0, 1, 0, 0, 32, .rw, .const 0, keptFCH⟩
/-- TEX_FSTAT.DUPREJ (chapter 07). -/
def TEX_FSTAT_DUPREJ : Field := ⟨0x73060, 0, 1, 0, 1, 0, 31, 1, .w1c, .const 0, [.f, .h]⟩
/-- TEX_FSTAT.ORPHAN (chapter 07). -/
def TEX_FSTAT_ORPHAN : Field := ⟨0x73060, 0, 1, 0, 1, 0, 30, 1, .ro, .const 0, [.f, .h]⟩
/-- TEX_FSTAT.NACT (chapter 07). -/
def TEX_FSTAT_NACT : Field := ⟨0x73060, 0, 1, 0, 1, 0, 0, 11, .ro, .const 0, [.f, .h]⟩
/-- TEX_TCFGt.KIND (chapter 07). -/
def TEX_TCFG_KIND : Field := ⟨0x74000, 16, 256, 0, 1, 0, 30, 2, .rw, .const 0, keptFCH⟩
/-- TEX_TCFGt.BANK (chapter 07). -/
def TEX_TCFG_BANK : Field := ⟨0x74000, 16, 256, 0, 1, 0, 29, 1, .ro, .const 0, keptFCH⟩
/-- TEX_TCFGt.PEND (chapter 07). -/
def TEX_TCFG_PEND : Field := ⟨0x74000, 16, 256, 0, 1, 0, 28, 1, .ro, .const 0, keptFCH⟩
/-- TEX_TCFGt.RING (chapter 07). -/
def TEX_TCFG_RING : Field := ⟨0x74000, 16, 256, 0, 1, 0, 24, 3, .rw, .const 0, keptFCH⟩
/-- TEX_TCFGt.PRIO (chapter 07). -/
def TEX_TCFG_PRIO : Field := ⟨0x74000, 16, 256, 0, 1, 0, 16, 6, .rw, .const 0x3f, keptFCH⟩
/-- TEX_TCFGt.DIVM1 (chapter 07). -/
def TEX_TCFG_DIVM1 : Field := ⟨0x74000, 16, 256, 0, 1, 0, 8, 8, .rw, .const 0, keptFCH⟩
/-- TEX_TCFGt.OFS (chapter 07). -/
def TEX_TCFG_OFS : Field := ⟨0x74000, 16, 256, 0, 1, 0, 0, 8, .rw, .const 0, keptFCH⟩
/-- TEX_TSTATt.LATE (chapter 07). -/
def TEX_TSTAT_LATE : Field := ⟨0x74004, 16, 256, 0, 1, 0, 31, 1, .w1c, .const 0, [.f]⟩
/-- TEX_TSTATt.OVR (chapter 07). -/
def TEX_TSTAT_OVR : Field := ⟨0x74004, 16, 256, 0, 1, 0, 30, 1, .w1c, .const 0, [.f]⟩
/-- TEX_TSTATt.RUNNING (chapter 07). -/
def TEX_TSTAT_RUNNING : Field := ⟨0x74004, 16, 256, 0, 1, 0, 29, 1, .ro, .const 0, [.f]⟩
/-- TEX_TSTATt.CFGERR (chapter 07). -/
def TEX_TSTAT_CFGERR : Field := ⟨0x74004, 16, 256, 0, 1, 0, 28, 1, .ro, .const 0, keptFCH⟩
/-- TEX_TSTATt.SEGPSN (chapter 07). -/
def TEX_TSTAT_SEGPSN : Field := ⟨0x74004, 16, 256, 0, 1, 0, 27, 1, .w1c, .const 0, [.f]⟩
/-- TEX_TCNTt.SKIP (chapter 07). -/
def TEX_TCNT_SKIP : Field := ⟨0x74008, 16, 256, 0, 1, 0, 16, 16, .ro, .const 0, [.f]⟩
/-- TEX_TCNTt.LATECNT (chapter 07). -/
def TEX_TCNT_LATECNT : Field := ⟨0x74008, 16, 256, 0, 1, 0, 0, 16, .ro, .const 0, [.f]⟩
/-- TEX_TTIMEt.MAX (chapter 07). -/
def TEX_TTIME_MAX : Field := ⟨0x7400c, 16, 256, 0, 1, 0, 16, 16, .ro, .const 0, [.f]⟩
/-- TEX_TTIMEt.LAST (chapter 07). -/
def TEX_TTIME_LAST : Field := ⟨0x7400c, 16, 256, 0, 1, 0, 0, 16, .ro, .const 0, [.f]⟩
/-- TEX_FCTLf.ACT (chapter 07). -/
def TEX_FCTL_ACT : Field := ⟨0x78000, 32, 1024, 0, 1, 0, 31, 1, .rw, .const 0, [.f, .h]⟩
/-- TEX_FCTLf.DIR (chapter 07). -/
def TEX_FCTL_DIR : Field := ⟨0x78000, 32, 1024, 0, 1, 0, 30, 1, .rw, .const 0, [.f, .h]⟩
/-- TEX_FCTLf.ORPHAN (chapter 07). -/
def TEX_FCTL_ORPHAN : Field := ⟨0x78000, 32, 1024, 0, 1, 0, 29, 1, .ro, .const 0, [.f, .h]⟩
/-- TEX_FCTLf.PEND (chapter 07). -/
def TEX_FCTL_PEND : Field := ⟨0x78000, 32, 1024, 0, 1, 0, 28, 1, .ro, .const 0, [.f, .h]⟩
/-- TEX_FCTLf.COMMIT (chapter 07). -/
def TEX_FCTL_COMMIT : Field := ⟨0x78000, 32, 1024, 0, 1, 0, 0, 1, .w1s, .const 0, []⟩
/-- TEX_FADRf.ADDR (chapter 07). -/
def TEX_FADR_ADDR : Field := ⟨0x78004, 32, 1024, 0, 1, 0, 3, 29, .rw, .const 0, [.f, .h]⟩
/-- TEX_FMSKLf.MASK (chapter 07). -/
def TEX_FMSKL_MASK : Field := ⟨0x78008, 32, 1024, 0, 1, 0, 0, 32, .rw, .const 0, [.f, .h]⟩
/-- TEX_FMSKHf.MASK (chapter 07). -/
def TEX_FMSKH_MASK : Field := ⟨0x7800c, 32, 1024, 0, 1, 0, 0, 32, .rw, .const 0, [.f, .h]⟩
/-- TEX_FVALLf.VALUE (chapter 07). -/
def TEX_FVALL_VALUE : Field := ⟨0x78010, 32, 1024, 0, 1, 0, 0, 32, .rw, .const 0, [.f, .h]⟩
/-- TEX_FVALHf.VALUE (chapter 07). -/
def TEX_FVALH_VALUE : Field := ⟨0x78014, 32, 1024, 0, 1, 0, 0, 32, .rw, .const 0, [.f, .h]⟩
/-- TEX_DCTL.CLRCNT (chapter 08). -/
def TEX_DCTL_CLRCNT : Field := ⟨0x75000, 0, 1, 0, 1, 0, 1, 1, .wo, .const 0, []⟩
/-- TEX_DCTL.DET (chapter 08). -/
def TEX_DCTL_DET : Field := ⟨0x75000, 0, 1, 0, 1, 0, 0, 1, .rw, .const 0, keptFCH⟩
/-- TEX_DSTAT.FULL (chapter 08). -/
def TEX_DSTAT_FULL : Field := ⟨0x75004, 0, 1, 0, 1, 0, 31, 1, .w1c, .const 0, [.f]⟩
/-- TEX_DSTAT.STRAND (chapter 08). -/
def TEX_DSTAT_STRAND : Field := ⟨0x75004, 0, 1, 0, 1, 0, 30, 1, .w1c, .const 0, [.f]⟩
/-- TEX_DSTAT.NFREE (chapter 08). -/
def TEX_DSTAT_NFREE : Field := ⟨0x75004, 0, 1, 0, 1, 0, 0, 15, .ro, .const 0x4000, [.f]⟩
/-- TEX_WBASE.BASE (chapter 08). -/
def TEX_WBASE_BASE : Field := ⟨0x75008, 0, 1, 0, 1, 0, 18, 14, .rw, .const 0, keptFCH⟩
/-- TEX_FLBASE.BASE (chapter 08). -/
def TEX_FLBASE_BASE : Field := ⟨0x7500c, 0, 1, 0, 1, 0, 15, 17, .rw, .const 0, keptFCH⟩
/-- TEX_ECMD.JOIN (chapter 08). -/
def TEX_ECMD_JOIN : Field := ⟨0x75010, 0, 1, 0, 1, 0, 8, 8, .wo, .const 0, []⟩
/-- TEX_ECMD.LEAVE (chapter 08). -/
def TEX_ECMD_LEAVE : Field := ⟨0x75010, 0, 1, 0, 1, 0, 0, 8, .wo, .const 0, []⟩
/-- TEX_EPOOL.TESTING (chapter 08). -/
def TEX_EPOOL_TESTING : Field := ⟨0x75014, 0, 1, 0, 1, 0, 16, 8, .ro, .const 0, keptFCH⟩
/-- TEX_EPOOL.FAULT (chapter 08). -/
def TEX_EPOOL_FAULT : Field := ⟨0x75014, 0, 1, 0, 1, 0, 8, 8, .w1c, .const 0, keptFCH⟩
/-- TEX_EPOOL.MEMBER (chapter 08). -/
def TEX_EPOOL_MEMBER : Field := ⟨0x75014, 0, 1, 0, 1, 0, 0, 8, .ro, .const 0xff, keptFCH⟩
/-- TEX_DCNT.RETURN (chapter 08). -/
def TEX_DCNT_RETURN : Field := ⟨0x75018, 0, 1, 0, 1, 0, 16, 16, .ro, .const 0, [.f]⟩
/-- TEX_DCNT.POSTREJ (chapter 08). -/
def TEX_DCNT_POSTREJ : Field := ⟨0x75018, 0, 1, 0, 1, 0, 0, 16, .ro, .const 0, [.f]⟩
/-- TEX_DCFGt.AFF (chapter 08). -/
def TEX_DCFG_AFF : Field := ⟨0x75400, 32, 256, 0, 1, 0, 24, 8, .rw, .const 0xff, keptFCH⟩
/-- TEX_DCFGt.NOPRE (chapter 08). -/
def TEX_DCFG_NOPRE : Field := ⟨0x75400, 32, 256, 0, 1, 0, 23, 1, .rw, .const 0, keptFCH⟩
/-- TEX_DCFGt.GEN (chapter 08). -/
def TEX_DCFG_GEN : Field := ⟨0x75400, 32, 256, 0, 1, 0, 22, 1, .rw, .const 0, keptFCH⟩
/-- TEX_DCFGt.GRP (chapter 08). -/
def TEX_DCFG_GRP : Field := ⟨0x75400, 32, 256, 0, 1, 0, 16, 6, .rw, .const 0, keptFCH⟩
/-- TEX_DWAITt.MASK (chapter 08). -/
def TEX_DWAIT_MASK : Field := ⟨0x75404, 32, 256, 0, 1, 0, 0, 32, .rw, .const 0, keptFCH⟩
/-- TEX_DWCTLt.AND (chapter 08). -/
def TEX_DWCTL_AND : Field := ⟨0x75408, 32, 256, 0, 1, 0, 31, 1, .rw, .const 0, keptFCH⟩
/-- TEX_DWCTLt.CONSUME (chapter 08). -/
def TEX_DWCTL_CONSUME : Field := ⟨0x75408, 32, 256, 0, 1, 0, 30, 1, .rw, .const 1, keptFCH⟩
/-- TEX_DWCTLt.TMO (chapter 08). -/
def TEX_DWCTL_TMO : Field := ⟨0x75408, 32, 256, 0, 1, 0, 0, 24, .rw, .const 0, keptFCH⟩
/-- TEX_EFLAGt.F (chapter 08). -/
def TEX_EFLAG_F : Field := ⟨0x7540c, 32, 256, 0, 1, 0, 0, 32, .w1s, .const 0, [.f]⟩
/-- TEX_EFLAGCt.F (chapter 08). -/
def TEX_EFLAGC_F : Field := ⟨0x75410, 32, 256, 0, 1, 0, 0, 32, .w1c, .const 0, [.f]⟩
/-- TEX_DSTATEt.TOUT (chapter 08). -/
def TEX_DSTATE_TOUT : Field := ⟨0x75414, 32, 256, 0, 1, 0, 17, 1, .w1c, .const 0, [.f]⟩
/-- TEX_DSTATEt.STRAND (chapter 08). -/
def TEX_DSTATE_STRAND : Field := ⟨0x75414, 32, 256, 0, 1, 0, 16, 1, .ro, .const 0, [.f]⟩
/-- TEX_DSTATEt.ENG (chapter 08). -/
def TEX_DSTATE_ENG : Field := ⟨0x75414, 32, 256, 0, 1, 0, 8, 4, .ro, .const 0, [.f]⟩
/-- TEX_DSTATEt.STATE (chapter 08). -/
def TEX_DSTATE_STATE : Field := ⟨0x75414, 32, 256, 0, 1, 0, 0, 3, .ro, .const 0, [.f]⟩
/-- TEX_DRELt.R (chapter 08). -/
def TEX_DREL_R : Field := ⟨0x75418, 32, 256, 0, 1, 0, 0, 32, .ro, .const 0, [.f]⟩
/-- TEX_GCFGg.NOSLOT (chapter 08). -/
def TEX_GCFG_NOSLOT : Field := ⟨0x77400, 4, 64, 0, 1, 0, 8, 1, .rw, .const 0, keptFCH⟩
/-- TEX_GCFGg.FLAG (chapter 08). -/
def TEX_GCFG_FLAG : Field := ⟨0x77400, 4, 64, 0, 1, 0, 0, 5, .rw, .const 0, keptFCH⟩
/-- TEX_XCTL.STOPX (chapter 09). -/
def TEX_XCTL_STOPX : Field := ⟨0x70000, 0, 1, 0, 1, 0, 0, 1, .rw, .const 0, keptFCH⟩
/-- TEX_CTXBASE.BASE (chapter 09). -/
def TEX_CTXBASE_BASE : Field := ⟨0x70004, 0, 1, 0, 1, 0, 21, 11, .rw, .const 0, keptFCH⟩
/-- TEX_LOAD.BUSY (chapter 09). -/
def TEX_LOAD_BUSY : Field := ⟨0x70008, 0, 1, 0, 1, 0, 31, 1, .ro, .const 0, keptFCH⟩
/-- TEX_LOAD.LDERR (chapter 09). -/
def TEX_LOAD_LDERR : Field := ⟨0x70008, 0, 1, 0, 1, 0, 30, 1, .w1c, .const 0, keptFCH⟩
/-- TEX_LOAD.DONE (chapter 09). -/
def TEX_LOAD_DONE : Field := ⟨0x70008, 0, 1, 0, 1, 0, 0, 8, .ro, .const 0, keptFCH⟩
/-- TEX_XSTATe.XV (chapter 09). -/
def TEX_XSTAT_XV : Field := ⟨0x70100, 32, 8, 0, 1, 0, 31, 1, .w1c, .const 0, keptFCH⟩
/-- TEX_XSTATe.TASK (chapter 09). -/
def TEX_XSTAT_TASK : Field := ⟨0x70100, 32, 8, 0, 1, 0, 16, 8, .ro, .const 0, keptFCH⟩
/-- TEX_XSTATe.ROLE (chapter 09). -/
def TEX_XSTAT_ROLE : Field := ⟨0x70100, 32, 8, 0, 1, 0, 8, 8, .ro, .const 0, keptFCH⟩
/-- TEX_XSTATe.CODE (chapter 09). -/
def TEX_XSTAT_CODE : Field := ⟨0x70100, 32, 8, 0, 1, 0, 0, 8, .ro, .const 0, keptFCH⟩
/-- TEX_XPCe.PC (chapter 09). -/
def TEX_XPC_PC : Field := ⟨0x70104, 32, 8, 0, 1, 0, 0, 32, .ro, .const 0, keptFCH⟩
/-- TEX_XVALe.VAL (chapter 09). -/
def TEX_XVAL_VAL : Field := ⟨0x70108, 32, 8, 0, 1, 0, 0, 32, .ro, .const 0, keptFCH⟩
/-- TEX_ECNTe.CODECORR (chapter 09). -/
def TEX_ECNT_CODECORR : Field := ⟨0x7010c, 32, 8, 0, 1, 0, 16, 16, .ro, .const 0, keptFCH⟩
/-- TEX_ECNTe.DATACORR (chapter 09). -/
def TEX_ECNT_DATACORR : Field := ⟨0x7010c, 32, 8, 0, 1, 0, 0, 16, .ro, .const 0, keptFCH⟩
/-- TEX_EFLTe.CAUSE (chapter 09). -/
def TEX_EFLT_CAUSE : Field := ⟨0x70110, 32, 8, 0, 1, 0, 0, 2, .ro, .const 0, keptFCH⟩
/-- TEX_MPFIRr.PAGE (chapter 09). -/
def TEX_MPFIR_PAGE : Field := ⟨0x70800, 16, 16, 0, 1, 0, 12, 20, .bl, .const 0, keptFCH⟩
/-- TEX_MPLASr.PAGE (chapter 09). -/
def TEX_MPLAS_PAGE : Field := ⟨0x70804, 16, 16, 0, 1, 0, 12, 20, .bl, .first 0x2fff, keptFCH⟩
/-- TEX_MPCTLr.EN (chapter 09). -/
def TEX_MPCTL_EN : Field := ⟨0x70808, 16, 16, 0, 1, 0, 31, 1, .bl, .first 0x1, keptFCH⟩
/-- TEX_MPCTLr.WR (chapter 09). -/
def TEX_MPCTL_WR : Field := ⟨0x70808, 16, 16, 0, 1, 0, 9, 1, .bl, .first 0x1, keptFCH⟩
/-- TEX_MPCTLr.RD (chapter 09). -/
def TEX_MPCTL_RD : Field := ⟨0x70808, 16, 16, 0, 1, 0, 8, 1, .bl, .first 0x1, keptFCH⟩
/-- TEX_MPCTLr.CLASS (chapter 09). -/
def TEX_MPCTL_CLASS : Field := ⟨0x70808, 16, 16, 0, 1, 0, 0, 4, .bl, .first 0xf, keptFCH⟩
/-- TEX_XCFGt.PCLASS (chapter 09). -/
def TEX_XCFG_PCLASS : Field := ⟨0x71000, 8, 256, 0, 1, 0, 0, 2, .bl, .const 0, keptFCH⟩
/-- TEX_XCNTt.HANDLED (chapter 09). -/
def TEX_XCNT_HANDLED : Field := ⟨0x71004, 8, 256, 0, 1, 0, 16, 16, .ro, .const 0, [.f]⟩
/-- TEX_XCNTt.ABANDON (chapter 09). -/
def TEX_XCNT_ABANDON : Field := ⟨0x71004, 8, 256, 0, 1, 0, 0, 16, .ro, .const 0, [.f]⟩
/-- LND_CTL.CLRCNT (chapter 10). -/
def LND_CTL_CLRCNT : Field := ⟨0x80000, 0, 1, 0, 1, 0, 1, 1, .wo, .const 0, []⟩
/-- LND_CTL.SCRUBEN (chapter 10). -/
def LND_CTL_SCRUBEN : Field := ⟨0x80000, 0, 1, 0, 1, 0, 0, 1, .rw, .const 1, keptFCH⟩
/-- LND_SCRUB.PASSMIN (chapter 10). -/
def LND_SCRUB_PASSMIN : Field := ⟨0x80004, 0, 1, 0, 1, 0, 0, 16, .rw, .const 0xf0, keptFCH⟩
/-- LND_SCSTAT.PASSES (chapter 10). -/
def LND_SCSTAT_PASSES : Field := ⟨0x80008, 0, 1, 0, 1, 0, 16, 16, .ro, .const 0, [.b, .w, .s, .f, .c, .h]⟩
/-- LND_SCSTAT.PROG (chapter 10). -/
def LND_SCSTAT_PROG : Field := ⟨0x80008, 0, 1, 0, 1, 0, 0, 10, .ro, .const 0, [.b, .w, .s, .f, .c, .h]⟩
/-- LND_RPT.THRESH (chapter 10). -/
def LND_RPT_THRESH : Field := ⟨0x8000c, 0, 1, 0, 1, 0, 0, 4, .rw, .const 4, keptFCH⟩
/-- LND_ECNT1.CNT (chapter 10). -/
def LND_ECNT1_CNT : Field := ⟨0x80010, 0, 1, 0, 1, 0, 0, 32, .ro, .const 0, [.b, .w, .s, .f, .c, .h]⟩
/-- LND_ECNT2.CNT (chapter 10). -/
def LND_ECNT2_CNT : Field := ⟨0x80014, 0, 1, 0, 1, 0, 0, 32, .ro, .const 0, [.b, .w, .s, .f, .c, .h]⟩
/-- LND_ECNTU.CNT (chapter 10). -/
def LND_ECNTU_CNT : Field := ⟨0x80018, 0, 1, 0, 1, 0, 0, 32, .ro, .const 0, [.b, .w, .s, .f, .c, .h]⟩
/-- LND_ECNTH.CNT (chapter 10). -/
def LND_ECNTH_CNT : Field := ⟨0x8001c, 0, 1, 0, 1, 0, 0, 32, .ro, .const 0, [.b, .w, .s, .f, .c, .h]⟩
/-- LND_ESTAT.CE2 (chapter 10). -/
def LND_ESTAT_CE2 : Field := ⟨0x80020, 0, 1, 0, 1, 0, 31, 1, .w1c, .const 0, [.b, .w, .s, .f, .c, .h]⟩
/-- LND_ESTAT.UE (chapter 10). -/
def LND_ESTAT_UE : Field := ⟨0x80020, 0, 1, 0, 1, 0, 30, 1, .w1c, .const 0, [.b, .w, .s, .f, .c, .h]⟩
/-- LND_ESTAT.HARD (chapter 10). -/
def LND_ESTAT_HARD : Field := ⟨0x80020, 0, 1, 0, 1, 0, 29, 1, .w1c, .const 0, [.b, .w, .s, .f, .c, .h]⟩
/-- LND_ESTAT.PWPSN (chapter 10). -/
def LND_ESTAT_PWPSN : Field := ⟨0x80020, 0, 1, 0, 1, 0, 28, 1, .w1c, .const 0, [.b, .w, .s, .f, .c, .h]⟩
/-- LND_ESTAT.RETACC (chapter 10). -/
def LND_ESTAT_RETACC : Field := ⟨0x80020, 0, 1, 0, 1, 0, 27, 1, .w1c, .const 0, [.b, .w, .s, .f, .c, .h]⟩
/-- LND_ESTAT.ELOVF (chapter 10). -/
def LND_ESTAT_ELOVF : Field := ⟨0x80020, 0, 1, 0, 1, 0, 26, 1, .w1c, .const 0, [.b, .w, .s, .f, .c, .h]⟩
/-- LND_ESTAT.RPTOVF (chapter 10). -/
def LND_ESTAT_RPTOVF : Field := ⟨0x80020, 0, 1, 0, 1, 0, 25, 1, .w1c, .const 0, [.b, .w, .s, .f, .c, .h]⟩
/-- LND_ESTAT.OOR (chapter 10). -/
def LND_ESTAT_OOR : Field := ⟨0x80020, 0, 1, 0, 1, 0, 24, 1, .w1c, .const 0, [.b, .w, .s, .f, .c, .h]⟩
/-- LND_ESTAT.ELCNT (chapter 10). -/
def LND_ESTAT_ELCNT : Field := ⟨0x80020, 0, 1, 0, 1, 0, 0, 7, .ro, .const 0, [.b, .w, .s, .f, .c, .h]⟩
/-- LND_ELCTL.POP (chapter 10). -/
def LND_ELCTL_POP : Field := ⟨0x80024, 0, 1, 0, 1, 0, 0, 1, .wo, .const 0, []⟩
/-- LND_ELLOCL.LOC (chapter 10). -/
def LND_ELLOCL_LOC : Field := ⟨0x80028, 0, 1, 0, 1, 0, 0, 32, .ro, .const 0, [.b, .w, .s, .f, .c, .h]⟩
/-- LND_ELLOCH.LOC (chapter 10). -/
def LND_ELLOCH_LOC : Field := ⟨0x8002c, 0, 1, 0, 1, 0, 0, 32, .ro, .const 0, [.b, .w, .s, .f, .c, .h]⟩
/-- LND_ELINF.CLASS (chapter 10). -/
def LND_ELINF_CLASS : Field := ⟨0x80030, 0, 1, 0, 1, 0, 28, 4, .ro, .const 0, [.b, .w, .s, .f, .c, .h]⟩
/-- LND_ELINF.PORT (chapter 10). -/
def LND_ELINF_PORT : Field := ⟨0x80030, 0, 1, 0, 1, 0, 24, 3, .ro, .const 0, [.b, .w, .s, .f, .c, .h]⟩
/-- LND_ELTIM.HT (chapter 10). -/
def LND_ELTIM_HT : Field := ⟨0x80034, 0, 1, 0, 1, 0, 0, 32, .ro, .const 0, [.b, .w, .s, .f, .c, .h]⟩
/-- LND_RETCNT.CNT (chapter 10). -/
def LND_RETCNT_CNT : Field := ⟨0x80038, 0, 1, 0, 1, 0, 0, 32, .ro, .const 0, [.b, .w, .s, .f, .c, .h]⟩
/-- LND_BCPY.START (chapter 10). -/
def LND_BCPY_START : Field := ⟨0x80040, 0, 1, 0, 1, 0, 31, 1, .w1s, .const 0, keptFCH⟩
/-- LND_BCPY.ABORT (chapter 10). -/
def LND_BCPY_ABORT : Field := ⟨0x80040, 0, 1, 0, 1, 0, 30, 1, .wo, .const 0, []⟩
/-- LND_BCPY.LOGB (chapter 10). -/
def LND_BCPY_LOGB : Field := ⟨0x80040, 0, 1, 0, 1, 0, 16, 5, .rw, .const 0, keptFCH⟩
/-- LND_BCPY.DST (chapter 10). -/
def LND_BCPY_DST : Field := ⟨0x80040, 0, 1, 0, 1, 0, 8, 6, .rw, .const 0x20, keptFCH⟩
/-- LND_BCSTAT.DONE (chapter 10). -/
def LND_BCSTAT_DONE : Field := ⟨0x80044, 0, 1, 0, 1, 0, 31, 1, .w1c, .const 0, keptFCH⟩
/-- LND_BCSTAT.FAIL (chapter 10). -/
def LND_BCSTAT_FAIL : Field := ⟨0x80044, 0, 1, 0, 1, 0, 30, 1, .w1c, .const 0, keptFCH⟩
/-- LND_BCSTAT.CAUSE (chapter 10). -/
def LND_BCSTAT_CAUSE : Field := ⟨0x80044, 0, 1, 0, 1, 0, 24, 4, .ro, .const 0, keptFCH⟩
/-- LND_BCSTAT.LINES (chapter 10). -/
def LND_BCSTAT_LINES : Field := ⟨0x80044, 0, 1, 0, 1, 0, 0, 15, .ro, .const 0, keptFCH⟩
/-- LND_BTEST.START (chapter 10). -/
def LND_BTEST_START : Field := ⟨0x80048, 0, 1, 0, 1, 0, 31, 1, .w1s, .const 0, keptFCH⟩
/-- LND_BTEST.PHYS (chapter 10). -/
def LND_BTEST_PHYS : Field := ⟨0x80048, 0, 1, 0, 1, 0, 0, 6, .rw, .const 0, keptFCH⟩
/-- LND_BTSTAT.DONE (chapter 10). -/
def LND_BTSTAT_DONE : Field := ⟨0x8004c, 0, 1, 0, 1, 0, 31, 1, .w1c, .const 0, keptFCH⟩
/-- LND_BTSTAT.FAIL (chapter 10). -/
def LND_BTSTAT_FAIL : Field := ⟨0x8004c, 0, 1, 0, 1, 0, 30, 1, .w1c, .const 0, keptFCH⟩
/-- LND_BTSTAT.CAUSE (chapter 10). -/
def LND_BTSTAT_CAUSE : Field := ⟨0x8004c, 0, 1, 0, 1, 0, 24, 4, .ro, .const 0, keptFCH⟩
/-- LND_MOFS.OFS (chapter 10). -/
def LND_MOFS_OFS : Field := ⟨0x80060, 0, 1, 0, 1, 0, 3, 21, .rw, .const 0, keptFCH⟩
/-- LND_MDATL.D (chapter 10). -/
def LND_MDATL_D : Field := ⟨0x80064, 0, 1, 0, 1, 0, 0, 32, .rw, .const 0, keptFCH⟩
/-- LND_MDATH.D (chapter 10). -/
def LND_MDATH_D : Field := ⟨0x80068, 0, 1, 0, 1, 0, 0, 32, .rw, .const 0, keptFCH⟩
/-- LND_MCTL.RD (chapter 10). -/
def LND_MCTL_RD : Field := ⟨0x8006c, 0, 1, 0, 1, 0, 31, 1, .w1s, .const 0, []⟩
/-- LND_MCTL.WR (chapter 10). -/
def LND_MCTL_WR : Field := ⟨0x8006c, 0, 1, 0, 1, 0, 30, 1, .w1s, .const 0, []⟩
/-- LND_MCTL.ERR (chapter 10). -/
def LND_MCTL_ERR : Field := ⟨0x8006c, 0, 1, 0, 1, 0, 29, 1, .w1c, .const 0, keptFCH⟩
/-- LND_MCTL.PSN (chapter 10). -/
def LND_MCTL_PSN : Field := ⟨0x8006c, 0, 1, 0, 1, 0, 28, 1, .ro, .const 0, keptFCH⟩
/-- LND_MWP.CFG (chapter 10). -/
def LND_MWP_CFG : Field := ⟨0x80070, 0, 1, 0, 1, 0, 1, 1, .bl, .const 1, keptFCH⟩
/-- LND_MWP.FWB (chapter 10). -/
def LND_MWP_FWB : Field := ⟨0x80070, 0, 1, 0, 1, 0, 0, 1, .bl, .const 1, keptFCH⟩
/-- LND_BMAPb.PHYS (chapter 10). -/
def LND_BMAP_PHYS : Field := ⟨0x80100, 4, 32, 0, 1, 0, 0, 6, .ro, .index, keptFCH⟩
/-- LND_PHSTATp.HARD (chapter 10). -/
def LND_PHSTAT_HARD : Field := ⟨0x80180, 4, 34, 0, 1, 0, 16, 16, .ro, .const 0, [.b, .w, .s, .f, .c, .h]⟩
/-- LND_PHSTATp.STATE (chapter 10). -/
def LND_PHSTAT_STATE : Field := ⟨0x80180, 4, 34, 0, 1, 0, 0, 2, .ro, .fromIdx 32 1, keptFCH⟩
/-- LND_RETp.PAGE (chapter 10). -/
def LND_RET_PAGE : Field := ⟨0x80400, 8, 256, 0, 1, 0, 12, 14, .rw, .const 0, keptFCH⟩
/-- LND_RCTLp.VALID (chapter 10). -/
def LND_RCTL_VALID : Field := ⟨0x80404, 8, 256, 0, 1, 0, 31, 1, .rw, .const 0, keptFCH⟩
/-- LND_RCTLp.PERSIST (chapter 10). -/
def LND_RCTL_PERSIST : Field := ⟨0x80404, 8, 256, 0, 1, 0, 30, 1, .rw, .const 0, keptFCH⟩
/-- HIF_CTL.CLRCNT (chapter 11). -/
def HIF_CTL_CLRCNT : Field := ⟨0x10000, 0, 1, 0, 1, 0, 0, 1, .wo, .const 0, []⟩
/-- HIF_STAT.READY (chapter 11). -/
def HIF_STAT_READY : Field := ⟨0x10004, 0, 1, 0, 1, 0, 31, 1, .ro, .const 0, [.c, .h]⟩
/-- HIF_STAT.PSNRD (chapter 11). -/
def HIF_STAT_PSNRD : Field := ⟨0x10004, 0, 1, 0, 1, 0, 30, 1, .w1c, .const 0, [.c, .h]⟩
/-- HIF_STAT.RETACC (chapter 11). -/
def HIF_STAT_RETACC : Field := ⟨0x10004, 0, 1, 0, 1, 0, 29, 1, .w1c, .const 0, [.c, .h]⟩
/-- HIF_STAT.B2OOR (chapter 11). -/
def HIF_STAT_B2OOR : Field := ⟨0x10004, 0, 1, 0, 1, 0, 28, 1, .w1c, .const 0, [.c, .h]⟩
/-- HIF_DBIGN.EARLY (chapter 11). -/
def HIF_DBIGN_EARLY : Field := ⟨0x10008, 0, 1, 0, 1, 0, 16, 16, .ro, .const 0, [.c, .h]⟩
/-- HIF_DBIGN.BAD (chapter 11). -/
def HIF_DBIGN_BAD : Field := ⟨0x10008, 0, 1, 0, 1, 0, 0, 16, .ro, .const 0, [.c, .h]⟩
/-- HIF_DBLAST.RING (chapter 11). -/
def HIF_DBLAST_RING : Field := ⟨0x1000c, 0, 1, 0, 1, 0, 0, 6, .ro, .const 0, [.c, .h]⟩
/-- HIF_EVPEND.EV (chapter 11). -/
def HIF_EVPEND_EV : Field := ⟨0x10010, 0, 1, 0, 1, 0, 0, 15, .w1c, .const 0, [.c, .h]⟩
/-- HIF_EVMASK.EV (chapter 11). -/
def HIF_EVMASK_EV : Field := ⟨0x10014, 0, 1, 0, 1, 0, 0, 15, .rw, .const 0, [.c, .h]⟩
/-- HIF_PSNLOCL.LOC (chapter 11). -/
def HIF_PSNLOCL_LOC : Field := ⟨0x10018, 0, 1, 0, 1, 0, 0, 32, .ro, .const 0, [.c, .h]⟩
/-- HIF_PSNLOCH.LOC (chapter 11). -/
def HIF_PSNLOCH_LOC : Field := ⟨0x1001c, 0, 1, 0, 1, 0, 0, 32, .ro, .const 0, [.c, .h]⟩
/-- HIF_RBLr.BASE (chapter 11). -/
def HIF_RBL_BASE : Field := ⟨0x11000, 64, 42, 0, 1, 0, 12, 20, .rw, .const 0, [.c, .h]⟩
/-- HIF_RBHr.BASE (chapter 11). -/
def HIF_RBH_BASE : Field := ⟨0x11004, 64, 42, 0, 1, 0, 0, 32, .rw, .const 0, [.c, .h]⟩
/-- HIF_RWLr.WB (chapter 11). -/
def HIF_RWL_WB : Field := ⟨0x11008, 64, 42, 0, 1, 0, 3, 29, .rw, .const 0, [.c, .h]⟩
/-- HIF_RWHr.WB (chapter 11). -/
def HIF_RWH_WB : Field := ⟨0x1100c, 64, 42, 0, 1, 0, 0, 32, .rw, .const 0, [.c, .h]⟩
/-- HIF_RCFGr.EN (chapter 11). -/
def HIF_RCFG_EN : Field := ⟨0x11010, 64, 42, 0, 1, 0, 31, 1, .rw, .const 0, [.c, .h]⟩
/-- HIF_RCFGr.LOG2 (chapter 11). -/
def HIF_RCFG_LOG2 : Field := ⟨0x11010, 64, 42, 0, 1, 0, 24, 5, .rw, .const 8, [.c, .h]⟩
/-- HIF_RCFGr.VEC (chapter 11). -/
def HIF_RCFG_VEC : Field := ⟨0x11010, 64, 42, 0, 1, 0, 16, 6, .rw, .const 0, [.c, .h]⟩
/-- HIF_RCFGr.IEN (chapter 11). -/
def HIF_RCFG_IEN : Field := ⟨0x11010, 64, 42, 0, 1, 0, 15, 1, .rw, .const 0, [.c, .h]⟩
/-- HIF_RIMODr.ITIME (chapter 11). -/
def HIF_RIMOD_ITIME : Field := ⟨0x11014, 64, 42, 0, 1, 0, 16, 16, .rw, .const 0, [.c, .h]⟩
/-- HIF_RIMODr.ICNT (chapter 11). -/
def HIF_RIMOD_ICNT : Field := ⟨0x11014, 64, 42, 0, 1, 0, 0, 16, .rw, .const 1, [.c, .h]⟩
/-- HIF_RSTATr.RUN (chapter 11). -/
def HIF_RSTAT_RUN : Field := ⟨0x11018, 64, 42, 0, 1, 0, 31, 1, .ro, .const 0, [.c, .h]⟩
/-- HIF_RSTATr.CFGERR (chapter 11). -/
def HIF_RSTAT_CFGERR : Field := ⟨0x11018, 64, 42, 0, 1, 0, 30, 1, .ro, .const 0, [.c, .h]⟩
/-- HIF_RSTATr.ERR (chapter 11). -/
def HIF_RSTAT_ERR : Field := ⟨0x11018, 64, 42, 0, 1, 0, 29, 1, .w1c, .const 0, [.c, .h]⟩
/-- HIF_RSTATr.DBBAD (chapter 11). -/
def HIF_RSTAT_DBBAD : Field := ⟨0x11018, 64, 42, 0, 1, 0, 28, 1, .w1c, .const 0, [.c, .h]⟩
/-- HIF_RSTATr.FULLWAIT (chapter 11). -/
def HIF_RSTAT_FULLWAIT : Field := ⟨0x11018, 64, 42, 0, 1, 0, 27, 1, .ro, .const 0, [.c, .h]⟩
/-- HIF_RSTATr.FMT (chapter 11). -/
def HIF_RSTAT_FMT : Field := ⟨0x11018, 64, 42, 0, 1, 0, 26, 1, .w1c, .const 0, [.c, .h]⟩
/-- HIF_RSTATr.ERRCAUSE (chapter 11). -/
def HIF_RSTAT_ERRCAUSE : Field := ⟨0x11018, 64, 42, 0, 1, 0, 0, 4, .ro, .const 0, [.c, .h]⟩
/-- HIF_RCNTr.CNT (chapter 11). -/
def HIF_RCNT_CNT : Field := ⟨0x1101c, 64, 42, 0, 1, 0, 0, 32, .ro, .const 0, [.c, .h]⟩
/-- HIF_SPCFGr.EVERY (chapter 11). -/
def HIF_SPCFG_EVERY : Field := ⟨0x11020, 64, 42, 0, 1, 0, 31, 1, .rw, .const 0, [.c, .h]⟩
/-- HIF_SPCFGr.RING (chapter 11). -/
def HIF_SPCFG_RING : Field := ⟨0x11020, 64, 42, 0, 1, 0, 24, 3, .rw, .const 0, [.c, .h]⟩
/-- HIF_SPCFGr.NSLOT (chapter 11). -/
def HIF_SPCFG_NSLOT : Field := ⟨0x11020, 64, 42, 0, 1, 0, 0, 13, .rw, .const 0, [.c, .h]⟩
/-- HIF_SPBASEr.BASE (chapter 11). -/
def HIF_SPBASE_BASE : Field := ⟨0x11024, 64, 42, 0, 1, 0, 5, 27, .rw, .const 0, [.c, .h]⟩
/-- HIF_SPCNTr.UNDER (chapter 11). -/
def HIF_SPCNT_UNDER : Field := ⟨0x11028, 64, 42, 0, 1, 0, 16, 16, .ro, .const 0, [.c, .h]⟩
/-- HIF_SPCNTr.LATE (chapter 11). -/
def HIF_SPCNT_LATE : Field := ⟨0x11028, 64, 42, 0, 1, 0, 0, 16, .ro, .const 0, [.c, .h]⟩
/-- DBL_RINGr.CNT (chapter 11). -/
def DBL_RING_CNT : Field := ⟨0xf0000, 4, 42, 0, 1, 0, 0, 32, .wo, .const 0, []⟩
/-- NET_CTL.DCLR (chapter 12). -/
def NET_CTL_DCLR : Field := ⟨0x90000, 0, 1, 0, 1, 0, 1, 1, .wo, .const 0, []⟩
/-- NET_CTL.CLRCNT (chapter 12). -/
def NET_CTL_CLRCNT : Field := ⟨0x90000, 0, 1, 0, 1, 0, 0, 1, .wo, .const 0, []⟩
/-- NET_EVSUM.LINK (chapter 12). -/
def NET_EVSUM_LINK : Field := ⟨0x90004, 0, 1, 0, 1, 0, 31, 1, .w1c, .const 0, [.f]⟩
/-- NET_EVSUM.TS (chapter 12). -/
def NET_EVSUM_TS : Field := ⟨0x90004, 0, 1, 0, 1, 0, 30, 1, .w1c, .const 0, [.f]⟩
/-- NET_EVSUM.HOLD (chapter 12). -/
def NET_EVSUM_HOLD : Field := ⟨0x90004, 0, 1, 0, 1, 0, 29, 1, .w1c, .const 0, [.f]⟩
/-- NET_EVSUM.GM (chapter 12). -/
def NET_EVSUM_GM : Field := ⟨0x90004, 0, 1, 0, 1, 0, 28, 1, .w1c, .const 0, [.f]⟩
/-- NET_EVSUM.DROP (chapter 12). -/
def NET_EVSUM_DROP : Field := ⟨0x90004, 0, 1, 0, 1, 0, 27, 1, .w1c, .const 0, [.f]⟩
/-- NET_EVSUM.ADM (chapter 12). -/
def NET_EVSUM_ADM : Field := ⟨0x90004, 0, 1, 0, 1, 0, 26, 1, .w1c, .const 0, [.f]⟩
/-- NET_EVSUM.HAIL (chapter 12). -/
def NET_EVSUM_HAIL : Field := ⟨0x90004, 0, 1, 0, 1, 0, 25, 1, .w1c, .const 0, [.f]⟩
/-- NET_EVSUM.MGN (chapter 12). -/
def NET_EVSUM_MGN : Field := ⟨0x90004, 0, 1, 0, 1, 0, 24, 1, .w1c, .const 0, [.f]⟩
/-- NET_PCFGn.EN (chapter 12). -/
def NET_PCFG_EN : Field := ⟨0x90100, 32, 4, 0, 1, 0, 31, 1, .rw, .const 0, keptFCH⟩
/-- NET_PCFGn.PNEN (chapter 12). -/
def NET_PCFG_PNEN : Field := ⟨0x90100, 32, 4, 0, 1, 0, 30, 1, .rw, .const 0, keptFCH⟩
/-- NET_PCFGn.SIDEEN (chapter 12). -/
def NET_PCFG_SIDEEN : Field := ⟨0x90100, 32, 4, 0, 1, 0, 29, 1, .rw, .const 0, keptFCH⟩
/-- NET_PCFGn.VLAN (chapter 12). -/
def NET_PCFG_VLAN : Field := ⟨0x90100, 32, 4, 0, 1, 0, 28, 1, .rw, .const 0, keptFCH⟩
/-- NET_PCFGn.PCP (chapter 12). -/
def NET_PCFG_PCP : Field := ⟨0x90100, 32, 4, 0, 1, 0, 25, 3, .rw, .const 0, keptFCH⟩
/-- NET_PCFGn.VID (chapter 12). -/
def NET_PCFG_VID : Field := ⟨0x90100, 32, 4, 0, 1, 0, 0, 12, .rw, .const 0, keptFCH⟩
/-- NET_PSTATn.LINK (chapter 12). -/
def NET_PSTAT_LINK : Field := ⟨0x90104, 32, 4, 0, 1, 0, 31, 1, .ro, .const 0, keptFCH⟩
/-- NET_PSTATn.LINKCHG (chapter 12). -/
def NET_PSTAT_LINKCHG : Field := ⟨0x90104, 32, 4, 0, 1, 0, 30, 1, .w1c, .const 0, keptFCH⟩
/-- NET_PSTATn.TSOVF (chapter 12). -/
def NET_PSTAT_TSOVF : Field := ⟨0x90104, 32, 4, 0, 1, 0, 29, 1, .w1c, .const 0, keptFCH⟩
/-- NET_PSTATn.RXDROP (chapter 12). -/
def NET_PSTAT_RXDROP : Field := ⟨0x90104, 32, 4, 0, 1, 0, 28, 1, .w1c, .const 0, keptFCH⟩
/-- NET_MACLn.MAC (chapter 12). -/
def NET_MACL_MAC : Field := ⟨0x90108, 32, 4, 0, 1, 0, 0, 32, .rw, .const 0, keptFCH⟩
/-- NET_MACHn.MAC (chapter 12). -/
def NET_MACH_MAC : Field := ⟨0x9010c, 32, 4, 0, 1, 0, 0, 16, .rw, .const 0, keptFCH⟩
/-- NET_PCNTn.FCS (chapter 12). -/
def NET_PCNT_FCS : Field := ⟨0x90110, 32, 4, 0, 1, 0, 16, 16, .ro, .const 0, keptFCH⟩
/-- NET_PCNTn.TSOVF (chapter 12). -/
def NET_PCNT_TSOVF : Field := ⟨0x90110, 32, 4, 0, 1, 0, 0, 16, .ro, .const 0, keptFCH⟩
/-- NET_PRXDn.DROP (chapter 12). -/
def NET_PRXD_DROP : Field := ⟨0x90114, 32, 4, 0, 1, 0, 0, 16, .ro, .const 0, keptFCH⟩
/-- NET_PTPCFG.EN (chapter 12). -/
def NET_PTPCFG_EN : Field := ⟨0x90200, 0, 1, 0, 1, 0, 31, 1, .rw, .const 0, keptFCH⟩
/-- NET_PTPCFG.PROF (chapter 12). -/
def NET_PTPCFG_PROF : Field := ⟨0x90200, 0, 1, 0, 1, 0, 28, 2, .rw, .const 0, keptFCH⟩
/-- NET_PTPCFG.PORTS (chapter 12). -/
def NET_PTPCFG_PORTS : Field := ⟨0x90200, 0, 1, 0, 1, 0, 24, 4, .rw, .const 0, keptFCH⟩
/-- NET_PTPCFG.DOMAIN (chapter 12). -/
def NET_PTPCFG_DOMAIN : Field := ⟨0x90200, 0, 1, 0, 1, 0, 16, 8, .rw, .const 0, keptFCH⟩
/-- NET_PTPCFG.PRIO1 (chapter 12). -/
def NET_PTPCFG_PRIO1 : Field := ⟨0x90200, 0, 1, 0, 1, 0, 8, 8, .rw, .const 0x80, keptFCH⟩
/-- NET_PTPCFG.PRIO2 (chapter 12). -/
def NET_PTPCFG_PRIO2 : Field := ⟨0x90200, 0, 1, 0, 1, 0, 0, 8, .rw, .const 0x80, keptFCH⟩
/-- NET_PTPCLS.CLASS (chapter 12). -/
def NET_PTPCLS_CLASS : Field := ⟨0x90204, 0, 1, 0, 1, 0, 8, 8, .rw, .const 0xf8, keptFCH⟩
/-- NET_PTPCLS.HCLASS (chapter 12). -/
def NET_PTPCLS_HCLASS : Field := ⟨0x90204, 0, 1, 0, 1, 0, 0, 8, .rw, .const 0xf8, keptFCH⟩
/-- NET_PTPIVL.ANN (chapter 12). -/
def NET_PTPIVL_ANN : Field := ⟨0x90208, 0, 1, 0, 1, 0, 24, 8, .rw, .const 0, keptFCH⟩
/-- NET_PTPIVL.SYNC (chapter 12). -/
def NET_PTPIVL_SYNC : Field := ⟨0x90208, 0, 1, 0, 1, 0, 16, 8, .rw, .const 0xfd, keptFCH⟩
/-- NET_PTPIVL.DREQ (chapter 12). -/
def NET_PTPIVL_DREQ : Field := ⟨0x90208, 0, 1, 0, 1, 0, 8, 8, .rw, .const 0, keptFCH⟩
/-- NET_PTPPST.STATE (chapter 12). -/
def NET_PTPPST_STATE : Field := ⟨0x9020c, 0, 1, 0, 1, 0, 0, 16, .ro, .const 0, keptFCH⟩
/-- NET_GMIDL.ID (chapter 12). -/
def NET_GMIDL_ID : Field := ⟨0x90210, 0, 1, 0, 1, 0, 0, 32, .ro, .const 0, keptFCH⟩
/-- NET_GMIDH.ID (chapter 12). -/
def NET_GMIDH_ID : Field := ⟨0x90214, 0, 1, 0, 1, 0, 0, 32, .ro, .const 0, keptFCH⟩
/-- NET_SRVKP.KP (chapter 12). -/
def NET_SRVKP_KP : Field := ⟨0x90218, 0, 1, 0, 1, 0, 0, 32, .rw, .const 0x3f333333, keptFCH⟩
/-- NET_SRVKI.KI (chapter 12). -/
def NET_SRVKI_KI : Field := ⟨0x9021c, 0, 1, 0, 1, 0, 0, 32, .rw, .const 0x3e99999a, keptFCH⟩
/-- NET_SRVTHR.THR (chapter 12). -/
def NET_SRVTHR_THR : Field := ⟨0x90220, 0, 1, 0, 1, 0, 0, 32, .rw, .const 0x186a0, keptFCH⟩
/-- NET_SRVSTAT.LOCKED (chapter 12). -/
def NET_SRVSTAT_LOCKED : Field := ⟨0x90224, 0, 1, 0, 1, 0, 31, 1, .ro, .const 0, keptFCH⟩
/-- NET_SRVSTAT.SLEWING (chapter 12). -/
def NET_SRVSTAT_SLEWING : Field := ⟨0x90224, 0, 1, 0, 1, 0, 30, 1, .ro, .const 0, keptFCH⟩
/-- NET_SRVSTAT.GMCHG (chapter 12). -/
def NET_SRVSTAT_GMCHG : Field := ⟨0x90224, 0, 1, 0, 1, 0, 29, 1, .w1c, .const 0, keptFCH⟩
/-- NET_SRVSTAT.HOLDENT (chapter 12). -/
def NET_SRVSTAT_HOLDENT : Field := ⟨0x90224, 0, 1, 0, 1, 0, 28, 1, .w1c, .const 0, keptFCH⟩
/-- NET_SRVCFG.LOCKTHR (chapter 12). -/
def NET_SRVCFG_LOCKTHR : Field := ⟨0x90228, 0, 1, 0, 1, 0, 16, 16, .rw, .const 0x64, keptFCH⟩
/-- NET_SRVCFG.HOLDQ (chapter 12). -/
def NET_SRVCFG_HOLDQ : Field := ⟨0x90228, 0, 1, 0, 1, 0, 0, 8, .rw, .const 0x10, keptFCH⟩
/-- NET_SRVOFS.OFS (chapter 12). -/
def NET_SRVOFS_OFS : Field := ⟨0x9022c, 0, 1, 0, 1, 0, 0, 32, .ro, .const 0, keptFCH⟩
/-- NET_SRVDLY.DLY (chapter 12). -/
def NET_SRVDLY_DLY : Field := ⟨0x90230, 0, 1, 0, 1, 0, 0, 32, .ro, .const 0, keptFCH⟩
/-- NET_PNCFG.EN (chapter 12). -/
def NET_PNCFG_EN : Field := ⟨0x90400, 0, 1, 0, 1, 0, 31, 1, .rw, .const 0, keptFCH⟩
/-- NET_PNCFG.BRING (chapter 12). -/
def NET_PNCFG_BRING : Field := ⟨0x90400, 0, 1, 0, 1, 0, 24, 3, .rw, .const 0, keptFCH⟩
/-- NET_PNCFG.ADMMAX (chapter 12). -/
def NET_PNCFG_ADMMAX : Field := ⟨0x90400, 0, 1, 0, 1, 0, 8, 3, .rw, .const 4, keptFCH⟩
/-- NET_PNCFG.DROPN (chapter 12). -/
def NET_PNCFG_DROPN : Field := ⟨0x90400, 0, 1, 0, 1, 0, 0, 4, .rw, .const 3, keptFCH⟩
/-- NET_PNETYPE.ETYPE (chapter 12). -/
def NET_PNETYPE_ETYPE : Field := ⟨0x90404, 0, 1, 0, 1, 0, 0, 16, .rw, .const 0x88b6, keptFCH⟩
/-- NET_STBASE.BASE (chapter 12). -/
def NET_STBASE_BASE : Field := ⟨0x90408, 0, 1, 0, 1, 0, 14, 18, .rw, .const 0, keptFCH⟩
/-- NET_SBASE.BASE (chapter 12). -/
def NET_SBASE_BASE : Field := ⟨0x9040c, 0, 1, 0, 1, 0, 19, 13, .rw, .const 0, keptFCH⟩
/-- NET_DBASE.BASE (chapter 12). -/
def NET_DBASE_BASE : Field := ⟨0x90410, 0, 1, 0, 1, 0, 10, 22, .rw, .const 0, keptFCH⟩
/-- NET_PNSTAT.UNKHAIL (chapter 12). -/
def NET_PNSTAT_UNKHAIL : Field := ⟨0x90414, 0, 1, 0, 1, 0, 31, 1, .w1c, .const 0, keptFCH⟩
/-- NET_PNSTAT.ADMFAIL (chapter 12). -/
def NET_PNSTAT_ADMFAIL : Field := ⟨0x90414, 0, 1, 0, 1, 0, 30, 1, .w1c, .const 0, keptFCH⟩
/-- NET_PNSTAT.QOVF (chapter 12). -/
def NET_PNSTAT_QOVF : Field := ⟨0x90414, 0, 1, 0, 1, 0, 29, 1, .w1c, .const 0, keptFCH⟩
/-- NET_PNSTAT.LATEUP (chapter 12). -/
def NET_PNSTAT_LATEUP : Field := ⟨0x90414, 0, 1, 0, 1, 0, 28, 1, .w1c, .const 0, keptFCH⟩
/-- NET_PNSTAT.HAILQ (chapter 12). -/
def NET_PNSTAT_HAILQ : Field := ⟨0x90414, 0, 1, 0, 1, 0, 16, 6, .ro, .const 0, keptFCH⟩
/-- NET_PNSTAT.DISC (chapter 12). -/
def NET_PNSTAT_DISC : Field := ⟨0x90414, 0, 1, 0, 1, 0, 0, 6, .ro, .const 0, keptFCH⟩
/-- NET_PNCNT.LATEUP (chapter 12). -/
def NET_PNCNT_LATEUP : Field := ⟨0x90418, 0, 1, 0, 1, 0, 16, 16, .ro, .const 0, keptFCH⟩
/-- NET_PNCNT.BAD (chapter 12). -/
def NET_PNCNT_BAD : Field := ⟨0x90418, 0, 1, 0, 1, 0, 0, 16, .ro, .const 0, keptFCH⟩
/-- NET_PNMGN.THR (chapter 12). -/
def NET_PNMGN_THR : Field := ⟨0x9041c, 0, 1, 0, 1, 0, 0, 16, .rw, .const 0x32, keptFCH⟩
/-- NET_STCMD.RELEASE (chapter 12). -/
def NET_STCMD_RELEASE : Field := ⟨0x90420, 0, 1, 0, 1, 0, 31, 1, .wo, .const 0, []⟩
/-- NET_STCMD.STN (chapter 12). -/
def NET_STCMD_STN : Field := ⟨0x90420, 0, 1, 0, 1, 0, 0, 8, .wo, .const 0, []⟩
/-- NET_STCYCi.ST (chapter 12). -/
def NET_STCYC_ST : Field := ⟨0x90500, 4, 8, 0, 1, 0, 0, 32, .ro, .const 0, keptFCH⟩
/-- NET_STDRPi.ST (chapter 12). -/
def NET_STDRP_ST : Field := ⟨0x90520, 4, 8, 0, 1, 0, 0, 32, .w1c, .const 0, keptFCH⟩
/-- NET_STFLTi.ST (chapter 12). -/
def NET_STFLT_ST : Field := ⟨0x90540, 4, 8, 0, 1, 0, 0, 32, .w1c, .const 0, keptFCH⟩
/-- NET_STMARi.ST (chapter 12). -/
def NET_STMAR_ST : Field := ⟨0x90560, 4, 8, 0, 1, 0, 0, 32, .w1c, .const 0, keptFCH⟩
/-- CAN_CTL.CLRCNT (chapter 13). -/
def CAN_CTL_CLRCNT : Field := ⟨0xa0000, 0, 1, 0, 1, 0, 0, 1, .wo, .const 0, []⟩
/-- CAN_ABASE.BASE (chapter 13). -/
def CAN_ABASE_BASE : Field := ⟨0xa0004, 0, 1, 0, 1, 0, 15, 17, .rw, .const 0, keptFCH⟩
/-- CAN_EVSUM.EV (chapter 13). -/
def CAN_EVSUM_EV : Field := ⟨0xa0008, 0, 1, 0, 1, 0, 0, 16, .w1c, .const 0, [.f]⟩
/-- CAN_CCFGc.EN (chapter 13). -/
def CAN_CCFG_EN : Field := ⟨0xa0100, 64, 4, 0, 1, 0, 31, 1, .rw, .const 0, keptFCH⟩
/-- CAN_CCFGc.FDEN (chapter 13). -/
def CAN_CCFG_FDEN : Field := ⟨0xa0100, 64, 4, 0, 1, 0, 30, 1, .rw, .const 0, keptFCH⟩
/-- CAN_CCFGc.LOM (chapter 13). -/
def CAN_CCFG_LOM : Field := ⟨0xa0100, 64, 4, 0, 1, 0, 29, 1, .rw, .const 0, keptFCH⟩
/-- CAN_CCFGc.TXPRI (chapter 13). -/
def CAN_CCFG_TXPRI : Field := ⟨0xa0100, 64, 4, 0, 1, 0, 28, 1, .rw, .const 0, keptFCH⟩
/-- CAN_CCFGc.ABOBO (chapter 13). -/
def CAN_CCFG_ABOBO : Field := ⟨0xa0100, 64, 4, 0, 1, 0, 27, 1, .rw, .const 0, keptFCH⟩
/-- CAN_CCFGc.GATE (chapter 13). -/
def CAN_CCFG_GATE : Field := ⟨0xa0100, 64, 4, 0, 1, 0, 26, 1, .rw, .const 1, keptFCH⟩
/-- CAN_CCFGc.ACCNM (chapter 13). -/
def CAN_CCFG_ACCNM : Field := ⟨0xa0100, 64, 4, 0, 1, 0, 25, 1, .rw, .const 0, keptFCH⟩
/-- CAN_CCFGc.PXHD (chapter 13). -/
def CAN_CCFG_PXHD : Field := ⟨0xa0100, 64, 4, 0, 1, 0, 24, 1, .rw, .const 0, keptFCH⟩
/-- CAN_CCFGc.TDCEN (chapter 13). -/
def CAN_CCFG_TDCEN : Field := ⟨0xa0100, 64, 4, 0, 1, 0, 23, 1, .rw, .const 0, keptFCH⟩
/-- CAN_NBTc.NBRP (chapter 13). -/
def CAN_NBT_NBRP : Field := ⟨0xa0104, 64, 4, 0, 1, 0, 24, 8, .rw, .const 0, keptFCH⟩
/-- CAN_NBTc.NTSEG1 (chapter 13). -/
def CAN_NBT_NTSEG1 : Field := ⟨0xa0104, 64, 4, 0, 1, 0, 16, 8, .rw, .const 0, keptFCH⟩
/-- CAN_NBTc.NTSEG2 (chapter 13). -/
def CAN_NBT_NTSEG2 : Field := ⟨0xa0104, 64, 4, 0, 1, 0, 8, 7, .rw, .const 0, keptFCH⟩
/-- CAN_NBTc.NSJW (chapter 13). -/
def CAN_NBT_NSJW : Field := ⟨0xa0104, 64, 4, 0, 1, 0, 0, 7, .rw, .const 0, keptFCH⟩
/-- CAN_DBTc.DBRP (chapter 13). -/
def CAN_DBT_DBRP : Field := ⟨0xa0108, 64, 4, 0, 1, 0, 24, 5, .rw, .const 0, keptFCH⟩
/-- CAN_DBTc.DTSEG1 (chapter 13). -/
def CAN_DBT_DTSEG1 : Field := ⟨0xa0108, 64, 4, 0, 1, 0, 16, 6, .rw, .const 0, keptFCH⟩
/-- CAN_DBTc.DTSEG2 (chapter 13). -/
def CAN_DBT_DTSEG2 : Field := ⟨0xa0108, 64, 4, 0, 1, 0, 8, 5, .rw, .const 0, keptFCH⟩
/-- CAN_DBTc.DSJW (chapter 13). -/
def CAN_DBT_DSJW : Field := ⟨0xa0108, 64, 4, 0, 1, 0, 0, 5, .rw, .const 0, keptFCH⟩
/-- CAN_TDCc.TDCO (chapter 13). -/
def CAN_TDC_TDCO : Field := ⟨0xa010c, 64, 4, 0, 1, 0, 0, 8, .rw, .const 0, keptFCH⟩
/-- CAN_FLAGc.TASK (chapter 13). -/
def CAN_FLAG_TASK : Field := ⟨0xa0110, 64, 4, 0, 1, 0, 24, 8, .rw, .const 0, keptFCH⟩
/-- CAN_FLAGc.RXFE (chapter 13). -/
def CAN_FLAG_RXFE : Field := ⟨0xa0110, 64, 4, 0, 1, 0, 23, 1, .rw, .const 0, keptFCH⟩
/-- CAN_FLAGc.RXFLAG (chapter 13). -/
def CAN_FLAG_RXFLAG : Field := ⟨0xa0110, 64, 4, 0, 1, 0, 16, 5, .rw, .const 0, keptFCH⟩
/-- CAN_FLAGc.TXFE (chapter 13). -/
def CAN_FLAG_TXFE : Field := ⟨0xa0110, 64, 4, 0, 1, 0, 15, 1, .rw, .const 0, keptFCH⟩
/-- CAN_FLAGc.TXFLAG (chapter 13). -/
def CAN_FLAG_TXFLAG : Field := ⟨0xa0110, 64, 4, 0, 1, 0, 8, 5, .rw, .const 0, keptFCH⟩
/-- CAN_FLAGc.ERFE (chapter 13). -/
def CAN_FLAG_ERFE : Field := ⟨0xa0110, 64, 4, 0, 1, 0, 7, 1, .rw, .const 0, keptFCH⟩
/-- CAN_FLAGc.ERFLAG (chapter 13). -/
def CAN_FLAG_ERFLAG : Field := ⟨0xa0110, 64, 4, 0, 1, 0, 0, 5, .rw, .const 0, keptFCH⟩
/-- CAN_STATc.FCS (chapter 13). -/
def CAN_STAT_FCS : Field := ⟨0xa0114, 64, 4, 0, 1, 0, 30, 2, .ro, .const 0, keptFCH⟩
/-- CAN_STATc.INTEG (chapter 13). -/
def CAN_STAT_INTEG : Field := ⟨0xa0114, 64, 4, 0, 1, 0, 29, 1, .ro, .const 0, keptFCH⟩
/-- CAN_STATc.EWARN (chapter 13). -/
def CAN_STAT_EWARN : Field := ⟨0xa0114, 64, 4, 0, 1, 0, 28, 1, .ro, .const 0, keptFCH⟩
/-- CAN_STATc.RUN (chapter 13). -/
def CAN_STAT_RUN : Field := ⟨0xa0114, 64, 4, 0, 1, 0, 27, 1, .ro, .const 0, keptFCH⟩
/-- CAN_STATc.CFGERR (chapter 13). -/
def CAN_STAT_CFGERR : Field := ⟨0xa0114, 64, 4, 0, 1, 0, 26, 1, .ro, .const 0, keptFCH⟩
/-- CAN_STATc.BOFF (chapter 13). -/
def CAN_STAT_BOFF : Field := ⟨0xa0114, 64, 4, 0, 1, 0, 23, 1, .w1c, .const 0, keptFCH⟩
/-- CAN_STATc.EPASS (chapter 13). -/
def CAN_STAT_EPASS : Field := ⟨0xa0114, 64, 4, 0, 1, 0, 22, 1, .w1c, .const 0, keptFCH⟩
/-- CAN_STATc.EWSET (chapter 13). -/
def CAN_STAT_EWSET : Field := ⟨0xa0114, 64, 4, 0, 1, 0, 21, 1, .w1c, .const 0, keptFCH⟩
/-- CAN_STATc.IDCOL (chapter 13). -/
def CAN_STAT_IDCOL : Field := ⟨0xa0114, 64, 4, 0, 1, 0, 20, 1, .w1c, .const 0, keptFCH⟩
/-- CAN_STATc.RXLOST (chapter 13). -/
def CAN_STAT_RXLOST : Field := ⟨0xa0114, 64, 4, 0, 1, 0, 19, 1, .w1c, .const 0, keptFCH⟩
/-- CAN_STATc.DOMTO (chapter 13). -/
def CAN_STAT_DOMTO : Field := ⟨0xa0114, 64, 4, 0, 1, 0, 18, 1, .w1c, .const 0, keptFCH⟩
/-- CAN_STATc.PXE (chapter 13). -/
def CAN_STAT_PXE : Field := ⟨0xa0114, 64, 4, 0, 1, 0, 17, 1, .w1c, .const 0, keptFCH⟩
/-- CAN_STATc.TXPSN (chapter 13). -/
def CAN_STAT_TXPSN : Field := ⟨0xa0114, 64, 4, 0, 1, 0, 16, 1, .w1c, .const 0, keptFCH⟩
/-- CAN_ECNTc.TEC (chapter 13). -/
def CAN_ECNT_TEC : Field := ⟨0xa0118, 64, 4, 0, 1, 0, 16, 8, .ro, .const 0, keptFCH⟩
/-- CAN_ECNTc.REC (chapter 13). -/
def CAN_ECNT_REC : Field := ⟨0xa0118, 64, 4, 0, 1, 0, 0, 8, .ro, .const 0, keptFCH⟩
/-- CAN_LECc.BORC (chapter 13). -/
def CAN_LEC_BORC : Field := ⟨0xa011c, 64, 4, 0, 1, 0, 8, 8, .ro, .const 0, keptFCH⟩
/-- CAN_LECc.DPH (chapter 13). -/
def CAN_LEC_DPH : Field := ⟨0xa011c, 64, 4, 0, 1, 0, 3, 1, .ro, .const 0, keptFCH⟩
/-- CAN_LECc.LEC (chapter 13). -/
def CAN_LEC_LEC : Field := ⟨0xa011c, 64, 4, 0, 1, 0, 0, 3, .ro, .const 0, keptFCH⟩
/-- CAN_COLIDc.XTD (chapter 13). -/
def CAN_COLID_XTD : Field := ⟨0xa0120, 64, 4, 0, 1, 0, 31, 1, .ro, .const 0, keptFCH⟩
/-- CAN_COLIDc.ID (chapter 13). -/
def CAN_COLID_ID : Field := ⟨0xa0120, 64, 4, 0, 1, 0, 0, 29, .ro, .const 0, keptFCH⟩
/-- CAN_CNTc.RXLOST (chapter 13). -/
def CAN_CNT_RXLOST : Field := ⟨0xa0124, 64, 4, 0, 1, 0, 16, 16, .ro, .const 0, keptFCH⟩
/-- CAN_CNTc.BOFF (chapter 13). -/
def CAN_CNT_BOFF : Field := ⟨0xa0124, 64, 4, 0, 1, 0, 0, 16, .ro, .const 0, keptFCH⟩
/-- CAN_TDCVc.DLY (chapter 13). -/
def CAN_TDCV_DLY : Field := ⟨0xa0128, 64, 4, 0, 1, 0, 0, 8, .ro, .const 0, keptFCH⟩
/-- SAF_STAT.REL (chapter 14). -/
def SAF_STAT_REL : Field := ⟨0xb0000, 0, 1, 0, 1, 0, 31, 1, .ro, .const 0, keptFCH⟩
/-- SAF_STAT.CONF (chapter 14). -/
def SAF_STAT_CONF : Field := ⟨0xb0000, 0, 1, 0, 1, 0, 30, 1, .ro, .const 0, keptFCH⟩
/-- SAF_STAT.SAFELOCK (chapter 14). -/
def SAF_STAT_SAFELOCK : Field := ⟨0xb0000, 0, 1, 0, 1, 0, 29, 1, .ro, .const 0, keptFCH⟩
/-- SAF_STAT.SDISDUE (chapter 14). -/
def SAF_STAT_SDISDUE : Field := ⟨0xb0000, 0, 1, 0, 1, 0, 28, 1, .ro, .const 0, keptFCH⟩
/-- SAF_STAT.FCODE (chapter 14). -/
def SAF_STAT_FCODE : Field := ⟨0xb0000, 0, 1, 0, 1, 0, 16, 8, .ro, .const 0, keptFCH⟩
/-- SAF_STAT.MSTATE (chapter 14). -/
def SAF_STAT_MSTATE : Field := ⟨0xb0000, 0, 1, 0, 1, 0, 0, 3, .ro, .const 0, keptFCH⟩
/-- SAF_CMD.FACK (chapter 14). -/
def SAF_CMD_FACK : Field := ⟨0xb0004, 0, 1, 0, 1, 0, 31, 1, .wo, .const 0, []⟩
/-- SAF_CMD.HMEND (chapter 14). -/
def SAF_CMD_HMEND : Field := ⟨0xb0004, 0, 1, 0, 1, 0, 30, 1, .wo, .const 0, []⟩
/-- SAF_CMD.ACK (chapter 14). -/
def SAF_CMD_ACK : Field := ⟨0xb0004, 0, 1, 0, 1, 0, 16, 8, .wo, .const 0, []⟩
/-- SAF_RBASE.BASE (chapter 14). -/
def SAF_RBASE_BASE : Field := ⟨0xb0008, 0, 1, 0, 1, 0, 6, 26, .rw, .const 0, keptFCH⟩
/-- SAF_HMREM.S (chapter 14). -/
def SAF_HMREM_S : Field := ⟨0xb000c, 0, 1, 0, 1, 0, 0, 12, .ro, .const 0, keptFCH⟩
/-- SAF_SINST.FLT (chapter 14). -/
def SAF_SINST_FLT : Field := ⟨0xb0010, 0, 1, 0, 1, 0, 16, 12, .ro, .const 0, keptFCH⟩
/-- SAF_SINST.DEM (chapter 14). -/
def SAF_SINST_DEM : Field := ⟨0xb0010, 0, 1, 0, 1, 0, 0, 12, .ro, .const 0xfff, keptFCH⟩
/-- SAF_EVSUM.PLD (chapter 14). -/
def SAF_EVSUM_PLD : Field := ⟨0xb0014, 0, 1, 0, 1, 0, 22, 1, .w1c, .const 0, [.f]⟩
/-- SAF_EVSUM.BT (chapter 14). -/
def SAF_EVSUM_BT : Field := ⟨0xb0014, 0, 1, 0, 1, 0, 21, 1, .w1c, .const 0, [.f]⟩
/-- SAF_EVSUM.FLT (chapter 14). -/
def SAF_EVSUM_FLT : Field := ⟨0xb0014, 0, 1, 0, 1, 0, 20, 1, .w1c, .const 0, [.f]⟩
/-- SAF_EVSUM.SIN (chapter 14). -/
def SAF_EVSUM_SIN : Field := ⟨0xb0014, 0, 1, 0, 1, 0, 8, 12, .w1c, .const 0, [.f]⟩
/-- SAF_EVSUM.GRP (chapter 14). -/
def SAF_EVSUM_GRP : Field := ⟨0xb0014, 0, 1, 0, 1, 0, 0, 8, .w1c, .const 0, [.f]⟩
/-- SAF_GSTATg.HMBR (chapter 14). -/
def SAF_GSTAT_HMBR : Field := ⟨0xb0020, 4, 8, 0, 1, 0, 12, 1, .ro, .const 0, keptFCH⟩
/-- SAF_GSTATg.ENVBR (chapter 14). -/
def SAF_GSTAT_ENVBR : Field := ⟨0xb0020, 4, 8, 0, 1, 0, 11, 1, .ro, .const 0, keptFCH⟩
/-- SAF_GSTATg.OUTFLT (chapter 14). -/
def SAF_GSTAT_OUTFLT : Field := ⟨0xb0020, 4, 8, 0, 1, 0, 10, 1, .ro, .const 0, keptFCH⟩
/-- SAF_GSTATg.BTLOCK (chapter 14). -/
def SAF_GSTAT_BTLOCK : Field := ⟨0xb0020, 4, 8, 0, 1, 0, 9, 1, .ro, .const 0, keptFCH⟩
/-- SAF_GSTATg.DEM (chapter 14). -/
def SAF_GSTAT_DEM : Field := ⟨0xb0020, 4, 8, 0, 1, 0, 8, 1, .ro, .const 0, keptFCH⟩
/-- SAF_GSTATg.STATE (chapter 14). -/
def SAF_GSTAT_STATE : Field := ⟨0xb0020, 4, 8, 0, 1, 0, 0, 2, .ro, .const 0, keptFCH⟩
/-- SAF_PADDR.ADDR (chapter 14). -/
def SAF_PADDR_ADDR : Field := ⟨0xb0100, 0, 1, 0, 1, 0, 3, 29, .rw, .const 0, keptFCH⟩
/-- SAF_PCMD.LOAD (chapter 14). -/
def SAF_PCMD_LOAD : Field := ⟨0xb0104, 0, 1, 0, 1, 0, 31, 1, .wo, .const 0, []⟩
/-- SAF_PCMD.CONFIRM (chapter 14). -/
def SAF_PCMD_CONFIRM : Field := ⟨0xb0104, 0, 1, 0, 1, 0, 30, 1, .wo, .const 0, []⟩
/-- SAF_PCMD.DISCARD (chapter 14). -/
def SAF_PCMD_DISCARD : Field := ⟨0xb0104, 0, 1, 0, 1, 0, 29, 1, .wo, .const 0, []⟩
/-- SAF_PSTAT.BUSY (chapter 14). -/
def SAF_PSTAT_BUSY : Field := ⟨0xb0108, 0, 1, 0, 1, 0, 31, 1, .ro, .const 0, keptFCH⟩
/-- SAF_PSTAT.STAGED (chapter 14). -/
def SAF_PSTAT_STAGED : Field := ⟨0xb0108, 0, 1, 0, 1, 0, 30, 1, .ro, .const 0, keptFCH⟩
/-- SAF_PSTAT.REJ (chapter 14). -/
def SAF_PSTAT_REJ : Field := ⟨0xb0108, 0, 1, 0, 1, 0, 29, 1, .w1c, .const 0, keptFCH⟩
/-- SAF_PSTAT.CAUSE (chapter 14). -/
def SAF_PSTAT_CAUSE : Field := ⟨0xb0108, 0, 1, 0, 1, 0, 0, 4, .ro, .const 0, keptFCH⟩
/-- SAF_PCRC.CRC (chapter 14). -/
def SAF_PCRC_CRC : Field := ⟨0xb010c, 0, 1, 0, 1, 0, 0, 32, .ro, .const 0, keptFCH⟩
/-- SAF_PCONF.CRC (chapter 14). -/
def SAF_PCONF_CRC : Field := ⟨0xb0110, 0, 1, 0, 1, 0, 0, 32, .rw, .const 0, keptFCH⟩
/-- SAF_PACT.CRC (chapter 14). -/
def SAF_PACT_CRC : Field := ⟨0xb0114, 0, 1, 0, 1, 0, 0, 32, .ro, .const 0, keptAll⟩
/-- SAF_BTCMD.START (chapter 14). -/
def SAF_BTCMD_START : Field := ⟨0xb0200, 0, 1, 0, 1, 0, 31, 1, .wo, .const 0, []⟩
/-- SAF_BTCMD.ABORT (chapter 14). -/
def SAF_BTCMD_ABORT : Field := ⟨0xb0200, 0, 1, 0, 1, 0, 30, 1, .wo, .const 0, []⟩
/-- SAF_BTCMD.BRK (chapter 14). -/
def SAF_BTCMD_BRK : Field := ⟨0xb0200, 0, 1, 0, 1, 0, 0, 2, .wo, .const 0, []⟩
/-- SAF_BTSTATb.RESULT (chapter 14). -/
def SAF_BTSTAT_RESULT : Field := ⟨0xb0210, 4, 4, 0, 1, 0, 29, 3, .ro, .const 0, keptFCH⟩
/-- SAF_BTSTATb.DUE (chapter 14). -/
def SAF_BTSTAT_DUE : Field := ⟨0xb0210, 4, 4, 0, 1, 0, 28, 1, .ro, .const 0, keptFCH⟩
/-- SAF_BTSTATb.RUN (chapter 14). -/
def SAF_BTSTAT_RUN : Field := ⟨0xb0210, 4, 4, 0, 1, 0, 27, 1, .ro, .const 0, keptFCH⟩
/-- SAF_BTSTATb.AGE (chapter 14). -/
def SAF_BTSTAT_AGE : Field := ⟨0xb0210, 4, 4, 0, 1, 0, 0, 16, .ro, .const 0xffff, keptAll⟩
/-- TRH_CTL.PAIR (chapter 15). -/
def TRH_CTL_PAIR : Field := ⟨0xc0000, 0, 1, 0, 1, 0, 31, 1, .rw, .const 1, keptFCH⟩
/-- TRH_CTL.COLDTAKE (chapter 15). -/
def TRH_CTL_COLDTAKE : Field := ⟨0xc0000, 0, 1, 0, 1, 0, 30, 1, .rw, .const 0, keptFCH⟩
/-- TRH_CTL.HANDOVER (chapter 15). -/
def TRH_CTL_HANDOVER : Field := ⟨0xc0000, 0, 1, 0, 1, 0, 29, 1, .wo, .const 0, []⟩
/-- TRH_CTL.CLRCNT (chapter 15). -/
def TRH_CTL_CLRCNT : Field := ⟨0xc0000, 0, 1, 0, 1, 0, 28, 1, .wo, .const 0, []⟩
/-- TRH_CFG.CLAIMWIN (chapter 15). -/
def TRH_CFG_CLAIMWIN : Field := ⟨0xc0004, 0, 1, 0, 1, 0, 24, 8, .rw, .const 0xa, keptFCH⟩
/-- TRH_CFG.TOFSMAX (chapter 15). -/
def TRH_CFG_TOFSMAX : Field := ⟨0xc0004, 0, 1, 0, 1, 0, 16, 8, .rw, .const 0xa, keptFCH⟩
/-- TRH_CFG.LOSSTO (chapter 15). -/
def TRH_CFG_LOSSTO : Field := ⟨0xc0004, 0, 1, 0, 1, 0, 8, 8, .rw, .const 0x1e, keptFCH⟩
/-- TRH_CFG.UNIT (chapter 15). -/
def TRH_CFG_UNIT : Field := ⟨0xc0004, 0, 1, 0, 1, 0, 0, 1, .bl, .const 0, keptFCH⟩
/-- TRH_STAT.ROLE (chapter 15). -/
def TRH_STAT_ROLE : Field := ⟨0xc0008, 0, 1, 0, 1, 0, 29, 3, .ro, .const 0, keptFCH⟩
/-- TRH_STAT.INSTEP (chapter 15). -/
def TRH_STAT_INSTEP : Field := ⟨0xc0008, 0, 1, 0, 1, 0, 28, 1, .ro, .const 0, keptFCH⟩
/-- TRH_STAT.LANEUP (chapter 15). -/
def TRH_STAT_LANEUP : Field := ⟨0xc0008, 0, 1, 0, 1, 0, 26, 2, .ro, .const 0, keptFCH⟩
/-- TRH_STAT.TAKEN (chapter 15). -/
def TRH_STAT_TAKEN : Field := ⟨0xc0008, 0, 1, 0, 1, 0, 25, 1, .w1c, .const 0, keptFCH⟩
/-- TRH_STAT.YIELDED (chapter 15). -/
def TRH_STAT_YIELDED : Field := ⟨0xc0008, 0, 1, 0, 1, 0, 24, 1, .w1c, .const 0, keptFCH⟩
/-- TRH_STAT.DIPPED (chapter 15). -/
def TRH_STAT_DIPPED : Field := ⟨0xc0008, 0, 1, 0, 1, 0, 23, 1, .w1c, .const 0, keptFCH⟩
/-- TRH_STAT.MIRLATE (chapter 15). -/
def TRH_STAT_MIRLATE : Field := ⟨0xc0008, 0, 1, 0, 1, 0, 22, 1, .w1c, .const 0, keptFCH⟩
/-- TRH_STAT.IDENTERR (chapter 15). -/
def TRH_STAT_IDENTERR : Field := ⟨0xc0008, 0, 1, 0, 1, 0, 21, 1, .w1c, .const 0, keptFCH⟩
/-- TRH_STAT.UNITERR (chapter 15). -/
def TRH_STAT_UNITERR : Field := ⟨0xc0008, 0, 1, 0, 1, 0, 20, 1, .w1c, .const 0, keptFCH⟩
/-- TRH_STAT.LANEDN (chapter 15). -/
def TRH_STAT_LANEDN : Field := ⟨0xc0008, 0, 1, 0, 1, 0, 19, 1, .w1c, .const 0, keptFCH⟩
/-- TRH_STAT.HOREJ (chapter 15). -/
def TRH_STAT_HOREJ : Field := ⟨0xc0008, 0, 1, 0, 1, 0, 18, 1, .w1c, .const 0, keptFCH⟩
/-- TRH_STAT.EPOCHMAX (chapter 15). -/
def TRH_STAT_EPOCHMAX : Field := ⟨0xc0008, 0, 1, 0, 1, 0, 17, 1, .w1c, .const 0, keptFCH⟩
/-- TRH_STAT.DIPCAUSE (chapter 15). -/
def TRH_STAT_DIPCAUSE : Field := ⟨0xc0008, 0, 1, 0, 1, 0, 0, 8, .ro, .const 0, keptFCH⟩
/-- TRH_ENSIGN.E (chapter 15). -/
def TRH_ENSIGN_E : Field := ⟨0xc000c, 0, 1, 0, 1, 0, 0, 32, .ro, .const 0, keptFCH⟩
/-- TRH_PENS.E (chapter 15). -/
def TRH_PENS_E : Field := ⟨0xc0010, 0, 1, 0, 1, 0, 0, 32, .ro, .const 0, keptFCH⟩
/-- TRH_HIGH.E (chapter 15). -/
def TRH_HIGH_E : Field := ⟨0xc0014, 0, 1, 0, 1, 0, 0, 32, .ro, .const 0, keptFCH⟩
/-- TRH_LASTEP.EP (chapter 15). -/
def TRH_LASTEP_EP : Field := ⟨0xc0018, 0, 1, 0, 1, 0, 0, 24, .ro, .const 0, keptAll⟩
/-- TRH_IDENT.ID (chapter 15). -/
def TRH_IDENT_ID : Field := ⟨0xc001c, 0, 1, 0, 1, 0, 0, 32, .ro, .const 0, keptFCH⟩
/-- TRH_PIDENT.ID (chapter 15). -/
def TRH_PIDENT_ID : Field := ⟨0xc0020, 0, 1, 0, 1, 0, 0, 32, .ro, .const 0, keptFCH⟩
/-- TRH_MBASE.BASE (chapter 15). -/
def TRH_MBASE_BASE : Field := ⟨0xc0024, 0, 1, 0, 1, 0, 12, 20, .rw, .const 0, keptFCH⟩
/-- TRH_PASS.BUSY (chapter 15). -/
def TRH_PASS_BUSY : Field := ⟨0xc0028, 0, 1, 0, 1, 0, 31, 1, .ro, .const 0, keptFCH⟩
/-- TRH_PASS.R2 (chapter 15). -/
def TRH_PASS_R2 : Field := ⟨0xc0028, 0, 1, 0, 1, 0, 30, 1, .ro, .const 0, keptFCH⟩
/-- TRH_PASS.PROG (chapter 15). -/
def TRH_PASS_PROG : Field := ⟨0xc0028, 0, 1, 0, 1, 0, 0, 10, .ro, .const 0, keptFCH⟩
/-- TRH_TOFS.NS (chapter 15). -/
def TRH_TOFS_NS : Field := ⟨0xc002c, 0, 1, 0, 1, 0, 0, 32, .ro, .const 0, keptFCH⟩
/-- TRH_DIPEN.LATE (chapter 15). -/
def TRH_DIPEN_LATE : Field := ⟨0xc0030, 0, 1, 0, 1, 0, 3, 1, .rw, .const 0, keptFCH⟩
/-- TRH_DIPEN.CHAIN (chapter 15). -/
def TRH_DIPEN_CHAIN : Field := ⟨0xc0030, 0, 1, 0, 1, 0, 2, 1, .rw, .const 0, keptFCH⟩
/-- TRH_DIPEN.ABANDON (chapter 15). -/
def TRH_DIPEN_ABANDON : Field := ⟨0xc0030, 0, 1, 0, 1, 0, 1, 1, .rw, .const 0, keptFCH⟩
/-- TRH_DIPEN.ENGINE (chapter 15). -/
def TRH_DIPEN_ENGINE : Field := ⟨0xc0030, 0, 1, 0, 1, 0, 0, 1, .rw, .const 0, keptFCH⟩
/-- TRH_CNT.TAKEOVER (chapter 15). -/
def TRH_CNT_TAKEOVER : Field := ⟨0xc0034, 0, 1, 0, 1, 0, 16, 16, .ro, .const 0, keptFCH⟩
/-- TRH_CNT.MIRLATE (chapter 15). -/
def TRH_CNT_MIRLATE : Field := ⟨0xc0034, 0, 1, 0, 1, 0, 8, 8, .ro, .const 0, keptFCH⟩
/-- TRH_CNT.BAD (chapter 15). -/
def TRH_CNT_BAD : Field := ⟨0xc0034, 0, 1, 0, 1, 0, 0, 8, .ro, .const 0, keptFCH⟩
/-- TLY_STAT.FULL (chapter 16). -/
def TLY_STAT_FULL : Field := ⟨0xd0000, 0, 1, 0, 1, 0, 31, 1, .ro, .const 0, keptAll⟩
/-- TLY_STAT.QLOST (chapter 16). -/
def TLY_STAT_QLOST : Field := ⟨0xd0000, 0, 1, 0, 1, 0, 30, 1, .w1c, .const 0, keptFCH⟩
/-- TLY_STAT.CLRBUSY (chapter 16). -/
def TLY_STAT_CLRBUSY : Field := ⟨0xd0000, 0, 1, 0, 1, 0, 29, 1, .ro, .const 0, keptFCH⟩
/-- TLY_STAT.NREC (chapter 16). -/
def TLY_STAT_NREC : Field := ⟨0xd0000, 0, 1, 0, 1, 0, 0, 16, .ro, .const 0, keptAll⟩
/-- TLY_UNLOCK.KEY (chapter 16). -/
def TLY_UNLOCK_KEY : Field := ⟨0xd0004, 0, 1, 0, 1, 0, 0, 32, .wo, .const 0, []⟩
/-- TLY_CLR.CLEAR (chapter 16). -/
def TLY_CLR_CLEAR : Field := ⟨0xd0008, 0, 1, 0, 1, 0, 31, 1, .wo, .const 0, []⟩
/-- TLY_CLR.UNLOCKED (chapter 16). -/
def TLY_CLR_UNLOCKED : Field := ⟨0xd0008, 0, 1, 0, 1, 0, 0, 1, .ro, .const 0, []⟩
/-- TLY_CUR.INDEX (chapter 16). -/
def TLY_CUR_INDEX : Field := ⟨0xd000c, 0, 1, 0, 1, 0, 0, 15, .rw, .const 0, keptFCH⟩
/-- TLY_WSTAT.BUSY (chapter 16). -/
def TLY_WSTAT_BUSY : Field := ⟨0xd0010, 0, 1, 0, 1, 0, 31, 1, .ro, .const 0, keptFCH⟩
/-- TLY_WSTAT.VALID (chapter 16). -/
def TLY_WSTAT_VALID : Field := ⟨0xd0010, 0, 1, 0, 1, 0, 30, 1, .ro, .const 0, keptFCH⟩
/-- TLY_WSTAT.EMPTY (chapter 16). -/
def TLY_WSTAT_EMPTY : Field := ⟨0xd0010, 0, 1, 0, 1, 0, 29, 1, .ro, .const 0, keptFCH⟩
/-- TLY_WSTAT.PSN (chapter 16). -/
def TLY_WSTAT_PSN : Field := ⟨0xd0010, 0, 1, 0, 1, 0, 28, 1, .ro, .const 0, keptFCH⟩
/-- TLY_WSTAT.NEXT (chapter 16). -/
def TLY_WSTAT_NEXT : Field := ⟨0xd0010, 0, 1, 0, 1, 0, 0, 1, .wo, .const 0, []⟩
/-- TLY_QCNT.LOST (chapter 16). -/
def TLY_QCNT_LOST : Field := ⟨0xd0014, 0, 1, 0, 1, 0, 0, 16, .ro, .const 0, keptFCH⟩
/-- TLY_WINi.D (chapter 16). -/
def TLY_WIN_D : Field := ⟨0xd0020, 4, 8, 0, 1, 0, 0, 32, .ro, .const 0, keptFCH⟩
/-- TLY_TRCFG.EN (chapter 16). -/
def TLY_TRCFG_EN : Field := ⟨0xd0100, 0, 1, 0, 1, 0, 31, 1, .rw, .const 0, keptFCH⟩
/-- TLY_TRCFG.TRIGEN (chapter 16). -/
def TLY_TRCFG_TRIGEN : Field := ⟨0xd0100, 0, 1, 0, 1, 0, 30, 1, .rw, .const 0, keptFCH⟩
/-- TLY_TRCFG.SIZE (chapter 16). -/
def TLY_TRCFG_SIZE : Field := ⟨0xd0100, 0, 1, 0, 1, 0, 16, 5, .rw, .const 1, keptFCH⟩
/-- TLY_TRCFG.MASK (chapter 16). -/
def TLY_TRCFG_MASK : Field := ⟨0xd0100, 0, 1, 0, 1, 0, 0, 16, .rw, .const 0, keptFCH⟩
/-- TLY_TRBASE.BASE (chapter 16). -/
def TLY_TRBASE_BASE : Field := ⟨0xd0104, 0, 1, 0, 1, 0, 20, 12, .rw, .const 0, keptFCH⟩
/-- TLY_TRTRIG.CODE (chapter 16). -/
def TLY_TRTRIG_CODE : Field := ⟨0xd0108, 0, 1, 0, 1, 0, 0, 16, .rw, .const 0, keptFCH⟩
/-- TLY_TRPOST.N (chapter 16). -/
def TLY_TRPOST_N : Field := ⟨0xd010c, 0, 1, 0, 1, 0, 0, 32, .rw, .const 0, keptFCH⟩
/-- TLY_TRSTAT.FROZEN (chapter 16). -/
def TLY_TRSTAT_FROZEN : Field := ⟨0xd0110, 0, 1, 0, 1, 0, 31, 1, .ro, .const 0, keptFCH⟩
/-- TLY_RCFG.ARM (chapter 16). -/
def TLY_RCFG_ARM : Field := ⟨0xd0200, 0, 1, 0, 1, 0, 31, 1, .w1s, .const 0, []⟩
/-- TLY_RCFG.MODE (chapter 16). -/
def TLY_RCFG_MODE : Field := ⟨0xd0200, 0, 1, 0, 1, 0, 0, 2, .rw, .const 0, keptFCH⟩
/-- TLY_RSRC.MASK (chapter 16). -/
def TLY_RSRC_MASK : Field := ⟨0xd0204, 0, 1, 0, 1, 0, 0, 16, .rw, .const 0xffff, keptFCH⟩
/-- TLY_RSMAPi.RING (chapter 16). -/
def TLY_RSMAP_RING : Field := ⟨0xd0208, 4, 2, 0, 1, 0, 0, 32, .rw, .const 0, keptFCH⟩
/-- TLY_RSBASE.BASE (chapter 16). -/
def TLY_RSBASE_BASE : Field := ⟨0xd0210, 0, 1, 0, 1, 0, 20, 12, .rw, .const 0, keptFCH⟩
/-- TLY_RSLEN.MIB (chapter 16). -/
def TLY_RSLEN_MIB : Field := ⟨0xd0214, 0, 1, 0, 1, 0, 0, 5, .rw, .const 4, keptFCH⟩
/-- TLY_RSTAT.RUN (chapter 16). -/
def TLY_RSTAT_RUN : Field := ⟨0xd0218, 0, 1, 0, 1, 0, 31, 1, .ro, .const 0, keptFCH⟩
/-- TLY_RSTAT.LOST (chapter 16). -/
def TLY_RSTAT_LOST : Field := ⟨0xd0218, 0, 1, 0, 1, 0, 30, 1, .w1c, .const 0, keptFCH⟩
/-- TLY_RSTAT.REJ (chapter 16). -/
def TLY_RSTAT_REJ : Field := ⟨0xd0218, 0, 1, 0, 1, 0, 29, 1, .w1c, .const 0, keptFCH⟩
/-- TLY_RSTAT.GAPS (chapter 16). -/
def TLY_RSTAT_GAPS : Field := ⟨0xd0218, 0, 1, 0, 1, 0, 0, 16, .ro, .const 0, keptFCH⟩
/-- TLY_RTAB.BASE (chapter 16). -/
def TLY_RTAB_BASE : Field := ⟨0xd021c, 0, 1, 0, 1, 0, 12, 20, .rw, .const 0, keptFCH⟩
/-- TLY_RTABN.N (chapter 16). -/
def TLY_RTABN_N : Field := ⟨0xd0220, 0, 1, 0, 1, 0, 0, 9, .rw, .const 0, keptFCH⟩
/-- TLY_CFGID.ID (chapter 16). -/
def TLY_CFGID_ID : Field := ⟨0xd0224, 0, 1, 0, 1, 0, 0, 32, .ro, .const 0, keptFCH⟩
/-- TLY_FWID.ID (chapter 16). -/
def TLY_FWID_ID : Field := ⟨0xd0228, 0, 1, 0, 1, 0, 0, 32, .ro, .const 0, keptFCH⟩
/-- TLY_RPBASE.BASE (chapter 16). -/
def TLY_RPBASE_BASE : Field := ⟨0xd0300, 0, 1, 0, 1, 0, 12, 20, .rw, .const 0, keptFCH⟩
/-- TLY_RPLEN.LOG2 (chapter 16). -/
def TLY_RPLEN_LOG2 : Field := ⟨0xd0304, 0, 1, 0, 1, 0, 0, 5, .rw, .const 0x10, keptFCH⟩
/-- TLY_RPPUT.CNT (chapter 16). -/
def TLY_RPPUT_CNT : Field := ⟨0xd0308, 0, 1, 0, 1, 0, 0, 32, .rw, .const 0, keptFCH⟩
/-- TLY_RPGET.CNT (chapter 16). -/
def TLY_RPGET_CNT : Field := ⟨0xd030c, 0, 1, 0, 1, 0, 0, 32, .ro, .const 0, keptFCH⟩
/-- TLY_RPSTAT.RUN (chapter 16). -/
def TLY_RPSTAT_RUN : Field := ⟨0xd0310, 0, 1, 0, 1, 0, 31, 1, .ro, .const 0, keptFCH⟩
/-- TLY_RPSTAT.END (chapter 16). -/
def TLY_RPSTAT_END : Field := ⟨0xd0310, 0, 1, 0, 1, 0, 30, 1, .w1c, .const 0, keptFCH⟩
/-- TLY_RPSTAT.DIVERGE (chapter 16). -/
def TLY_RPSTAT_DIVERGE : Field := ⟨0xd0310, 0, 1, 0, 1, 0, 29, 1, .w1c, .const 0, keptFCH⟩
/-- TLY_RPSTAT.CAUSE (chapter 16). -/
def TLY_RPSTAT_CAUSE : Field := ⟨0xd0310, 0, 1, 0, 1, 0, 0, 4, .ro, .const 0, keptFCH⟩
/-- TLY_RPT0L.HT (chapter 16). -/
def TLY_RPT0L_HT : Field := ⟨0xd0314, 0, 1, 0, 1, 0, 0, 32, .rw, .const 0, keptFCH⟩
/-- TLY_RPT0H.HT (chapter 16). -/
def TLY_RPT0H_HT : Field := ⟨0xd0318, 0, 1, 0, 1, 0, 0, 32, .rw, .const 0, keptFCH⟩
/-- TLY_RPCFG.ID (chapter 16). -/
def TLY_RPCFG_ID : Field := ⟨0xd031c, 0, 1, 0, 1, 0, 0, 32, .rw, .const 0, keptFCH⟩
/-- TLY_RPFW.ID (chapter 16). -/
def TLY_RPFW_ID : Field := ⟨0xd0320, 0, 1, 0, 1, 0, 0, 32, .rw, .const 0, keptFCH⟩
/-- TLY_RPDIV.TICK (chapter 16). -/
def TLY_RPDIV_TICK : Field := ⟨0xd0324, 0, 1, 0, 1, 0, 0, 32, .ro, .const 0, keptFCH⟩
/-- PWR_STAT.VBUSOK (chapter 17). -/
def PWR_STAT_VBUSOK : Field := ⟨0xe0000, 0, 1, 0, 1, 0, 31, 1, .ro, .const 0, keptFCH⟩
/-- PWR_STAT.PFW (chapter 17). -/
def PWR_STAT_PFW : Field := ⟨0xe0000, 0, 1, 0, 1, 0, 30, 1, .ro, .const 0, keptFCH⟩
/-- PWR_STAT.HURDY (chapter 17). -/
def PWR_STAT_HURDY : Field := ⟨0xe0000, 0, 1, 0, 1, 0, 29, 1, .ro, .const 0, keptFCH⟩
/-- PWR_STAT.PGANA (chapter 17). -/
def PWR_STAT_PGANA : Field := ⟨0xe0000, 0, 1, 0, 1, 0, 28, 1, .ro, .const 0, keptFCH⟩
/-- PWR_STAT.OUTREL (chapter 17). -/
def PWR_STAT_OUTREL : Field := ⟨0xe0000, 0, 1, 0, 1, 0, 27, 1, .ro, .const 0, keptFCH⟩
/-- PWR_STAT.STBYREJ (chapter 17). -/
def PWR_STAT_STBYREJ : Field := ⟨0xe0000, 0, 1, 0, 1, 0, 25, 1, .w1c, .const 0, keptFCH⟩
/-- PWR_STAT.DIP (chapter 17). -/
def PWR_STAT_DIP : Field := ⟨0xe0000, 0, 1, 0, 1, 0, 24, 1, .w1c, .const 0, keptFCH⟩
/-- PWR_RSTAT.CAUSE (chapter 17). -/
def PWR_RSTAT_CAUSE : Field := ⟨0xe0004, 0, 1, 0, 1, 0, 28, 4, .ro, .const 0, keptFCH⟩
/-- PWR_RSTAT.LNDKEPT (chapter 17). -/
def PWR_RSTAT_LNDKEPT : Field := ⟨0xe0004, 0, 1, 0, 1, 0, 27, 1, .ro, .const 0, keptFCH⟩
/-- PWR_RSTAT.COMMITOK (chapter 17). -/
def PWR_RSTAT_COMMITOK : Field := ⟨0xe0004, 0, 1, 0, 1, 0, 26, 1, .ro, .const 0, keptFCH⟩
/-- PWR_RSTAT.WDSRC (chapter 17). -/
def PWR_RSTAT_WDSRC : Field := ⟨0xe0004, 0, 1, 0, 1, 0, 0, 4, .ro, .const 0, keptFCH⟩
/-- PWR_CMD.KEY (chapter 17). -/
def PWR_CMD_KEY : Field := ⟨0xe0008, 0, 1, 0, 1, 0, 16, 16, .wo, .const 0, []⟩
/-- PWR_CMD.SRST (chapter 17). -/
def PWR_CMD_SRST : Field := ⟨0xe0008, 0, 1, 0, 1, 0, 0, 1, .wo, .const 0, []⟩
/-- PWR_BOOTCFG.STARTP (chapter 17). -/
def PWR_BOOTCFG_STARTP : Field := ⟨0xe000c, 0, 1, 0, 1, 0, 0, 2, .bl, .const 0, keptFCH⟩
/-- PWR_BOOTCFG.STARTWS (chapter 17). -/
def PWR_BOOTCFG_STARTWS : Field := ⟨0xe000c, 0, 1, 0, 1, 0, 2, 2, .bl, .const 0, keptFCH⟩
/-- PWR_BOOTCFG.TLOCK (chapter 17). -/
def PWR_BOOTCFG_TLOCK : Field := ⟨0xe000c, 0, 1, 0, 1, 0, 4, 1, .bl, .const 0, keptFCH⟩
/-- PWR_BOOTCFG.TLTMO (chapter 17). -/
def PWR_BOOTCFG_TLTMO : Field := ⟨0xe000c, 0, 1, 0, 1, 0, 8, 8, .bl, .const 0xa, keptFCH⟩
/-- PWR_BSTAT.BLAZE (chapter 17). -/
def PWR_BSTAT_BLAZE : Field := ⟨0xe0010, 0, 1, 0, 1, 0, 31, 1, .ro, .const 0, keptFCH⟩
/-- PWR_BSTAT.NOFW (chapter 17). -/
def PWR_BSTAT_NOFW : Field := ⟨0xe0010, 0, 1, 0, 1, 0, 30, 1, .ro, .const 0, keptFCH⟩
/-- PWR_BSTAT.CFGERR (chapter 17). -/
def PWR_BSTAT_CFGERR : Field := ⟨0xe0010, 0, 1, 0, 1, 0, 29, 1, .ro, .const 0, keptFCH⟩
/-- PWR_BSTAT.STARTPEND (chapter 17). -/
def PWR_BSTAT_STARTPEND : Field := ⟨0xe0010, 0, 1, 0, 1, 0, 28, 1, .ro, .const 0, keptFCH⟩
/-- PWR_BSTAT.FWSEL (chapter 17). -/
def PWR_BSTAT_FWSEL : Field := ⟨0xe0010, 0, 1, 0, 1, 0, 27, 1, .ro, .const 0, keptFCH⟩
/-- PWR_BSTAT.FWBBAD (chapter 17). -/
def PWR_BSTAT_FWBBAD : Field := ⟨0xe0010, 0, 1, 0, 1, 0, 26, 1, .ro, .const 0, keptFCH⟩
/-- PWR_BSTAT.FWABAD (chapter 17). -/
def PWR_BSTAT_FWABAD : Field := ⟨0xe0010, 0, 1, 0, 1, 0, 25, 1, .ro, .const 0, keptFCH⟩
/-- PWR_BSTAT.FWVER (chapter 17). -/
def PWR_BSTAT_FWVER : Field := ⟨0xe0010, 0, 1, 0, 1, 0, 0, 16, .ro, .const 0, keptFCH⟩
/-- PWR_DIPMIN.CNT (chapter 17). -/
def PWR_DIPMIN_CNT : Field := ⟨0xe0014, 0, 1, 0, 1, 0, 16, 16, .ro, .const 0, keptFCH⟩
/-- PWR_DIPMIN.MV (chapter 17). -/
def PWR_DIPMIN_MV : Field := ⟨0xe0014, 0, 1, 0, 1, 0, 0, 16, .ro, .const 0, keptFCH⟩
/-- PWR_DIPDUR.US (chapter 17). -/
def PWR_DIPDUR_US : Field := ⟨0xe0018, 0, 1, 0, 1, 0, 0, 32, .ro, .const 0, keptFCH⟩
/-- PWR_VBUS.HUV (chapter 17). -/
def PWR_VBUS_HUV : Field := ⟨0xe001c, 0, 1, 0, 1, 0, 16, 16, .ro, .const 0, keptFCH⟩
/-- PWR_VBUS.MV (chapter 17). -/
def PWR_VBUS_MV : Field := ⟨0xe001c, 0, 1, 0, 1, 0, 0, 16, .ro, .const 0, keptFCH⟩
/-- PWR_SPSCTL.EN (chapter 17). -/
def PWR_SPSCTL_EN : Field := ⟨0xe0020, 0, 1, 0, 1, 0, 0, 8, .rw, .const 0, keptFCH⟩
/-- PWR_SPSSTAT.LIM (chapter 17). -/
def PWR_SPSSTAT_LIM : Field := ⟨0xe0024, 0, 1, 0, 1, 0, 8, 8, .w1c, .const 0, keptFCH⟩
/-- PWR_SPSSTAT.ON (chapter 17). -/
def PWR_SPSSTAT_ON : Field := ⟨0xe0024, 0, 1, 0, 1, 0, 0, 8, .ro, .const 0, keptFCH⟩
/-- PWR_KSTAT.RTCVAL (chapter 17). -/
def PWR_KSTAT_RTCVAL : Field := ⟨0xe0028, 0, 1, 0, 1, 0, 31, 1, .ro, .const 0, keptAll⟩
/-- PWR_KSTAT.KPSN (chapter 17). -/
def PWR_KSTAT_KPSN : Field := ⟨0xe0028, 0, 1, 0, 1, 0, 30, 1, .w1c, .const 0, keptFCH⟩
/-- PWR_KSTAT.KLOST (chapter 17). -/
def PWR_KSTAT_KLOST : Field := ⟨0xe0028, 0, 1, 0, 1, 0, 29, 1, .w1c, .const 0, keptFCH⟩
/-- PWR_KSTAT.KEEPSRC (chapter 17). -/
def PWR_KSTAT_KEEPSRC : Field := ⟨0xe0028, 0, 1, 0, 1, 0, 28, 1, .ro, .const 0, keptFCH⟩
/-- PWR_EVSUM.KLOST (chapter 17). -/
def PWR_EVSUM_KLOST : Field := ⟨0xe002c, 0, 1, 0, 1, 0, 3, 1, .w1c, .const 0, [.f]⟩
/-- PWR_EVSUM.SPSLIM (chapter 17). -/
def PWR_EVSUM_SPSLIM : Field := ⟨0xe002c, 0, 1, 0, 1, 0, 2, 1, .w1c, .const 0, [.f]⟩
/-- PWR_EVSUM.STBYREJ (chapter 17). -/
def PWR_EVSUM_STBYREJ : Field := ⟨0xe002c, 0, 1, 0, 1, 0, 1, 1, .w1c, .const 0, [.f]⟩
/-- PWR_EVSUM.DIP (chapter 17). -/
def PWR_EVSUM_DIP : Field := ⟨0xe002c, 0, 1, 0, 1, 0, 0, 1, .w1c, .const 0, [.f]⟩
/-- SYS_DIBASE.BASE (chapter 18). -/
def SYS_DIBASE_BASE : Field := ⟨0x100, 0, 1, 0, 1, 0, 3, 29, .rw, .const 0, keptFCH⟩
/-- SYS_DOBASE.BASE (chapter 18). -/
def SYS_DOBASE_BASE : Field := ⟨0x104, 0, 1, 0, 1, 0, 3, 29, .rw, .const 0, keptFCH⟩
/-- SYS_DILVL0.L (chapter 18). -/
def SYS_DILVL0_L : Field := ⟨0x108, 0, 1, 0, 1, 0, 0, 32, .ro, .const 0, keptFCH⟩
/-- SYS_DILVL1.L (chapter 18). -/
def SYS_DILVL1_L : Field := ⟨0x10c, 0, 1, 0, 1, 0, 0, 16, .ro, .const 0, keptFCH⟩
/-- SYS_DIOSTAT.PSN (chapter 18). -/
def SYS_DIOSTAT_PSN : Field := ⟨0x110, 0, 1, 0, 1, 0, 0, 1, .w1c, .const 0, [.f]⟩
/-- SYS_DIOCFGl.OUT (chapter 18). -/
def SYS_DIOCFG_OUT : Field := ⟨0x200, 4, 48, 0, 1, 0, 31, 1, .rw, .const 0, keptFCH⟩
/-- SYS_DIOCFGl.OD (chapter 18). -/
def SYS_DIOCFG_OD : Field := ⟨0x200, 4, 48, 0, 1, 0, 30, 1, .rw, .const 0, keptFCH⟩
/-- SYS_DIOCFGl.SAFE (chapter 18). -/
def SYS_DIOCFG_SAFE : Field := ⟨0x200, 4, 48, 0, 1, 0, 29, 1, .rw, .const 0, keptFCH⟩
/-- SYS_DIOCFGl.RING (chapter 18). -/
def SYS_DIOCFG_RING : Field := ⟨0x200, 4, 48, 0, 1, 0, 24, 3, .rw, .const 0, keptFCH⟩
/-- SYS_DIOCFGl.FILT (chapter 18). -/
def SYS_DIOCFG_FILT : Field := ⟨0x200, 4, 48, 0, 1, 0, 0, 4, .rw, .const 0, keptFCH⟩
/-- MSI-X table words: 64 entries of four words (R273). -/
def MSIX_WORD : Field := ⟨0x18000, 16, 64, 4, 4, 0, 0, 32, .rw, .const 0, [.c, .h]⟩
/-- MSI-X pending bits (R273). -/
def MSIX_PBA : Field := ⟨0x19000, 4, 2, 0, 1, 0, 0, 32, .ro, .const 0, [.c, .h]⟩
/-- Fields of the block, part 0. -/
def sysFields0 : List Field :=
  [SYS_CLKCTL_AUTOFB, SYS_CLKCTL_REFSEL, SYS_CLKSTAT_SAFXOK, SYS_CLKSTAT_PLLLOCK, SYS_CLKSTAT_REFLOSS, SYS_CLKSTAT_SRC, SYS_ID_PART, SYS_ID_STEP, SYS_DIBASE_BASE, SYS_DOBASE_BASE, SYS_DILVL0_L, SYS_DILVL1_L, SYS_DIOSTAT_PSN, SYS_DIOCFG_OUT, SYS_DIOCFG_OD, SYS_DIOCFG_SAFE, SYS_DIOCFG_RING, SYS_DIOCFG_FILT]
/-- The fields of block SYS. -/
def sysFields : List Field := sysFields0
/-- Fields of the block, part 0. -/
def hifFields0 : List Field :=
  [HIF_CTL_CLRCNT, HIF_STAT_READY, HIF_STAT_PSNRD, HIF_STAT_RETACC, HIF_STAT_B2OOR, HIF_DBIGN_EARLY, HIF_DBIGN_BAD, HIF_DBLAST_RING, HIF_EVPEND_EV, HIF_EVMASK_EV, HIF_PSNLOCL_LOC, HIF_PSNLOCH_LOC, HIF_RBL_BASE, HIF_RBH_BASE, HIF_RWL_WB, HIF_RWH_WB, HIF_RCFG_EN, HIF_RCFG_LOG2, HIF_RCFG_VEC, HIF_RCFG_IEN]
/-- Fields of the block, part 1. -/
def hifFields1 : List Field :=
  [HIF_RIMOD_ITIME, HIF_RIMOD_ICNT, HIF_RSTAT_RUN, HIF_RSTAT_CFGERR, HIF_RSTAT_ERR, HIF_RSTAT_DBBAD, HIF_RSTAT_FULLWAIT, HIF_RSTAT_FMT, HIF_RSTAT_ERRCAUSE, HIF_RCNT_CNT, HIF_SPCFG_EVERY, HIF_SPCFG_RING, HIF_SPCFG_NSLOT, HIF_SPBASE_BASE, HIF_SPCNT_UNDER, HIF_SPCNT_LATE, MSIX_WORD, MSIX_PBA]
/-- The fields of block HIF. -/
def hifFields : List Field := hifFields0 ++ hifFields1
/-- Fields of the block, part 0. -/
def hstFields0 : List Field :=
  [HST_TCTL_STEP, HST_TCTL_SNAP, HST_TCTL_SERVO, HST_TSTAT_HOLDOVER, HST_TSTAT_SLEWBUSY, HST_TSTAT_RATECLAMP, HST_TSTAT_STEPREJ, HST_RATE_RATE, HST_SLEW_SLEW, HST_TNS_NS, HST_TSEC_LO_SEC, HST_TSEC_HI_SEC, HST_HTIME_LO_HT, HST_HTIME_HI_HT, HST_TSET_NS_NS, HST_TSET_SLO_SEC, HST_TSET_SHI_SEC, HST_RINGCTL_RELOAD, HST_RINGCTL_EN, HST_RPER_PER]
/-- Fields of the block, part 1. -/
def hstFields1 : List Field :=
  [HST_RPHASE_PHASE, HST_RDLIN_DLIN, HST_RSEAL_SEAL, HST_RSTAT_RUN, HST_RSTAT_PEND, HST_RSTAT_CFGERR, HST_RSTAT_LATE, HST_RSTAT_REPH, HST_RHNUM_HNUM, HST_RLATECNT_CNT, HST_LCTL_START, HST_LCTL_STOP, HST_LCTL_HOLD, HST_LCTL_RING, HST_LCTL_LAST, HST_LCTL_FIRST, HST_LBASE_BASE, HST_LSTAT_STATE, HST_LSTAT_CAUSE, HST_LSTAT_STEP]
/-- Fields of the block, part 2. -/
def hstFields2 : List Field :=
  [HST_LCNT_CNT, HST_LDONE_DONE, HST_LFLT_FLT]
/-- The fields of block HST. -/
def hstFields : List Field := hstFields0 ++ hstFields1 ++ hstFields2
/-- Fields of the block, part 0. -/
def cleFields0 : List Field :=
  [CLE_CTL_CLRMAX, CLE_CTL_EN, CLE_DBASE_BASE, CLE_STAT_PBUSY, CLE_PCH_LEN, CLE_PCH_HEAD, CLE_PSTAT_CHAINERR, CLE_PSTAT_LATE, CLE_PSTAT_NEVAL, CLE_PSTAT_STOP, CLE_PTIME_MAX, CLE_PTIME_LAST, CLE_EVSUM_EV, CLE_FSET_B0, CLE_FSET_B1, CLE_FSET_B2, CLE_FSET_A1, CLE_FSET_A2, CLE_FSET_COMMIT, CLE_FSET_PEND]
/-- The fields of block CLE. -/
def cleFields : List Field := cleFields0
/-- Fields of the block, part 0. -/
def axsFields0 : List Field :=
  [AXS_CTL_CLRMAX, AXS_CTL_EN, AXS_ABASE_BASE, AXS_CCBASE_BASE, AXS_AMAP_EN, AXS_AMAP_RING, AXS_PSTAT_LATE, AXS_PSTAT_NEVAL, AXS_PSTAT_STOP, AXS_PTIME_MAX, AXS_PTIME_LAST, AXS_EVSUM_EV, AXS_CCCFG_EN, AXS_CCCFG_SRCK, AXS_CCCFG_SRCN, AXS_CCCFG_OUTEN, AXS_CCCFG_OUTLINE, AXS_CCCFG_PULSE, AXS_CCEV_FEV, AXS_CCEV_KEV]
/-- Fields of the block, part 1. -/
def axsFields1 : List Field :=
  [AXS_CCEV_TASK, AXS_CCEV_FLAG, AXS_CCCAP_CAPEN, AXS_CCCAP_EDGE, AXS_CCCAP_CAPLINE, AXS_CCCAP_FILT, AXS_CCSTAT_BEHIND, AXS_CCSTAT_PASSED, AXS_CCSTAT_QOVF, AXS_CCSTAT_KOVF, AXS_CCSTAT_POISON, AXS_CCSTAT_RETRIG, AXS_CCSTAT_NOOUT, AXS_CCSTAT_CLEVEL, AXS_CCCNT_KLOST, AXS_CCCNT_FIRES]
/-- The fields of block AXS. -/
def axsFields : List Field := axsFields0 ++ axsFields1
/-- Fields of the block, part 0. -/
def fbkFields0 : List Field :=
  [FBK_CTL_CLRERR, FBK_FBASE_BASE, FBK_RBASE_BASE, FBK_EVSUM_EV, FBK_CFG_EN, FBK_CFG_MODE, FBK_CFG_RING, FBK_CFG_INV, FBK_CFG_FILT, FBK_CFG_BW, FBK_CFG_DAMP, FBK_CFG_CSH, FBK_SSI_MONO, FBK_SSI_DLY, FBK_SSI_CLKDIV, FBK_SSI_PAR, FBK_SSI_ERRB, FBK_SSI_GRAY, FBK_SSI_BITS, FBK_SSI2_XTOL]
/-- Fields of the block, part 1. -/
def fbkFields1 : List Field :=
  [FBK_SSI2_XCHK, FBK_SSI2_SHIFT, FBK_AMPW_WHI, FBK_AMPW_WLO, FBK_AMPF_FHI, FBK_AMPF_FLO, FBK_AMPC_FCNT, FBK_AMPC_WCNT, FBK_TRIM_GAINC, FBK_TRIM_OFSC, FBK_TRIM_OFSS, FBK_STILL_STILLQ, FBK_STILL_STILLT, FBK_ZCFG_ZTOL, FBK_ZCFG_CPR, FBK_ZCTL_ZARM, FBK_ZPOSL_POS, FBK_ZPOSH_POS, FBK_STAT_BITS, FBK_STAT_CFGERR]
/-- Fields of the block, part 2. -/
def fbkFields2 : List Field :=
  [FBK_ERRCNT_PHASE, FBK_ERRCNT_SSI, FBK_EMCFG_EN, FBK_EMCFG_SRCK, FBK_EMCFG_RING, FBK_EMCFG_SRCN, FBK_EMCFG_ZEN, FBK_EMCFG_INV, FBK_EMCFG_EDGEMAX, FBK_EMRATL_RATIO, FBK_EMRATH_RATIO, FBK_EMZPER_ZPER, FBK_EMSTAT_ELIM, FBK_EMSTAT_SRCBAD, FBK_EMSTAT_BACKLOG, FBK_EMCNT_C]
/-- The fields of block FBK. -/
def fbkFields : List Field := fbkFields0 ++ fbkFields1 ++ fbkFields2
/-- Fields of the block, part 0. -/
def cnvFields0 : List Field :=
  [CNV_CTL_CLRCNT, CNV_CTL_REFSEL, CNV_IBASE_BASE, CNV_DBASE_BASE, CNV_REFSTAT_REFERR, CNV_REFSTAT_REFOK, CNV_EVSUM_DAC, CNV_EVSUM_ADC, CNV_CFG_EN, CNV_CFG_ILV, CNV_CFG_PDDIS, CNV_CFG_RING, CNV_CFG_NENT, CNV_CFG_AVG, CNV_STAT_RUN, CNV_STAT_CFGERR, CNV_STAT_PWRDN, CNV_STAT_STALE, CNV_STAT_OVR, CNV_STAT_REFERR]
/-- Fields of the block, part 1. -/
def cnvFields1 : List Field :=
  [CNV_STAT_WAKEERR, CNV_STAT_PSN, CNV_CNT_STALECNT, CNV_CNT_OVRCNT, CNV_ENT_SCEN, CNV_ENT_RANGE, CNV_ENT_CH, CNV_SCL_SCALE, CNV_SOF_OFFSET, CNV_ILBASE_BASE, CNV_ILLEN_LOG2, CNV_ILTRIM_SKEW, CNV_ILTRIM_OFS, CNV_ILGAIN_GAIN, CNV_DCFG_EN, CNV_DCFG_FMT, CNV_DCFG_RING, CNV_DCFG_SAFE, CNV_DSCL_DSCALE, CNV_DOFS_DOFS]
/-- Fields of the block, part 2. -/
def cnvFields2 : List Field :=
  [CNV_DSTAT_NAN, CNV_DSTAT_PSN, CNV_DSTAT_CLIP, CNV_DSTAT_CODE]
/-- The fields of block CNV. -/
def cnvFields : List Field := cnvFields0 ++ cnvFields1 ++ cnvFields2
/-- Fields of the block, part 0. -/
def texFields0 : List Field :=
  [TEX_PSTAT_FORCED, TEX_PSTAT_RUNREJ, TEX_PSTAT_WARMREJ, TEX_PSTAT_STATE, TEX_PCMD_CMD, TEX_IBASE_BASE, TEX_CKCFG_CKPER, TEX_CKSTAT_BUSY, TEX_CKSTAT_FAIL, TEX_CKSTAT_PARTIAL, TEX_CKSTAT_SEQ, TEX_CKTLO_HT, TEX_CKTHI_HT, TEX_OCCTL_ARM, TEX_OCCTL_ABORT, TEX_OCCTL_TMO, TEX_OCSTAT_DONE, TEX_OCSTAT_REJ, TEX_OCSTAT_CAUSE, TEX_OCMASK_MASK]
/-- Fields of the block, part 1. -/
def texFields1 : List Field :=
  [TEX_FSTAT_DUPREJ, TEX_FSTAT_ORPHAN, TEX_FSTAT_NACT, TEX_TCFG_KIND, TEX_TCFG_BANK, TEX_TCFG_PEND, TEX_TCFG_RING, TEX_TCFG_PRIO, TEX_TCFG_DIVM1, TEX_TCFG_OFS, TEX_TSTAT_LATE, TEX_TSTAT_OVR, TEX_TSTAT_RUNNING, TEX_TSTAT_CFGERR, TEX_TSTAT_SEGPSN, TEX_TCNT_SKIP, TEX_TCNT_LATECNT, TEX_TTIME_MAX, TEX_TTIME_LAST, TEX_FCTL_ACT]
/-- Fields of the block, part 2. -/
def texFields2 : List Field :=
  [TEX_FCTL_DIR, TEX_FCTL_ORPHAN, TEX_FCTL_PEND, TEX_FCTL_COMMIT, TEX_FADR_ADDR, TEX_FMSKL_MASK, TEX_FMSKH_MASK, TEX_FVALL_VALUE, TEX_FVALH_VALUE, TEX_DCTL_CLRCNT, TEX_DCTL_DET, TEX_DSTAT_FULL, TEX_DSTAT_STRAND, TEX_DSTAT_NFREE, TEX_WBASE_BASE, TEX_FLBASE_BASE, TEX_ECMD_JOIN, TEX_ECMD_LEAVE, TEX_EPOOL_TESTING, TEX_EPOOL_FAULT]
/-- Fields of the block, part 3. -/
def texFields3 : List Field :=
  [TEX_EPOOL_MEMBER, TEX_DCNT_RETURN, TEX_DCNT_POSTREJ, TEX_DCFG_AFF, TEX_DCFG_NOPRE, TEX_DCFG_GEN, TEX_DCFG_GRP, TEX_DWAIT_MASK, TEX_DWCTL_AND, TEX_DWCTL_CONSUME, TEX_DWCTL_TMO, TEX_EFLAG_F, TEX_EFLAGC_F, TEX_DSTATE_TOUT, TEX_DSTATE_STRAND, TEX_DSTATE_ENG, TEX_DSTATE_STATE, TEX_DREL_R, TEX_GCFG_NOSLOT, TEX_GCFG_FLAG]
/-- Fields of the block, part 4. -/
def texFields4 : List Field :=
  [TEX_XCTL_STOPX, TEX_CTXBASE_BASE, TEX_LOAD_BUSY, TEX_LOAD_LDERR, TEX_LOAD_DONE, TEX_XSTAT_XV, TEX_XSTAT_TASK, TEX_XSTAT_ROLE, TEX_XSTAT_CODE, TEX_XPC_PC, TEX_XVAL_VAL, TEX_ECNT_CODECORR, TEX_ECNT_DATACORR, TEX_EFLT_CAUSE, TEX_MPFIR_PAGE, TEX_MPLAS_PAGE, TEX_MPCTL_EN, TEX_MPCTL_WR, TEX_MPCTL_RD, TEX_MPCTL_CLASS]
/-- Fields of the block, part 5. -/
def texFields5 : List Field :=
  [TEX_XCFG_PCLASS, TEX_XCNT_HANDLED, TEX_XCNT_ABANDON]
/-- The fields of block TEX. -/
def texFields : List Field := texFields0 ++ texFields1 ++ texFields2 ++ texFields3 ++ texFields4 ++ texFields5
/-- Fields of the block, part 0. -/
def lndFields0 : List Field :=
  [LND_CTL_CLRCNT, LND_CTL_SCRUBEN, LND_SCRUB_PASSMIN, LND_SCSTAT_PASSES, LND_SCSTAT_PROG, LND_RPT_THRESH, LND_ECNT1_CNT, LND_ECNT2_CNT, LND_ECNTU_CNT, LND_ECNTH_CNT, LND_ESTAT_CE2, LND_ESTAT_UE, LND_ESTAT_HARD, LND_ESTAT_PWPSN, LND_ESTAT_RETACC, LND_ESTAT_ELOVF, LND_ESTAT_RPTOVF, LND_ESTAT_OOR, LND_ESTAT_ELCNT, LND_ELCTL_POP]
/-- Fields of the block, part 1. -/
def lndFields1 : List Field :=
  [LND_ELLOCL_LOC, LND_ELLOCH_LOC, LND_ELINF_CLASS, LND_ELINF_PORT, LND_ELTIM_HT, LND_RETCNT_CNT, LND_BCPY_START, LND_BCPY_ABORT, LND_BCPY_LOGB, LND_BCPY_DST, LND_BCSTAT_DONE, LND_BCSTAT_FAIL, LND_BCSTAT_CAUSE, LND_BCSTAT_LINES, LND_BTEST_START, LND_BTEST_PHYS, LND_BTSTAT_DONE, LND_BTSTAT_FAIL, LND_BTSTAT_CAUSE, LND_MOFS_OFS]
/-- Fields of the block, part 2. -/
def lndFields2 : List Field :=
  [LND_MDATL_D, LND_MDATH_D, LND_MCTL_RD, LND_MCTL_WR, LND_MCTL_ERR, LND_MCTL_PSN, LND_MWP_CFG, LND_MWP_FWB, LND_BMAP_PHYS, LND_PHSTAT_HARD, LND_PHSTAT_STATE, LND_RET_PAGE, LND_RCTL_VALID, LND_RCTL_PERSIST]
/-- The fields of block LND. -/
def lndFields : List Field := lndFields0 ++ lndFields1 ++ lndFields2
/-- Fields of the block, part 0. -/
def netFields0 : List Field :=
  [NET_CTL_DCLR, NET_CTL_CLRCNT, NET_EVSUM_LINK, NET_EVSUM_TS, NET_EVSUM_HOLD, NET_EVSUM_GM, NET_EVSUM_DROP, NET_EVSUM_ADM, NET_EVSUM_HAIL, NET_EVSUM_MGN, NET_PCFG_EN, NET_PCFG_PNEN, NET_PCFG_SIDEEN, NET_PCFG_VLAN, NET_PCFG_PCP, NET_PCFG_VID, NET_PSTAT_LINK, NET_PSTAT_LINKCHG, NET_PSTAT_TSOVF, NET_PSTAT_RXDROP]
/-- Fields of the block, part 1. -/
def netFields1 : List Field :=
  [NET_MACL_MAC, NET_MACH_MAC, NET_PCNT_FCS, NET_PCNT_TSOVF, NET_PRXD_DROP, NET_PTPCFG_EN, NET_PTPCFG_PROF, NET_PTPCFG_PORTS, NET_PTPCFG_DOMAIN, NET_PTPCFG_PRIO1, NET_PTPCFG_PRIO2, NET_PTPCLS_CLASS, NET_PTPCLS_HCLASS, NET_PTPIVL_ANN, NET_PTPIVL_SYNC, NET_PTPIVL_DREQ, NET_PTPPST_STATE, NET_GMIDL_ID, NET_GMIDH_ID, NET_SRVKP_KP]
/-- Fields of the block, part 2. -/
def netFields2 : List Field :=
  [NET_SRVKI_KI, NET_SRVTHR_THR, NET_SRVSTAT_LOCKED, NET_SRVSTAT_SLEWING, NET_SRVSTAT_GMCHG, NET_SRVSTAT_HOLDENT, NET_SRVCFG_LOCKTHR, NET_SRVCFG_HOLDQ, NET_SRVOFS_OFS, NET_SRVDLY_DLY, NET_PNCFG_EN, NET_PNCFG_BRING, NET_PNCFG_ADMMAX, NET_PNCFG_DROPN, NET_PNETYPE_ETYPE, NET_STBASE_BASE, NET_SBASE_BASE, NET_DBASE_BASE, NET_PNSTAT_UNKHAIL, NET_PNSTAT_ADMFAIL]
/-- Fields of the block, part 3. -/
def netFields3 : List Field :=
  [NET_PNSTAT_QOVF, NET_PNSTAT_LATEUP, NET_PNSTAT_HAILQ, NET_PNSTAT_DISC, NET_PNCNT_LATEUP, NET_PNCNT_BAD, NET_PNMGN_THR, NET_STCMD_RELEASE, NET_STCMD_STN, NET_STCYC_ST, NET_STDRP_ST, NET_STFLT_ST, NET_STMAR_ST]
/-- The fields of block NET. -/
def netFields : List Field := netFields0 ++ netFields1 ++ netFields2 ++ netFields3
/-- Fields of the block, part 0. -/
def canFields0 : List Field :=
  [CAN_CTL_CLRCNT, CAN_ABASE_BASE, CAN_EVSUM_EV, CAN_CCFG_EN, CAN_CCFG_FDEN, CAN_CCFG_LOM, CAN_CCFG_TXPRI, CAN_CCFG_ABOBO, CAN_CCFG_GATE, CAN_CCFG_ACCNM, CAN_CCFG_PXHD, CAN_CCFG_TDCEN, CAN_NBT_NBRP, CAN_NBT_NTSEG1, CAN_NBT_NTSEG2, CAN_NBT_NSJW, CAN_DBT_DBRP, CAN_DBT_DTSEG1, CAN_DBT_DTSEG2, CAN_DBT_DSJW]
/-- Fields of the block, part 1. -/
def canFields1 : List Field :=
  [CAN_TDC_TDCO, CAN_FLAG_TASK, CAN_FLAG_RXFE, CAN_FLAG_RXFLAG, CAN_FLAG_TXFE, CAN_FLAG_TXFLAG, CAN_FLAG_ERFE, CAN_FLAG_ERFLAG, CAN_STAT_FCS, CAN_STAT_INTEG, CAN_STAT_EWARN, CAN_STAT_RUN, CAN_STAT_CFGERR, CAN_STAT_BOFF, CAN_STAT_EPASS, CAN_STAT_EWSET, CAN_STAT_IDCOL, CAN_STAT_RXLOST, CAN_STAT_DOMTO, CAN_STAT_PXE]
/-- Fields of the block, part 2. -/
def canFields2 : List Field :=
  [CAN_STAT_TXPSN, CAN_ECNT_TEC, CAN_ECNT_REC, CAN_LEC_BORC, CAN_LEC_DPH, CAN_LEC_LEC, CAN_COLID_XTD, CAN_COLID_ID, CAN_CNT_RXLOST, CAN_CNT_BOFF, CAN_TDCV_DLY]
/-- The fields of block CAN. -/
def canFields : List Field := canFields0 ++ canFields1 ++ canFields2
/-- Fields of the block, part 0. -/
def safFields0 : List Field :=
  [SAF_STAT_REL, SAF_STAT_CONF, SAF_STAT_SAFELOCK, SAF_STAT_SDISDUE, SAF_STAT_FCODE, SAF_STAT_MSTATE, SAF_CMD_FACK, SAF_CMD_HMEND, SAF_CMD_ACK, SAF_RBASE_BASE, SAF_HMREM_S, SAF_SINST_FLT, SAF_SINST_DEM, SAF_EVSUM_PLD, SAF_EVSUM_BT, SAF_EVSUM_FLT, SAF_EVSUM_SIN, SAF_EVSUM_GRP, SAF_GSTAT_HMBR, SAF_GSTAT_ENVBR]
/-- Fields of the block, part 1. -/
def safFields1 : List Field :=
  [SAF_GSTAT_OUTFLT, SAF_GSTAT_BTLOCK, SAF_GSTAT_DEM, SAF_GSTAT_STATE, SAF_PADDR_ADDR, SAF_PCMD_LOAD, SAF_PCMD_CONFIRM, SAF_PCMD_DISCARD, SAF_PSTAT_BUSY, SAF_PSTAT_STAGED, SAF_PSTAT_REJ, SAF_PSTAT_CAUSE, SAF_PCRC_CRC, SAF_PCONF_CRC, SAF_PACT_CRC, SAF_BTCMD_START, SAF_BTCMD_ABORT, SAF_BTCMD_BRK, SAF_BTSTAT_RESULT, SAF_BTSTAT_DUE]
/-- Fields of the block, part 2. -/
def safFields2 : List Field :=
  [SAF_BTSTAT_RUN, SAF_BTSTAT_AGE]
/-- The fields of block SAF. -/
def safFields : List Field := safFields0 ++ safFields1 ++ safFields2
/-- Fields of the block, part 0. -/
def trhFields0 : List Field :=
  [TRH_CTL_PAIR, TRH_CTL_COLDTAKE, TRH_CTL_HANDOVER, TRH_CTL_CLRCNT, TRH_CFG_CLAIMWIN, TRH_CFG_TOFSMAX, TRH_CFG_LOSSTO, TRH_CFG_UNIT, TRH_STAT_ROLE, TRH_STAT_INSTEP, TRH_STAT_LANEUP, TRH_STAT_TAKEN, TRH_STAT_YIELDED, TRH_STAT_DIPPED, TRH_STAT_MIRLATE, TRH_STAT_IDENTERR, TRH_STAT_UNITERR, TRH_STAT_LANEDN, TRH_STAT_HOREJ, TRH_STAT_EPOCHMAX]
/-- Fields of the block, part 1. -/
def trhFields1 : List Field :=
  [TRH_STAT_DIPCAUSE, TRH_ENSIGN_E, TRH_PENS_E, TRH_HIGH_E, TRH_LASTEP_EP, TRH_IDENT_ID, TRH_PIDENT_ID, TRH_MBASE_BASE, TRH_PASS_BUSY, TRH_PASS_R2, TRH_PASS_PROG, TRH_TOFS_NS, TRH_DIPEN_LATE, TRH_DIPEN_CHAIN, TRH_DIPEN_ABANDON, TRH_DIPEN_ENGINE, TRH_CNT_TAKEOVER, TRH_CNT_MIRLATE, TRH_CNT_BAD]
/-- The fields of block TRH. -/
def trhFields : List Field := trhFields0 ++ trhFields1
/-- Fields of the block, part 0. -/
def tlyFields0 : List Field :=
  [TLY_STAT_FULL, TLY_STAT_QLOST, TLY_STAT_CLRBUSY, TLY_STAT_NREC, TLY_UNLOCK_KEY, TLY_CLR_CLEAR, TLY_CLR_UNLOCKED, TLY_CUR_INDEX, TLY_WSTAT_BUSY, TLY_WSTAT_VALID, TLY_WSTAT_EMPTY, TLY_WSTAT_PSN, TLY_WSTAT_NEXT, TLY_QCNT_LOST, TLY_WIN_D, TLY_TRCFG_EN, TLY_TRCFG_TRIGEN, TLY_TRCFG_SIZE, TLY_TRCFG_MASK, TLY_TRBASE_BASE]
/-- Fields of the block, part 1. -/
def tlyFields1 : List Field :=
  [TLY_TRTRIG_CODE, TLY_TRPOST_N, TLY_TRSTAT_FROZEN, TLY_RCFG_ARM, TLY_RCFG_MODE, TLY_RSRC_MASK, TLY_RSMAP_RING, TLY_RSBASE_BASE, TLY_RSLEN_MIB, TLY_RSTAT_RUN, TLY_RSTAT_LOST, TLY_RSTAT_REJ, TLY_RSTAT_GAPS, TLY_RTAB_BASE, TLY_RTABN_N, TLY_CFGID_ID, TLY_FWID_ID, TLY_RPBASE_BASE, TLY_RPLEN_LOG2, TLY_RPPUT_CNT]
/-- Fields of the block, part 2. -/
def tlyFields2 : List Field :=
  [TLY_RPGET_CNT, TLY_RPSTAT_RUN, TLY_RPSTAT_END, TLY_RPSTAT_DIVERGE, TLY_RPSTAT_CAUSE, TLY_RPT0L_HT, TLY_RPT0H_HT, TLY_RPCFG_ID, TLY_RPFW_ID, TLY_RPDIV_TICK]
/-- The fields of block TLY. -/
def tlyFields : List Field := tlyFields0 ++ tlyFields1 ++ tlyFields2
/-- Fields of the block, part 0. -/
def pwrFields0 : List Field :=
  [PWR_STAT_VBUSOK, PWR_STAT_PFW, PWR_STAT_HURDY, PWR_STAT_PGANA, PWR_STAT_OUTREL, PWR_STAT_STBYREJ, PWR_STAT_DIP, PWR_RSTAT_CAUSE, PWR_RSTAT_LNDKEPT, PWR_RSTAT_COMMITOK, PWR_RSTAT_WDSRC, PWR_CMD_KEY, PWR_CMD_SRST, PWR_BOOTCFG_STARTP, PWR_BOOTCFG_STARTWS, PWR_BOOTCFG_TLOCK, PWR_BOOTCFG_TLTMO, PWR_BSTAT_BLAZE, PWR_BSTAT_NOFW, PWR_BSTAT_CFGERR]
/-- Fields of the block, part 1. -/
def pwrFields1 : List Field :=
  [PWR_BSTAT_STARTPEND, PWR_BSTAT_FWSEL, PWR_BSTAT_FWBBAD, PWR_BSTAT_FWABAD, PWR_BSTAT_FWVER, PWR_DIPMIN_CNT, PWR_DIPMIN_MV, PWR_DIPDUR_US, PWR_VBUS_HUV, PWR_VBUS_MV, PWR_SPSCTL_EN, PWR_SPSSTAT_LIM, PWR_SPSSTAT_ON, PWR_KSTAT_RTCVAL, PWR_KSTAT_KPSN, PWR_KSTAT_KLOST, PWR_KSTAT_KEEPSRC, PWR_EVSUM_KLOST, PWR_EVSUM_SPSLIM, PWR_EVSUM_STBYREJ]
/-- Fields of the block, part 2. -/
def pwrFields2 : List Field :=
  [PWR_EVSUM_DIP]
/-- The fields of block PWR. -/
def pwrFields : List Field := pwrFields0 ++ pwrFields1 ++ pwrFields2
/-- Fields of the block, part 0. -/
def dblFields0 : List Field :=
  [DBL_RING_CNT]
/-- The fields of block DBL. -/
def dblFields : List Field := dblFields0
/-- The fields of the block of an offset (R460; the block map of chapter 01). -/
def blockFields (b : Nat) : List Field :=
  match b with
  | 0 => sysFields
  | 1 => hifFields
  | 2 => hstFields
  | 3 => cleFields
  | 4 => axsFields
  | 5 => fbkFields
  | 6 => cnvFields
  | 7 => texFields
  | 8 => lndFields
  | 9 => netFields
  | 10 => canFields
  | 11 => safFields
  | 12 => trhFields
  | 13 => tlyFields
  | 14 => pwrFields
  | 15 => dblFields
  | _ => []

end Reg

/-- The indices under which a field lies at an offset. -/
def Field.indicesAt (f : Field) (off : Nat) : List (Nat × Nat) :=
  (upFrom 0 f.c2).filterMap fun j =>
    let b := f.base + f.s2 * j
    if off < b then none
    else
      let i := if f.s1 = 0 then 0 else (off - b) / f.s1
      if i < f.c1 && b + f.s1 * i == off then some (i, j) else none

/-- The fields at an offset with their indices. -/
def fieldsAt (off : Nat) : List (Field × Nat × Nat) :=
  (Reg.blockFields (off / 0x10000)).flatMap fun f => (f.indicesAt off).map fun ij => (f, ij)

end Sys2Proof.Machine
end

