-- ==== Sys2Proof/Machine/State.lean ====
section
/-! DEFINITION. The state of the block: every register field of BAR0, the memories, and what each island holds
beside its registers; the commands that wait; the state after reset. -/
namespace Sys2Proof.Machine

/-- Why the block could stop. No meaning of this model stops: the spec gives every command an effect. -/
inductive Fault where
  /-- raised by no command (kept so that the type has a name for a stop); safe -/
  | none
deriving DecidableEq, Repr

/-- Why a command could be refused. -/
inductive Refusal where
  /-- a command whose meaning is not written yet (raised by its arm of Dispatch only); safe -/
  | notModelled (mnemonic : String)
deriving DecidableEq, Repr

/-! ### Time (02) -/

/-- Device time (R30): SEC, NS and ACC, the slew's share below one nanosecond (R33), and the count of
CLK_TB edges since power-on, in which the model measures times that are not device time. -/
structure TimeSt where
  sec : Nat := 0
  ns : Nat := 0
  acc : Nat := 0
  share : Nat := 0
  edge : Nat := 0
deriving DecidableEq, Repr

/-- A hoist ring (R36 to R43): the configuration in use and where the ring stands in its period. -/
structure RingSt where
  /-- the ring has a grid: it was enabled and has not completed its last period -/
  live : Bool := false
  per : Nat := 0
  phase : Nat := 0
  dlin : Nat := 0
  slin : Nat := 0
  /-- T of the most recent instant and of the next one -/
  tk : Nat := 0
  next : Nat := 0
  /-- the most recent instant fired under this grid -/
  begun : Bool := false
  /-- the next instant samples and applies nothing (R41) -/
  blank : Bool := false
  /-- the present period's instant sampled -/
  sampled : Bool := false
  dDone : Bool := false
  sDone : Bool := false
  /-- counts the runs of the ring: each enable and each re-anchoring begins one (R88) -/
  anchor : Nat := 0
  /-- events C or H came in the present period: passes resume at the next instant that samples (R89) -/
  cut : Bool := false
deriving DecidableEq, Repr

/-- What a step list holds beside its registers: the copies of the step record and of its actions taken at
entry (R54), whether a stopped ring holds it (R53), and which hoist its last evaluation belongs to. -/
structure ListSt where
  step : List Byte := []
  acts : List Byte := []
  /-- RING, LBASE and LAST as they stood at START (R52) -/
  ring : Nat := 0
  base : Nat := 0
  last : Nat := 0
  ringHeld : Bool := false
  /-- one above the full quotient of the hoist of the last evaluation -/
  evalAt : Nat := 0
deriving DecidableEq, Repr

/-! ### Memories (10) -/

/-- A memory of 80-bit codewords: its bytes (unlisted: 0), the codewords whose poison bit is set, and the bit
errors standing in codewords (bit i of the mask: cell i of R251). -/
structure Mem where
  cells : List Host.Cell := []
  poison : List Nat := []
  flips : Tab (BitVec 80) := []
deriving DecidableEq, Repr

/-- The memories that hold codewords (R252, R446). -/
inductive MemId where
  | land | mram | keep
  | code (e : Nat)
  | data (e : Nat)
  | cle | axs
deriving DecidableEq, Repr

/-- An entry of the Landing error log (R259). -/
structure ErrEntry where
  loc : BitVec 64
  cls : Nat
  port : Nat
  ht : Word
deriving DecidableEq, Repr

/-- An entry of the repeat filter (R256): the codeword, its count, WATCH, the pass in which WATCH was set, and its age. -/
structure RptEntry where
  mem : MemId
  cw : Nat
  count : Nat
  watch : Bool
  pass : Nat
  order : Nat
deriving DecidableEq, Repr

/-- A Landing request as it waits for its bank (R24 to R28). -/
structure LndWait where
  req : LndReq
  waited : Nat
  raised : Bool
  seq : Nat
deriving DecidableEq, Repr

/-- A completed Landing read: who asked, and the codewords delivered with their poison. -/
structure LndReply where
  port : Nat
  off : Nat
  data : DWord
  poison : Bool
deriving DecidableEq, Repr

/-- The Landing island (10). [DESIGN CHOICE, log 68] -/
structure LndSt where
  elog : List ErrEntry := []
  filter : List RptEntry := []
  filterOrder : Nat := 0
  /-- retirement entries whose first access has been logged (R261) -/
  retSeen : List Nat := []
  /-- the retirement list and bank map held in the RETIRE region of MRAM, whose layout the spec leaves to the
  module (R262): page by entry, bank by logical bank, state by physical bank -/
  retPages : Tab Nat := []
  retMap : Tab Nat := []
  retState : Tab Nat := []
  /-- the bank copy that runs: logical bank and destination (R263) -/
  copy : Option (Nat × Nat) := none
  /-- the bank under test (R265) -/
  test : Option Nat := none
  scrubPos : Nat := 0
  /-- the edge of the scrubber's last read, from which the next one is due (R255) -/
  scrubAt : Nat := 0
  pass : Nat := 0
  waiting : List LndWait := []
  blocked : List LndReq := []
  seq : Nat := 0
  /-- the port last granted per bank and class (round robin, R26): number 3 × bank + class -/
  lastPort : Tab Nat := []
  replies : List LndReply := []
  /-- a pass runs: 4 KiB blocks written since their block was sent (R391) -/
  dirtyOn : Bool := false
  dirty : List Nat := []
deriving DecidableEq, Repr

/-! ### Tally, trace, record and replay (16) -/

/-- An event waiting in the Tally queue (R396): a record without LAST, REPEAT and CRC. -/
structure TlyEvent where
  ht : BitVec 64
  code : Nat
  src : Nat
  sub : Nat
  data : BitVec 96
deriving DecidableEq, Repr

/-- A record-stream entry (R405) as its 32 bytes. -/
abbrev RsEntry := BitVec 256

/-- The TLY island. -/
structure TlySt where
  queue : List TlyEvent := []
  /-- events lost since the last QLOST record (R396) -/
  lostNew : Nat := 0
  /-- repeats and LAST of the last record that are not yet in MRAM (R397) -/
  repeats : Nat := 0
  last : Nat := 0
  dirty : Bool := false
  lastWrite : Nat := 0
  /-- unlock stage and the edge at which it was reached (R400) -/
  unlock : Nat := 0
  unlockAt : Nat := 0
  /-- the clear in progress: next record to zero (R400) -/
  clearAt : Option Nat := none
  /-- record entries waiting in the staging area (R407): RS ring, and the place of 32 bytes they take there -/
  staged : List (Nat × Nat) := []
  gapRun : Nat := 0
  /-- stamp of the latest entry per source and ring, or source and ticks, with its SEQ (R405) -/
  seqAt : Tab Nat := []
  seqNo : Tab Nat := []
  /-- trace ring: entries written and the entries still to come after a trigger (R409, R410) -/
  widx : Nat := 0
  post : Option Nat := none
  /-- replay: instant of the entries injected last (R413), how many hoist entries of each ring it has taken, recorded
  dispatcher effects to compare (R414), no HDR entry seen yet, and the count of entries whose effects a boundary has taken -/
  rpLast : Nat := 0
  rpCount : Tab Nat := []
  rpDisp : List RsEntry := []
  rpFirst : Bool := true
  rpPulled : Nat := 0
  /-- HTIME at the start of the recording -/
  rsStart : Nat := 0
  /-- host writes that wait for the next tick boundary while recording (R408), and doorbells behind them (R273): offset,
  value, and the descriptors a doorbell covers -/
  deferred : List (Nat × Word × List (BitVec 256)) := []
deriving DecidableEq, Repr

/-! ### Power, reset and boot (17) -/

/-- A record of the stored configuration as boot read it (R438): whether it sets the blaze's fields, whether it waits for
the time gate, its offset, its value, and for a LOAD record the CONFIG offset of its data. -/
structure CfgRec where
  bl : Bool
  load : Bool
  defer : Bool
  off : Nat
  val : Nat
  src : Nat
deriving DecidableEq, Repr

/-- The PWR island and the power stage. -/
structure PwrSt where
  /-- VKEEP is present -/
  vkeep : Bool := false
  /-- the rails are up, and the analogue rails stand in their windows -/
  rails : Bool := true
  analogue : Bool := true
  standby : Bool := false
  /-- boot found no valid firmware (R437) -/
  recovery : Bool := false
  /-- boot has completed since the last event P, B, W, S or K -/
  booted : Bool := false
  /-- event B has come and boot has not (R426, R428); the bank has reached its floor -/
  brown : Bool := false
  bankLow : Bool := false
  /-- CLK_TB edge of the fall below the warning level -/
  pfwAt : Nat := 0
  /-- records with DEFER = 1 and the start that wait at the time gate (R442), and the edge since when -/
  gate : Bool := false
  gateAt : Nat := 0
  recs : List CfgRec := []
  /-- PWR_RSTAT.CAUSE and WDSRC of the coming boot -/
  cause : Nat := 1
  wdsrc : Nat := 0
  /-- the RTC as last written (R440): seconds and 1/32,768 s -/
  rtcSec : Nat := 0
  rtcFrac : Nat := 0
  /-- the keep domain has lost its contents since the last boot (R420) -/
  keepLost : Bool := false
  /-- the last power-fail commit: 0 none, 1 completed, 2 cut short, 3 cut short and recorded -/
  commit : Nat := 0
deriving DecidableEq, Repr

/-! ### Host interface (11) -/

/-- What the module puts on the PCI Express link: a memory write, an MSI-X message, a completion of a BAR2 read
(`ep`: poisoned), a memory read of so many bytes, an error reported through Advanced Error Reporting with the cause of R278,
the answers to a configuration request (`absent`: no such capability), or Unsupported Request. -/
inductive HostOut where
  | write (addr : Nat) (bytes : List Byte)
  | msi (addr data : Nat)
  | read (addr n : Nat)
  | aer (cause : Nat)
  | completion (bytes : List Byte) (ep : Bool)
  | crs
  | config (v : Word)
  | configDone
  | absent
  | unsupported
deriving DecidableEq, Repr

/-- The fields of a command descriptor (R280). -/
structure HifCmd where
  opc : BitVec 8
  flags : BitVec 8
  tag : BitVec 16
  laddr : Word
  data : BitVec 64
  mask : Word
  arg : Word
  hnum : Word
  hring : BitVec 8
  rest : BitVec 24
deriving DecidableEq, Repr

/-- A command as fetched (R280): descriptor, the host's data for COPYIN, and where host memory failed. -/
structure HifCmdSt where
  d : HifCmd
  words : List (BitVec 64 × Bool)
  fail : Option Nat
  /-- it is held to its hoist (R283), or a POST waits for its boundary (R282) -/
  held : Bool := false
  posting : Bool := false
  /-- a copy takes a pause after so many codewords -/
  pause : Option Nat := none
  /-- a copy in progress: the codewords moved, and the first of them that read poisoned -/
  moved : Option Nat := none
  marked : Option Nat := none
deriving DecidableEq, Repr

/-- A set-point descriptor as fetched, with T at its doorbell (R288). -/
structure SpDesc where
  raw : BitVec 256
  rang : Nat
deriving DecidableEq, Repr

/-- What waits for room in CPL (R281, R285): a completion, or an event entry with its EVPEND and HTIME. -/
inductive CplEntry where
  | completion (bytes : List Byte)
  | event (evpend ht : Nat)
deriving DecidableEq, Repr

/-- The HIF island beside its registers. -/
structure HifSt where
  /-- entries waiting for room in CPL, oldest first -/
  waits : List CplEntry := []
  /-- the host's count per ring (R275) -/
  host : Tab Nat := []
  /-- entries since the last vector and the edge of the first of them, per ring (R286) -/
  unsig : Tab Nat := []
  unsigAt : Tab Nat := []
  /-- commands fetched, oldest first -/
  cmds : List HifCmdSt := []
  /-- CMD is to stop once its command in progress has completed (R277) -/
  stopping : Bool := false
  /-- outcome of the host's POST at a boundary -/
  postRes : Option Nat := none
  /-- set-point descriptors that wait, per stream, and streams that had a descriptor at the instant before -/
  sps : Tab (List SpDesc) := []
  spHad : List Nat := []
  /-- an early doorbell has been recorded since one had effect (R279) -/
  earlyTold : Bool := false
  /-- MSI-X enable and function mask -/
  msixOn : Bool := false
  msixMask : Bool := false
  /-- Memory Space Enable and the other bits of the command register, and the address bits of the BARs -/
  cfgCmd : Nat := 0
  bar0 : Nat := 0
  bar2 : Nat := 0
  /-- D3hot -/
  d3 : Bool := false
deriving DecidableEq, Repr

/-! ### Cyclic programs, dispatcher and task engines (07 to 09) -/

/-- Where an item stands: queued, in the prefetch slot that task `t` owns, or taken by task `t` (R204, R207). -/
inductive ItemPlace where
  | queued
  | slot (t : Nat)
  | taken (t : Nat)
  /-- deterministic mode: DONE was executed, or the return is due at the next boundary (R211, R212) -/
  | ended
  | back (counted : Bool)
deriving DecidableEq, Repr

/-- A work item (R201): its place in the pool and its header; ARG lies in the Landing. -/
structure Item where
  cell : Nat
  flume : Nat
  stamp : Nat
  src : Nat
  seq : Nat
  place : ItemPlace
deriving DecidableEq, Repr

/-- A wait of a task (R195): `rd` is the register of a WAITF, none for a release condition; `due` is the expiry tick. -/
structure WaitSt where
  mask : Nat
  andMode : Bool
  consume : Bool
  due : Option Nat
  rd : Option Nat
deriving DecidableEq, Repr

/-- An image descriptor as the module took it into use (R170, R221). -/
structure Desc where
  hdr : Nat := 0
  inA : Nat := 0
  nin : Nat := 0
  nout : Nat := 0
  outA : Nat := 0
  retA : Nat := 0
  retLen : Nat := 0
  carryA : Nat := 0
  ncarry : Nat := 0
  imgid : Nat := 0
  retid : Nat := 0
  loaded : Bool := false
  cimg : Nat := 0
  corg : Nat := 0
  clen : Nat := 0
  entry : Nat := 0
  xhnd : Nat := 0
  forg : Nat := 0
  frame : Nat := 0
  /-- reserved bytes and FLAGS bits are 0 and the length multiples of R170 hold -/
  wellFormed : Bool := false
deriving DecidableEq, Repr

/-- A task: configuration in use (R161, R181), its cycle (R162 to R168), its waits, its place among READY tasks. -/
structure TaskSt where
  kind : Nat := 0
  desc : Desc := {}
  /-- the descriptor of the staged bank, read at the ARM of an online change (R181) -/
  staged : Desc := {}
  ring : Nat := 0
  prio : Nat := 63
  divm1 : Nat := 0
  ofs : Nat := 0
  /-- a cycle is open: from release to cycle end -/
  isOpen : Bool := false
  /-- the cycle has ended and its publish is still to come -/
  toPublish : Bool := false
  /-- T of t_k and of the release; full quotient K -/
  relTk : Nat := 0
  relAt : Nat := 0
  relK : Nat := 0
  /-- T of the publish instant and of its seal (cyclic) -/
  pubAt : Nat := 0
  sealAt : Nat := 0
  /-- output segments that the publish in progress has copied (R166) -/
  pubNext : Nat := 0
  lateNow : Bool := false
  cycle : Nat := 0
  isFirst : Bool := false
  isWarm : Bool := false
  isOcnew : Bool := false
  latePrev : Bool := false
  skipped : Nat := 0
  prevLate : Bool := false
  prevSkip : Bool := false
  prevSegPsn : Bool := false
  wait : Option WaitSt := none
  delayDue : Option Nat := none
  /-- a value for a register that the end of a wait delivers when the context is restored (R231) -/
  pendRd : Option (Nat × Word) := none
  hwait : Option (Nat × Nat × Nat) := none
  /-- when the task became READY: the CLK_TB edge, and the number of the preemption (R190) -/
  readyAt : Nat := 0
  readyNo : Nat := 0
  preempted : Bool := false
  /-- the cycle has been dispatched before: its context is restored, not set up (R217, R223) -/
  hasCtx : Bool := false
  /-- banks whose init copies were made since their LOADED was set (R247) -/
  inited : List Nat := []
  /-- retained data received by a standby that wait for the next snapshot (R386): offset, bytes and
  the places of poisoned words -/
  retIn : List (Nat × List Byte × List Nat) := []
  retLast : Bool := false
deriving DecidableEq, Repr

/-- The registers of a task on an engine (R216, R235). -/
structure CtxSt where
  g : Tab Word := []
  tags : BitVec 32 := 0
  pc : Word := 0
  inHnd : Bool := false
  fsticky : BitVec 5 := 0
  epc : Word := 0
  ecause : BitVec 16 := 0
  eval : Word := 0
  tt : DWord := 0
  hnum : Word := 0
  cycle : Word := 0
  hflags : Word := 0
  hdra : Word := 0
  tkflume : Word := 0x80000000
  tkstamp : Word := 0
  /-- the latched upper half of HTIME (R216) -/
  hthi : Word := 0
deriving DecidableEq, Repr

/-- A Landing load that has not returned (R215): destination, data and tag; `pair` for LDP. -/
structure LoadSt where
  rd : Nat
  pair : Bool
  data : DWord
  tag : Bool
deriving DecidableEq, Repr

/-- A task engine. -/
structure EngSt where
  busy : Bool := false
  task : Nat := 0
  ctx : CtxSt := {}
  loads : List LoadSt := []
  fence : Bool := false
  dispNo : Nat := 0
deriving DecidableEq, Repr

/-- An effect that deterministic mode holds for the next tick boundary (R211). -/
inductive Effect where
  | setF (t mask : Nat)
  | clrF (t mask : Nat)
  | post (flume arg : Nat) (poison : Bool) (src by_ : Nat)
  | fin (t flume : Nat)
  | cycleEnd (t : Nat)
  | expiry (t : Nat)
  | join (e : Nat)
deriving DecidableEq, Repr

/-- A held effect with its stamp, rank and order keys (R211). -/
structure HeldEffect where
  stamp : Nat
  rank : Nat
  k1 : Nat
  arrival : Nat
  eff : Effect
deriving DecidableEq, Repr

/-- A force entry in use (R177). -/
structure ForceSt where
  act : Bool := false
  out : Bool := false
  addr : Nat := 0
  mask : DWord := 0
  value : DWord := 0
deriving DecidableEq, Repr

/-- A gathered area of a checkpoint (R183, R268): task, RETID, FLAGS and data. -/
structure CkArea where
  task : Nat
  retid : Nat
  flags : Nat
  data : List Byte
deriving DecidableEq, Repr

/-- A checkpoint in progress. -/
structure CkSt where
  need : List Nat
  areas : List CkArea
  startAt : Nat
  powerFail : Bool
  part : Bool
deriving DecidableEq, Repr

/-- The TEX island beside its registers. -/
structure TexSt where
  tasks : Tab TaskSt := []
  engines : Tab EngSt := []
  items : List Item := []
  seqs : Tab Nat := []
  readyNo : Nat := 0
  dispNo : Nat := 0
  postOk : Bool := false
  held : List HeldEffect := []
  arrival : Nat := 0
  forces : Tab ForceSt := []
  stopping : Bool := false
  ck : Option CkSt := none
  ckTimer : Nat := 0
  /-- the armed online change: affected tasks and the edge of its timeout (R181, R182) -/
  oc : Option (List Nat × Nat) := none
  /-- engines whose code is loaded and that enter the pool at a boundary (R209) -/
  joining : List Nat := []
  /-- FORCED_N is driven low -/
  forcedPin : Bool := false
deriving DecidableEq, Repr

/-! ### Redundant pairs (15) -/

/-- A Terha frame handed to the link: the lanes it leaves on, its bytes (R371), and the places of its payload at which the
8 bytes of a poisoned codeword begin (R253). -/
structure TrhFrame where
  lanes : Nat
  bytes : List Byte
  psn : List Nat := []
deriving DecidableEq, Repr

/-- The HOIST records of one seal of a ring as received (R385), with the places of poisoned words. -/
structure HoistIn where
  seen : Bool := false
  hnum : Nat := 0
  bytes : List Byte := []
  psn : List Nat := []
  last : Bool := false
deriving DecidableEq, Repr

/-- The TRH island beside its registers. Edges are counts of CLK_TB. -/
structure TrhSt where
  seq : Nat := 0
  /-- claims seen and the edge at which each was seen last (R375) -/
  claims : Tab Nat := []
  /-- the last CLAIM received: its HT, its receive time, CAND, ROLE and STATUS -/
  pht : Nat := 0
  prx : Nat := 0
  pcand : Nat := 0
  prole : Nat := 0
  pstatus : Nat := 0
  pseen : Bool := false
  /-- edge of the last valid frame and of the start of unbroken reception, per lane -/
  laneLast : Tab Nat := []
  laneSince : Tab Nat := []
  /-- edge at which negotiation began, and whether it has seen a claim (R380) -/
  negAt : Nat := 0
  negClaim : Bool := false
  /-- rings that still wait, after a take-over at `takenAt`, for their seal (2) or apply instant (1) (R389) -/
  takenAt : Nat := 0
  ringHold : Tab Nat := []
  handover : Bool := false
  /-- HOIST data received per ring: hoist number, bytes, and whether the LAST frame has come (R385) -/
  hoistIn : Tab HoistIn := []
  /-- late periods in a row, up to 2: ring n under n for HOIST, under 8 + n for RET (R385, R386) -/
  mirLate : Tab Nat := []
  /-- standby: the image bytes announced by START, and whether the last pass ended with a matching CRC (R391) -/
  passOk : Bool := false
  passBytes : Nat := 0
  passSeen : Nat := 0
  /-- rings LATE at their last seal (R387) -/
  lateRings : List Nat := []
  nextClaim : Nat := 0
deriving DecidableEq, Repr

/-! ### Control-law engine (03) -/

/-- Where the pass of a ring stands (R65, R51). -/
inductive PassPhase where
  | none | ready | running | preempted
deriving DecidableEq, Repr

/-- A pass: the loop to evaluate next, loops evaluated, LEN as read at the start (R66), and the CLK_TB edges at which
the pass and its present stretch began, with the loops evaluated in that stretch. -/
structure PassSt where
  phase : PassPhase := .none
  loop : Nat := 0
  count : Nat := 0
  len : Nat := 0
  began : Nat := 0
  seg : Nat := 0
  segCount : Nat := 0
deriving DecidableEq, Repr

/-- A filter set in use, binary32 codes (R76). -/
structure FiltSet where
  b0 : Nat := 0x3F800000
  b1 : Nat := 0
  b2 : Nat := 0
  a1 : Nat := 0
  a2 : Nat := 0
deriving DecidableEq, Repr

/-- The CLE island beside its registers. The biquad states lie in `State.cleMem`: 32 bytes per loop, A then B (R75). -/
structure CleSt where
  passes : Tab PassSt := []
  fsets : Tab FiltSet := []
  /-- loops whose last evaluation had a bad input (R84) -/
  bad : List Nat := []
  /-- the run of its ring (`RingSt.era`) in which a loop was evaluated last (R88) -/
  evals : Tab Nat := []
deriving DecidableEq, Repr

/-! ### Axes (04) -/

/-- A plan (R101, R102): what it started from. Positions are in units of 2^−48 count; the velocity and acceleration are
binary64 codes, the limits and a velocity target binary32 codes; `tau` is in nanoseconds. -/
structure PlanSt where
  vel : Bool
  target : Nat
  start : Int
  dist : Int
  v0 : Nat
  a0 : Nat
  vmax : Nat
  amax : Nat
  dmax : Nat
  jmax : Nat
  tau : Nat
  /-- it interrupted a plan before INPOS (R103) -/
  cut : Bool
deriving DecidableEq, Repr

/-- The private state of an axis (R94): internal position in units of 2^−48 count, VI and AI as binary64 codes, plan,
demand and engagement, and the last clean CFG and limits (R464). -/
structure AxisSt where
  mode : Nat := 0
  seenCfg : Bool := false
  seenLim : Nat := 0
  cfg : Nat := 0
  vmax : Nat := 0
  amax : Nat := 0
  dmax : Nat := 0
  jmax : Nat := 0
  pos : Int := 0
  vi : Nat := 0
  ai : Nat := 0
  plan : Option PlanSt := none
  inpos : Bool := false
  /-- in OFF with FBEN = 0, VEL = ACC = 0 have been published (R466) -/
  offPub : Bool := false
  /-- the evaluation before met a poisoned word (R464) -/
  wordBad : Bool := false
  engaging : Bool := false
  engaged : Bool := false
  /-- engagement (R108): POS and VI at its start, and t in nanoseconds -/
  p0 : Int := 0
  v0 : Nat := 0
  t : Nat := 0
  /-- master position of the evaluation before, the unfolded difference to MSYNC, the gear demand in units of 2^−80
  count, and GOFS as last used (R104) -/
  mPrev : Option Int := none
  delta : Int := 0
  gear : Int := 0
  gofs : Int := 0
  /-- TRACK: position and velocity of the demand before -/
  trkPrev : Option (Int × Nat) := none
  /-- the demand in use and the periods it has been bad (R106) -/
  q : Int := 0
  wd : Nat := 0
  badN : Nat := 0
  /-- cam table in use, its last cycle and whether it is cyclic (R107) -/
  ctab : Nat := 0
  camC : Option Int := none
  camCyc : Bool := false
deriving DecidableEq, Repr

/-- A compare and capture unit beside its registers (R109 to R113). -/
structure CcSt where
  /-- the queue counters as the unit knows them (R109, R110) -/
  cput : Nat := 0
  cget : Nat := 0
  kput : Nat := 0
  kget : Nat := 0
  /-- the source position at the latest sample and at the one before (R111) -/
  cur : Int := 0
  prev : Int := 0
  seen : Bool := false
  /-- the head has been judged on becoming head; FIREPASSED fires it at the next sample -/
  judged : Bool := false
  passedNext : Bool := false
  /-- CLK_TB edge at which the pulse ends -/
  pulse : Option Nat := none
  /-- a latched capture: position, HTIME and CLK_TB edge of the raw edge (R112) -/
  cap : Option (Int × Nat × Nat) := none
  /-- the CLK_TB edge of the newest sample, and the one at which an entry fired last (R111) -/
  smpAt : Nat := 0
  firedAt : Nat := 0
deriving DecidableEq, Repr

/-- The AXS island beside its registers. -/
structure AxsSt where
  axes : Tab AxisSt := []
  units : Tab CcSt := []
  /-- rings whose generator pass has not completed, with the next member's place -/
  waiting : List Nat := []
  next : Tab Nat := []
  /-- the run of its ring (`RingSt.era`) in which an axis was evaluated last (R94) -/
  evals : Tab Nat := []
deriving DecidableEq, Repr

/-! ### Position feedback and encoder emulation (05) -/

/-- The observer of a channel (R123): θi, θr, v, a (binary64 codes), and the CLK_TB edge of its last update. -/
structure ObsSt where
  run : Bool := false
  thi : Int := 0
  thr : Nat := 0
  v : Nat := 0
  a : Nat := 0
  last : Nat := 0
deriving DecidableEq, Repr

/-- A sample latched at an instant that waits for its record (R115): hoist number, position, VEL and ACC. -/
structure FbLatch where
  hnum : Nat
  pos : Int
  vel : Nat
  acc : Nat
  /-- STAT as of the instant -/
  stat : Nat
deriving DecidableEq, Repr

/-- A local channel. -/
structure FbSt where
  /-- the channel decodes: EN, and its configuration was valid when it started -/
  run : Bool := false
  /-- decoded position, units of 2^−16 count -/
  pos : Int := 0
  /-- quadrature levels (INC) -/
  qa : Bool := false
  qb : Bool := false
  qseen : Bool := false
  /-- CLK_TB edge of the last accepted edge -/
  lastEdge : Option Nat := none
  /-- period count and phase (SINCOS modes) and whether a sample and the SSI load have come -/
  per : Int := 0
  phi : Nat := 0
  pseen : Bool := false
  loaded : Bool := false
  /-- SSI value before (R120) -/
  ssi : Option Nat := none
  refok : Bool := false
  dir : Bool := false
  line : Bool := false
  ampWarn : Bool := false
  ampFlt : Bool := false
  /-- amplitude measure, 1/4,096, and consecutive samples towards a change of AMPWARN and of AMPFLT -/
  amp : Nat := 0
  warnRun : Nat := 0
  fltRun : Nat := 0
  /-- STAT bits 22 to 14 seen since the previous sample instant, at their places -/
  seen : Nat := 0
  /-- a count that a fault of this hoist makes invalid (R117, R118, R120) -/
  badNow : Bool := false
  standstill : Bool := false
  /-- CLK_TB edges at which SETTLING and REVERSAL end, and of the last count change -/
  settle : Option Nat := none
  reversal : Option Nat := none
  lastChange : Nat := 0
  /-- position at the last count change (R125) -/
  stillAt : Int := 0
  /-- the last valid position, which a record carries while POSOK is 0 (R129) -/
  good : Int := 0
  obs : ObsSt := {}
  latch : Option FbLatch := none
  /-- the SSI frame of this hoist number runs (R120) -/
  frame : Option Nat := none
  /-- an SSI value is to be read for the period count (R121) -/
  want : Bool := false
  zref : Bool := false
deriving DecidableEq, Repr

/-- An emulation stage (R133 to R136): src0, the source as configured at EN, the target latched at a seal and the one
applied, the emitted count at the last apply instant with the counts scheduled over the period from then. -/
structure EmuSt where
  on_ : Bool := false
  src0 : Option Int := none
  srck : Nat := 0
  srcn : Nat := 0
  ratio : Int := 0
  latched : Option Int := none
  target : Int := 0
  c : Int := 0
  sched : Int := 0
  start : Nat := 0
  span : Nat := 0
deriving DecidableEq, Repr

/-- The FBK island beside its registers. -/
structure FbkSt where
  chans : Tab FbSt := []
  emus : Tab EmuSt := []
  /-- ring of each remote record, plus one, as the station records map it (R116, R303) -/
  remRing : Tab Nat := []
deriving DecidableEq, Repr

/-! ### Conversion and digital lines (06, 18) -/

/-- An entry as it was at the sample instant (R143): channel, whether the scaled copy is written, SCALE, OFFSET. -/
structure AdcEnt where
  ch : Nat
  scen : Bool
  scale : Nat
  offset : Nat
deriving DecidableEq, Repr

/-- A converter (R139): the entries of the present hoist with their number, those whose results are to come, the
conversions of each, the instant and its hoist number, whether the reference was out during the entry, and whether
the converter stopped after a reload (R146). -/
structure AdcSt where
  ents : List AdcEnt := []
  todo : List Nat := []
  avg : Nat := 1
  ring : Nat := 0
  tk : Nat := 0
  hnum : Nat := 0
  refBad : Bool := false
  halted : Bool := false
deriving DecidableEq, Repr

/-- An interleaved pair (R151 to R155): samples written, the number of the sample at the latest instant, that instant,
and the samples the period takes. -/
structure PairSt where
  run : Bool := false
  begun : Bool := false
  widx : Nat := 0
  kidx : Nat := 0
  tk : Nat := 0
  count : Nat := 0
deriving DecidableEq, Repr

/-- A DAC (R156 to R158): the code latched at the last good seal, and whether the last seal was poisoned or not finite. -/
structure DacSt where
  code : Option Int := none
  psn : Bool := false
  nan : Bool := false
deriving DecidableEq, Repr

/-- The CNV island. -/
structure CnvSt where
  adcs : Tab AdcSt := []
  pairs : Tab PairSt := []
  dacs : Tab DacSt := []
deriving DecidableEq, Repr

/-- The DIO lines (R453): the ring values applied, the slot latched per ring (plus one), the rings whose last slot was
poisoned, and the levels at the lands as last seen. -/
structure DioSt where
  val : Nat := 0
  lat : Tab Nat := []
  bad : List Nat := []
  ext : Nat := 0
deriving DecidableEq, Repr

/-! ### Networks (12) -/

/-- What the manual gives of a PTP message (R294, R295, R298): port, message type, HTIME at the connector, domain, clockClass
and priorities announced, grandmaster and logMessageInterval. -/
structure PtpOut where
  port : Nat
  kind : Nat
  htime : Nat
  domain : Nat
  cls : Nat
  prio1 : Nat
  prio2 : Nat
  gm : Nat
  ivl : Int
deriving DecidableEq, Repr

/-- A frame the module sends: on the ports of a mask, from destination address to the end of the data (R302, R299), or
a PTP message (R294), whose layout is the standard's. -/
inductive NetOut where
  | frame (ports : Nat) (bytes : List Byte)
  | ptp (m : PtpOut)
deriving DecidableEq, Repr

/-- A station record as the module took it (R303). -/
structure StnRec where
  en : Bool := false
  mac : List Byte := []
  pmask : Nat := 0
  ring : Nat := 0
  inAddr : Nat := 0
  inLen : Nat := 0
  outLen : Nat := 0
  outAddr : Nat := 0
  pAddr : Nat := 0
  pLen : Nat := 0
  /-- feedback record and payload block of each mapped block -/
  fb : List (Nat × Nat) := []
deriving DecidableEq, Repr

/-- A station (R306 to R315): its state, the fields of its status word, and where its admission stands. -/
structure StnSt where
  state : Nat := 0
  rcd : StnRec := {}
  phnum : Nat := 0
  stale : Bool := false
  dropped : Bool := false
  psn : Bool := false
  subst : Bool := false
  latedn : Bool := false
  enrej : Bool := false
  psnout : Bool := false
  stalecnt : Nat := 0
  /-- stale hoists in a row since it became CYCLIC -/
  run : Nat := 0
  /-- the hoist of the last accepted CYCLE_UP, plus one -/
  got : Nat := 0
  marLow : Bool := false
  ready : Bool := false
  goNow : Bool := false
  /-- admission: offset of the outstanding parameter frame, whether it is to be sent, whether an ACK is awaited, the
  base period of its sending, resends so far, and the parameter bytes sent -/
  off : Nat := 0
  due : Bool := false
  wait : Bool := false
  sentAt : Nat := 0
  resends : Nat := 0
  sent : List Byte := []
deriving DecidableEq, Repr

/-- A CYCLE_UP frame that waits for the seal (R306). -/
structure HeldUp where
  stn : Nat
  flags : Nat
  hnum : Nat
  payload : List Byte
deriving DecidableEq, Repr

/-- The NET island beside its registers. -/
structure NetSt where
  stations : Tab StnSt := []
  queue : List Nat := []
  /-- MAC addresses in the discovery list -/
  disc : List (List Byte) := []
  held : List HeldUp := []
  /-- base ring seals so far, ADMIT frames sent in the present base period, and RELEASE frames that wait for the seal -/
  bperiod : Nat := 0
  admits : Nat := 0
  releases : List (Nat × List Byte) := []
  /-- side-path counts of the module per port: TXGET, RXPUT, TSPUT -/
  txget : Tab Nat := []
  rxput : Tab Nat := []
  tsput : Tab Nat := []
  /-- ports whose side path, and PTP messages, wait for the end of a guard (R293) -/
  sidePend : List Nat := []
  /-- ADMIT frames that wait for the end of a guard: port and frame (R293) -/
  admPend : List (Nat × List Byte) := []
  ptpPend : List (Nat × Nat) := []
  /-- servo: I (binary64), qualifying samples since holdover, samples in a row within LOCKTHR (R297) -/
  integ : Nat := 0
  qual : Option Nat := none
  lockRun : Nat := 0
  /-- CLK_TB edge at which a PTP port entered LISTENING, plus one -/
  listen : Tab Nat := []
  /-- edge of the last Announce and of the last Sync on the SLAVE port, with the logSyncInterval of the latter, and whether the
  SLAVE port was lost since (R298) -/
  annAt : Nat := 0
  syncAt : Nat := 0
  syncIvl : Int := -3
  orphan : Bool := false
  /-- timestamp of the last PTP event message received per port (R295), and the edge of the last Announce and Sync sent -/
  ptpRx : Tab Nat := []
  annSent : Tab Nat := []
  syncSent : Tab Nat := []
deriving DecidableEq, Repr

/-! ### CAN FD controllers (13) -/

/-- A frame that a controller puts on its bus: HTIME of its start, controller, ESI, and the record it came from. -/
structure CanSent where
  ctrl : Nat
  ht : Nat
  esi : Bool
  frame : CanFrame
deriving DecidableEq, Repr

/-- A controller (R325 to R333): phase (0 stopped, 1 listening, 2 integrating, 3 on the bus), the edge at which listening
ends, the requests pending (0 to 2 buffers, 3 + o send object o), the request whose frame is on the bus, whether it is to
be aborted, its frame and start, the error counters, the attempts that ended in a bit error on one identifier, and
the counts of the receive queue. -/
structure CanSt where
  phase : Nat := 0
  listenEnd : Nat := 0
  reqs : List Nat := []
  cur : Option Nat := none
  abortCur : Bool := false
  curFrame : Option CanFrame := none
  curHt : Nat := 0
  curTag : Nat := 0
  tec : Nat := 0
  rec_ : Nat := 0
  colId : Option (Bool × Nat) := none
  colCount : Nat := 0
  colTold : Bool := false
  rxput : Nat := 0
  rxget : Nat := 0
  /-- the secondary sample point last placed, in ticks after the TX edge (R320) -/
  ssp : Option Nat := none
  /-- the transceiver has released the bus to recessive (R319) -/
  released : Bool := false
deriving DecidableEq, Repr

/-! ### Safety island (14) -/

/-- A contact of a safe input (R342): its level (closed), since when, and its accepted state. -/
structure ContactSt where
  raw : Bool := false
  since : Nat := 0
  acc : Bool := false
deriving DecidableEq, Repr

/-- A safe input (R342 to R344): latched fault and whether both contacts have been accepted in demand since, demanding,
since when the accepted states disagree, since when contact A has been accepted closed, and a reset not yet used. -/
structure InputSt where
  flt : Bool := false
  seen : Bool := false
  dem : Bool := true
  disc : Option Nat := none
  closedAt : Option Nat := none
  reset : Bool := false
  /-- the present disagreement has raised SINDISC -/
  discTold : Bool := false
deriving DecidableEq, Repr

/-- A group (R345 to R350): cycles in SS1, island count differences at SS1 entry, the edge at which the brake lead ends,
whether every release condition but lock and reset held at the last cycle end, a host reset, and its locks. -/
structure GroupSt where
  tau : Nat := 0
  v0 : List Nat := []
  lead : Option Nat := none
  ready : Bool := false
  ack : Bool := false
  outflt : Bool := false
  envbr : Bool := false
  hmbr : Bool := false
deriving DecidableEq, Repr

/-- A brake test (R352, R353): running, p0, the edge of its start and of the torque write, BTLOCK by brake, and the
edge from which the present hour of AGE counts. -/
structure BrakeSt where
  run : Bool := false
  p0 : Int := 0
  start : Nat := 0
  torque : Option Nat := none
  lock : Bool := false
  ageAt : Nat := 0
deriving DecidableEq, Repr

/-- The SAF island beside its registers. -/
structure SafSt where
  cyc : Nat := 0
  cycAt : Nat := 0
  /-- contact A of input n under 2n, contact B under 2n + 1 -/
  contacts : Tab ContactSt := []
  inputs : Tab InputSt := []
  groups : Tab GroupSt := []
  brakes : Tab BrakeSt := []
  /-- island counts at the last four cycle ends, latest first -/
  hist : List (List Int) := []
  /-- cycle ends in a row at which a channel's counts differ, and at which a monitor exceeds VHM -/
  plaus : Tab Nat := []
  hmOver : Tab Nat := []
  /-- conditions present at the last cycle end, by fault code and object -/
  conds : List Nat := []
  /-- faults found since the last cycle end: code, and the group, input or brake it names (R335) -/
  found : List (Nat × Nat) := []
  staged : Option (List Byte) := none
  block : Option (List Byte) := none
  sdis : Bool := false
  sdisTested : Bool := false
  sdisAt : Nat := 0
  wdog : Bool := false
  hmAt : Nat := 0
  /-- draw of the phase of HEALTH in HALFMAST -/
  hmPhase : Nat := 0
  hmOverTime : Bool := false
  fack : Bool := false
  safeAt : Option Nat := none
  /-- edges at which SAFE was entered (R359) -/
  safeTimes : List Nat := []
  /-- last test pulse of TPA and TPB, and last off-pulse per output -/
  pulses : Tab Nat := []
  heartbeat : Nat := 0
  nextClock : Nat := 0
deriving DecidableEq, Repr

/-- The state of the block. [DESIGN CHOICE, log 1] -/
structure State where
  /-- commands waiting, oldest first -/
  pending : List Instr := []
  /-- register fields that differ from their reset value, by `Field.key` -/
  regs : Tab Word := []
  time : TimeSt := {}
  rings : Tab RingSt := []
  lists : Tab ListSt := []
  /-- the Landing, by physical bank and codeword (R249) -/
  landing : Mem := {}
  mram : Mem := {}
  keep : Mem := {}
  code : Tab Mem := []
  dmem : Tab Mem := []
  /-- state memory of the control-law engine and private memory of the axis generators (R75, R252) -/
  cleMem : Mem := {}
  axsMem : Mem := {}
  lnd : LndSt := {}
  tly : TlySt := {}
  pwr : PwrSt := {}
  /-- how many free values the block has drawn (the model's own field: index of the next one) -/
  fresh : Nat := 0
  hif : HifSt := {}
  tex : TexSt := {}
  trh : TrhSt := {}
  cle : CleSt := {}
  axs : AxsSt := {}
  fbk : FbkSt := {}
  /-- Terha frames sent, oldest first -/
  trhOut : List TrhFrame := []
  cnv : CnvSt := {}
  dio : DioSt := {}
  net : NetSt := {}
  /-- frames sent on the Ethernet ports, oldest first -/
  netOut : List NetOut := []
  can : Tab CanSt := []
  /-- frames put on the CAN buses, oldest first -/
  canOut : List CanSent := []
  saf : SafSt := {}
  /-- what went out on the PCI Express link, oldest first -/
  hostOut : List HostOut := []
deriving DecidableEq, Repr

/-- The block right after reset (event P complete, boot not yet run): every register field at its reset value
(nothing listed), memories clean, islands idle, no command waiting. [DESIGN CHOICE, log 1 and 5 and 6; DEDUCED, log 121] -/
def State.reset : State := {}

end Sys2Proof.Machine
end

