-- ==== Sys2Proof/Machine/Ops.lean ====
section
/-! DEFINITION. The named operations every island uses: reading and writing register fields, device time, raising
host events, queueing Tally events, reset events. -/
namespace Sys2Proof.Machine

/-! ### Register fields -/

/-- The value of a field of index `i`, `j` (R10, R13: an unlisted field has its reset value). [DEDUCED, log 10] -/
def State.rd (s : State) (f : Field) (i : Nat := 0) (j : Nat := 0) : Nat :=
  (tabAt (BitVec.ofNat 32 (f.reset i)) s.regs (f.key i j)).toNat

/-- A one-bit field as a truth value. -/
def State.bit (s : State) (f : Field) (i : Nat := 0) (j : Nat := 0) : Bool := s.rd f i j % 2 == 1

/-- A field read as two's complement (R8). -/
def State.rdS (s : State) (f : Field) (i : Nat := 0) (j : Nat := 0) : Int := sInt f.w (s.rd f i j)

/-- Give a field a value; only its own width is kept. [DEDUCED, log 10] -/
def State.wr (s : State) (f : Field) (v : Nat) (i : Nat := 0) (j : Nat := 0) : State :=
  { s with regs := tabPut (BitVec.ofNat 32 (f.reset i)) s.regs (f.key i j) (BitVec.ofNat 32 (v % 2 ^ f.w)) }

/-- Set or clear a one-bit field. -/
def State.wrB (s : State) (f : Field) (b : Bool) (i : Nat := 0) (j : Nat := 0) : State := s.wr f (b2n b) i j

/-- Give a field the two's-complement code of an integer. -/
def State.wrS (s : State) (f : Field) (v : Int) (i : Nat := 0) (j : Nat := 0) : State := s.wr f (uOf f.w v) i j

/-- Count a field up; it stays at its greatest value. -/
def State.inc (s : State) (f : Field) (i : Nat := 0) (j : Nat := 0) (n : Nat := 1) : State :=
  s.wr f (satAdd f.w (s.rd f i j) n) i j

/-- Set one bit of a field that holds one bit per object. -/
def State.setBitOf (s : State) (f : Field) (b : Nat) (i : Nat := 0) : State :=
  s.wr f (Nat.lor (s.rd f i) (2 ^ b)) i

/-- Clear one bit of a field that holds one bit per object. -/
def State.clrBitOf (s : State) (f : Field) (b : Nat) (i : Nat := 0) : State :=
  s.wr f (if bitAt (s.rd f i) b then s.rd f i - 2 ^ b else s.rd f i) i

/-- The value of a whole register: its fields at their places, reserved bits 0 (R9, R12). [DEDUCED, log 10] -/
def State.regWord (s : State) (off : Nat) : Word :=
  (fieldsAt off).foldl
    (fun a fij => a ||| BitVec.ofNat 32 (s.rd fij.1 fij.2.1 fij.2.2 * 2 ^ (fij.1.lo + fij.1.bs * fij.2.2))) 0#32

/-! ### Device time (R30, R31, R33) -/

/-- T, the unwrapped nanoseconds since the epoch (R30). -/
def State.T (s : State) : Nat := s.time.sec * 1000000000 + s.time.ns

/-- HTIME (R30). -/
def State.htime (s : State) : Nat := s.T % 2 ^ 64

/-- The correction limit of R31. -/
def rateLimit : Int := 2147484

/-- RATE as R31 uses it. -/
def State.rc (s : State) : Int := clampI (-rateLimit) rateLimit (s.rdS Reg.HST_RATE_RATE)

/-- SLEWRATE (R33): 100 ppm toward the sign of HST_SLEW, reduced so that the sum stays within the limit. -/
def State.slewRate (s : State) : Int :=
  let n := s.rdS Reg.HST_SLEW_SLEW
  if n = 0 then 0
  else if n > 0 then max 0 (min 429497 (rateLimit - s.rc))
  else min 0 (max (-429497) (-rateLimit - s.rc))

/-- Device time after `m` edges of one rate (R31): SEC, NS and ACC. -/
def timeAfter (t : TimeSt) (r : Int) (m : Nat) : TimeSt :=
  let a : Int := (t.acc : Int) + (m : Int) * (5 * ((2 : Int) ^ 32 + r))
  let ns := t.ns + (a / (2 : Int) ^ 32).toNat
  { t with
    sec := (t.sec + ns / 1000000000) % 2 ^ 48
    ns := ns % 1000000000
    acc := (a % (2 : Int) ^ 32).toNat
    edge := t.edge + m }

/-- The edges after which the slew has moved HST_SLEW to 0, if it moves (R33). -/
def State.slewEdges (s : State) : Option Nat :=
  let sr := s.slewRate
  if sr = 0 then none
  else
    let need := (s.rdS Reg.HST_SLEW_SLEW).natAbs * 2 ^ 32 - s.time.share
    some ((need + 5 * sr.natAbs - 1) / (5 * sr.natAbs))

/-- `m` edges during which SLEWRATE does not change: time, the slew's share and HST_SLEW move (R31, R33). -/
def State.edgesFlat (s : State) (m : Nat) : State :=
  let sr := s.slewRate
  let sh := s.time.share + m * (5 * sr.natAbs)
  let n := s.rdS Reg.HST_SLEW_SLEW
  let moved : Int := ((sh / 2 ^ 32 : Nat) : Int)
  let n' := if n > 0 then max 0 (n - moved) else min 0 (n + moved)
  let s1 := { s with time := { timeAfter s.time (s.rc + sr) m with share := if n' = 0 then 0 else sh % 2 ^ 32 } }
  let s2 := s1.wrS Reg.HST_SLEW_SLEW n'
  let s3 := (s2.wrB Reg.HST_TSTAT_SLEWBUSY (n' ≠ 0)).wrB Reg.NET_SRVSTAT_SLEWING (s2.bit Reg.NET_SRVSTAT_SLEWING && decide (n' ≠ 0))
  if m ≠ 0 ∧ s.rc ≠ s.rdS Reg.HST_RATE_RATE then s3.wrB Reg.HST_TSTAT_RATECLAMP true else s3

/-- `m` CLK_TB edges. A slew that ends within them ends at its edge. -/
def State.edges (s : State) (m : Nat) : State :=
  match s.slewEdges with
  | some k => if k < m then (s.edgesFlat k).edgesFlat (m - k) else s.edgesFlat m
  | none => s.edgesFlat m

/-- One CLK_TB edge (R31). [DESIGN CHOICE, log 2] -/
def State.tick (s : State) : State := s.edges 1

/-- The edges of one rate after which T has grown by `d` nanoseconds. -/
def edgesToGrow (acc : Nat) (r : Int) (d : Nat) : Nat :=
  let step : Int := 5 * ((2 : Int) ^ 32 + r)
  let need : Int := (d : Int) * (2 : Int) ^ 32 - (acc : Int)
  if need ≤ 0 then 0 else ((need + step - 1) / step).toNat

/-- Let device time run to the first edge at which T ≥ `due` (R38); a time already reached stays. [DESIGN CHOICE, log 3] -/
def State.advanceTo (s : State) (due : Nat) : State :=
  if due ≤ s.T then s
  else
    let m := edgesToGrow s.time.acc (s.rc + s.slewRate) (due - s.T)
    match s.slewEdges with
    | some k =>
      if k < m then
        let s1 := s.edgesFlat k
        s1.edgesFlat (edgesToGrow s1.time.acc (s1.rc + s1.slewRate) (due - s1.T))
      else s.edgesFlat m
    | none => s.edgesFlat m

/-- Let time run to CLK_TB edge number `e`, for times that are not device time. [DESIGN CHOICE, log 3] -/
def State.advanceEdge (s : State) (e : Nat) : State := s.edges (e - s.time.edge)

/-- CLK_TB edges per microsecond and per millisecond (R4). -/
def edgesPerUs : Nat := 200
def edgesPerMs : Nat := 200000

/-- The dispatcher tick number of the boundary at or before now (R199). -/
def State.dtick (s : State) : Nat := s.T / 1000

/-! ### Host events and the Tally queue -/

/-- Raise the host event of an island (R285): EVPEND bit, and an event entry unless the bit was set or masked. [DEDUCED, log 42] -/
def State.raise (s : State) (island : Nat) : State :=
  if bitAt (s.rd Reg.HIF_EVPEND_EV) island then s
  else
    let s1 := s.setBitOf Reg.HIF_EVPEND_EV island
    if bitAt (s.rd Reg.HIF_EVMASK_EV) island then s1
    else { s1 with hif := { s1.hif with waits := s1.hif.waits ++ [.event (s1.rd Reg.HIF_EVPEND_EV) s.htime] } }

/-- Set a sticky one-bit field; a bit that becomes set raises the host event of its island. -/
def State.setSticky (s : State) (island : Nat) (f : Field) (i : Nat := 0) : State :=
  if s.bit f i then s else (s.wrB f true i).raise island

/-- Set one bit of a summary field; a bit that becomes set raises the host event of its island. -/
def State.setSummary (s : State) (island : Nat) (f : Field) (b : Nat) (i : Nat := 0) : State :=
  if bitAt (s.rd f i) b then s else (s.setBitOf f b i).raise island

/-- Queue an event for the Tally (R396); with 64 waiting it is lost and counted. A Tally event of the trigger
code starts the trace ring's post-trigger count (R410). [DEDUCED, log 129] -/
def State.tallyEvent (s : State) (ev : TlyEvent) : State :=
  let s := if s.bit Reg.TLY_TRCFG_EN && s.bit Reg.TLY_TRCFG_TRIGEN && !s.bit Reg.TLY_TRSTAT_FROZEN
      && s.tly.post.isNone && decide (ev.code = s.rd Reg.TLY_TRTRIG_CODE)
    then { s with tly := { s.tly with post := some (s.rd Reg.TLY_TRPOST_N) } } else s
  if s.tly.queue.length < 64 then { s with tly := { s.tly with queue := s.tly.queue ++ [ev] } }
  else
    let s1 := (s.setSticky 13 Reg.TLY_STAT_QLOST).inc Reg.TLY_QCNT_LOST
    { s1 with tly := { s1.tly with lostNew := s1.tly.lostNew + 1 } }

/-- A Tally event in layout OBJ (R402): object, cause and value; `sub` is the tile or instance. [DEDUCED, log 129] -/
def State.tally (s : State) (code : Nat) (obj : Nat := 0) (cause : Nat := 0) (val : Nat := 0) (sub : Nat := 0) : State :=
  s.tallyEvent
    { ht := BitVec.ofNat 64 s.T, code := code, src := code / 256, sub := sub
      data := BitVec.ofNat 96 (obj % 65536 + cause % 65536 * 2 ^ 16 + val % 2 ^ 64 * 2 ^ 32) }

/-- A Tally event in layout LOC (R402): locator and detail word. -/
def State.tallyLoc (s : State) (code : Nat) (loc : Nat) (detail : Nat := 0) (sub : Nat := 0) : State :=
  s.tallyEvent
    { ht := BitVec.ofNat 64 s.T, code := code, src := code / 256, sub := sub
      data := BitVec.ofNat 96 (loc % 2 ^ 64 + detail % 2 ^ 32 * 2 ^ 64) }

/-- A Tally event OTHER (R403): object, register offset within the island's block divided by 4 and that register's value. [DEDUCED, log 122] -/
def State.tallyOther (s : State) (island obj : Nat) (off : Option Nat) (sub : Nat := 0) : State :=
  let cause := match off with | some o => o % 0x10000 / 4 | none => 0xFFFF
  let val := match off with | some o => (s.regWord o).toNat | none => 0
  s.tally (island * 256 + 0xFF) obj cause val sub

/-- A locator (R16). -/
def locator (level die island tile bank word bit : Nat) : Nat :=
  level * 2 ^ 60 + die * 2 ^ 57 + island * 2 ^ 51 + tile * 2 ^ 46 + bank * 2 ^ 40 + word * 2 ^ 8 + bit

/-! ### Reset events on registers (R13) -/

/-- Every field of BAR0 that is not kept through `e` takes its reset value; `keep` lets a block stay. -/
def regsAfter (e : Event) (keepB : Bool) (blocks : List Nat) (regs : Tab Word) : Tab Word :=
  regs.filter fun kv =>
    let off := kv.1 / 32
    if blocks.contains (off / 0x10000) then
      (fieldsAt (off / 4 * 4)).any fun fij =>
        decide (fij.1.key fij.2.1 fij.2.2 = kv.1) && fij.1.kept.contains e
          && (decide (e ≠ .b) || fij.1.kept.contains .p || keepB)
    else true

/-- The sixteen blocks of the block map. -/
def allBlocks : List Nat := upFrom 0 16

/-- Draw the number of the next free value (the model's own field). [DESIGN CHOICE, log 8] -/
def State.draw (s : State) : Nat × State := (s.fresh, { s with fresh := s.fresh + 1 })

/-- Fold a state operation over a list. -/
def State.over {α : Type} (s : State) (l : List α) (f : α → State → State) : State := l.foldl (fun a x => f x a) s

end Sys2Proof.Machine
end

