-- ==== Sys2Proof/Machine/Codeword.lean ====
section
/-! DEFINITION. The 80-bit codeword (R251), memories of codewords, and the error policy of a read (R253 to R259). -/
namespace Sys2Proof.Machine

/-! ### The code -/

/-- x^n modulo the generator of R251, as a 14-bit number. -/
def xPow : Nat → Nat
  | 0 => 1
  | n + 1 =>
    let v := xPow n * 2
    if v ≥ 2 ^ 14 then Nat.xor v 0x4377 else v

/-- Syndrome of an error in cell `b` of R251; cell 79, the overall parity, has none. -/
def cellSyn (b : Nat) : Nat :=
  if b ≤ 64 then xPow (b + 14) else if b ≤ 78 then xPow (b - 65) else 0

/-- The 14 check bits of 65 message bits (R251). -/
def checkBits (m : Nat) : Nat :=
  (upFrom 0 65).foldl (fun a i => if bitAt m i then Nat.xor a (xPow (i + 14)) else a) 0

/-- The cells in error of a mask. -/
def cellsOf (mask : BitVec 80) : List Nat := (upFrom 0 80).filter fun i => mask.getLsbD i

/-- What the decoder makes of a codeword: clean, corrected (the cells it flips), or uncorrectable. -/
inductive CwClass where
  | clean
  | ce1 (cell : Nat)
  | ce2 (c1 c2 : Nat)
  | ue
deriving DecidableEq, Repr

/-- Classify by syndrome and overall parity (R251, R253): the code is linear, so the error mask decides. -/
def classify (mask : BitVec 80) : CwClass :=
  if mask = 0#80 then .clean
  else
    let cs := cellsOf mask
    let syn := cs.foldl (fun a c => Nat.xor a (cellSyn c)) 0
    let odd := cs.length % 2 == 1
    let tab := (upFrom 0 79).map fun c => (c, cellSyn c)
    let one := tab.find? fun p => p.2 == syn
    if odd then
      if syn = 0 then .ce1 79
      else match one with
        | some p => .ce1 p.1
        | none => .ue
    else if syn = 0 then .clean
    else match one with
      | some p => .ce2 p.1 79
      | none =>
        match tab.findSome? fun p => (tab.find? fun q => decide (p.1 < q.1) && q.2 == Nat.xor syn p.2).map fun q => (p.1, q.1) with
        | some pq => .ce2 pq.1 pq.2
        | none => .ue

/-- A mask with one cell. -/
def cellMask (c : Nat) : BitVec 80 := BitVec.ofNat 80 (2 ^ c)

/-- The error that stays after the decoder's correction: nothing, unless it took the pattern for another. -/
def residue (mask : BitVec 80) (k : CwClass) : BitVec 80 :=
  match k with
  | .clean => mask
  | .ce1 c => mask ^^^ cellMask c
  | .ce2 a b => mask ^^^ cellMask a ^^^ cellMask b
  | .ue => mask

/-! ### Memories of codewords -/

/-- A codeword as it is delivered: 64 data bits and poison. -/
structure Cw where
  data : DWord
  poison : Bool
deriving DecidableEq, Repr

/-- A clean zero. -/
def Cw.zero : Cw := ⟨0#64, false⟩
/-- What a read of a retired page or beyond the Landing returns (R261, R463). -/
def Cw.lost : Cw := ⟨0#64, true⟩

/-- One byte. [DESIGN CHOICE, log 5] -/
def Mem.byte (m : Mem) (a : Nat) : Byte := tabAt 0#8 m.cells a

/-- Set one byte. -/
def Mem.setByte (m : Mem) (a : Nat) (v : Byte) : Mem := { m with cells := tabPut 0#8 m.cells a v }

/-- The eight bytes of codeword `w` as one number (R7). -/
def Mem.word (m : Mem) (w : Nat) : DWord :=
  BitVec.ofNat 64 (leNat ((upFrom (w * 8) 8).map m.byte))

/-- Set bytes from an address up. -/
def Mem.setBytes (m : Mem) : Nat → List Byte → Mem
  | _, [] => m
  | a, b :: l => (m.setByte a b).setBytes (a + 1) l

/-- Write a codeword with fresh check bits: data, poison, no error left. -/
def Mem.put (m : Mem) (w : Nat) (c : Cw) : Mem :=
  let m1 := m.setBytes (w * 8) (leBytes 8 c.data.toNat)
  { m1 with poison := setTo m1.poison w c.poison, flips := tabDel m1.flips w }

/-- The codeword as written last, without its errors. [DESIGN CHOICE, log 5] -/
def Mem.stored (m : Mem) (w : Nat) : Cw := ⟨m.word w, m.poison.contains w⟩

/-- Cells of codeword `w` change their value. -/
def Mem.upset (m : Mem) (w : Nat) (mask : BitVec 80) : Mem :=
  if mask = 0#80 then m
  else { m with flips := tabPut 0#80 m.flips w (tabAt 0#80 m.flips w ^^^ mask) }

/-- The canonical form of a memory. -/
def Mem.wf (m : Mem) : Bool :=
  tabWf 0#8 m.cells && tabRising 0 (m.poison.map fun w => (w, ())) && tabWf 0#80 m.flips

/-- What the decoder delivers for codeword `w`, and its class (R253): a UE gives the raw bits with poison. -/
def Mem.decode (m : Mem) (w : Nat) : Cw × CwClass :=
  let mask := tabAt 0#80 m.flips w
  if mask = 0#80 then (m.stored w, .clean)
  else
    let k := classify mask
    let st := m.stored w
    let r := residue mask k
    let d := st.data ^^^ r.setWidth 64
    match k with
    | .ue => (⟨d, true⟩, .ue)
    | _ => (⟨d, st.poison != r.getLsbD 64⟩, k)

/-! ### The memories of the block -/

/-- A memory of the block. -/
def State.mem (s : State) : MemId → Mem
  | .land => s.landing
  | .mram => s.mram
  | .keep => s.keep
  | .code e => tabAt {} s.code e
  | .data e => tabAt {} s.dmem e
  | .cle => s.cleMem
  | .axs => s.axsMem

/-- Replace a memory of the block. -/
def State.setMem (s : State) : MemId → Mem → State
  | .land, m => { s with landing := m }
  | .mram, m => { s with mram := m }
  | .keep, m => { s with keep := m }
  | .code e, m => { s with code := tabPut {} s.code e m }
  | .data e, m => { s with dmem := tabPut {} s.dmem e m }
  | .cle, m => { s with cleMem := m }
  | .axs, m => { s with axsMem := m }

/-- Codewords of one physical Landing bank: 1.5 MiB (R249). -/
def bankWords : Nat := 196608

/-- The locator of a codeword or, with `cell`, of one of its cells (R16, R250, R259). [DEDUCED, log 65; DESIGN CHOICE, log 134] -/
def cwLocator (id : MemId) (w : Nat) (cell : Option Nat) : Nat :=
  let lv := if cell.isSome then 1 else 2
  let b := cell.getD 0
  match id with
  | .land => locator lv 0 8 (w / bankWords / 2) (w / bankWords) (w % bankWords) b
  | .mram => locator lv 2 24 0 0 w b
  | .keep => locator lv 0 14 0 0 w b
  | .code e => locator lv 0 7 e (2 * e) w b
  | .data e => locator lv 0 7 e (2 * e + 1) w b
  | .cle => locator lv 0 3 0 0 w b
  | .axs => locator lv 0 4 0 0 w b

/-! ### Error log and repeat filter -/

/-- Show the head of the error log in its registers (R259). -/
def State.showElog (s : State) : State :=
  let s := s.wr Reg.LND_ESTAT_ELCNT s.lnd.elog.length
  match s.lnd.elog with
  | [] => ((((s.wr Reg.LND_ELLOCL_LOC 0).wr Reg.LND_ELLOCH_LOC 0).wr Reg.LND_ELINF_CLASS 0).wr Reg.LND_ELINF_PORT 0).wr Reg.LND_ELTIM_HT 0
  | e :: _ =>
    ((((s.wr Reg.LND_ELLOCL_LOC e.loc.toNat).wr Reg.LND_ELLOCH_LOC (e.loc.toNat / 2 ^ 32)).wr Reg.LND_ELINF_CLASS e.cls).wr
      Reg.LND_ELINF_PORT e.port).wr Reg.LND_ELTIM_HT e.ht.toNat

/-- Write an error log entry and its Tally event 0x0800 + class (R259, R402); a full log drops the entry. -/
def State.logErr (s : State) (cls port loc : Nat) : State :=
  let s := s.tallyLoc (0x0800 + cls) loc port
  if s.lnd.elog.length < 64 then
    { s with lnd := { s.lnd with elog := s.lnd.elog ++
        [ErrEntry.mk (BitVec.ofNat 64 loc) cls port (BitVec.ofNat 32 (s.htime / 2 ^ 10))] } }.showElog
  else s.setSticky 8 Reg.LND_ESTAT_ELOVF

/-- The filter entry of a codeword (R256). -/
def State.rptFind (s : State) (id : MemId) (w : Nat) : Option RptEntry :=
  s.lnd.filter.find? fun e => e.mem == id && e.cw == w

/-- Replace or add the filter entry of a codeword. -/
def State.rptSet (s : State) (e : RptEntry) : State :=
  { s with lnd := { s.lnd with
      filter := (s.lnd.filter.filter fun x => !(x.mem == e.mem && x.cw == e.cw)) ++ [e]
      filterOrder := s.lnd.filterOrder + 1 } }

/-- Of two entries without WATCH the one to evict: the lower count, the older among equals (R258). -/
def rptVictim : List RptEntry → Option RptEntry → Option RptEntry
  | [], b => b
  | e :: l, b =>
    if e.watch then rptVictim l b
    else match b with
      | none => rptVictim l (some e)
      | some x => rptVictim l (some (if e.count < x.count ∨ (e.count = x.count ∧ e.order < x.order) then e else x))

/-- Make room for a new address in the filter (R258): `none` if every entry has WATCH. -/
def State.rptRoom (s : State) : Option State :=
  if s.lnd.filter.length < 64 then some s
  else match rptVictim s.lnd.filter none with
    | some v => some { s with lnd := { s.lnd with filter := s.lnd.filter.filter fun x => !(x.mem == v.mem && x.cw == v.cw) } }
    | none => none

/-- Set WATCH on an address (R256). -/
def State.rptWatch (s : State) (id : MemId) (w : Nat) : State :=
  match s.rptFind id w with
  | some e => s.rptSet { e with watch := true, pass := s.lnd.pass }
  | none => match s.rptRoom with
    | some s1 => s1.rptSet ⟨id, w, 0, true, s1.lnd.pass, s1.lnd.filterOrder⟩
    | none => s.setSticky 8 Reg.LND_ESTAT_RPTOVF

/-- The repeat threshold (R256): 0 acts as 1. -/
def State.thresh (s : State) : Nat := max 1 (s.rd Reg.LND_RPT_THRESH)

/-- Count a word as hard (R257). -/
def State.countHard (s : State) (id : MemId) (w : Nat) : State :=
  let s := (s.inc Reg.LND_ECNTH_CNT).setSticky 8 Reg.LND_ESTAT_HARD
  match id with
  | .land => s.inc Reg.LND_PHSTAT_HARD (w / bankWords)
  | _ => s

/-- Where a write to physical codeword `w` of the Landing is performed as well: in the destination of a bank copy that
reads the bank of `w` (R263). -/
def State.mirrorOf (s : State) (w : Nat) : Option Nat :=
  match s.lnd.copy with
  | some (b, dst) => if w / bankWords = s.rd Reg.LND_BMAP_PHYS b then some (dst * bankWords + w % bankWords) else none
  | none => none

/-- Write a codeword with fresh check bits, in both banks while its bank is copied (R263). [DEDUCED, log 67] -/
def State.putCw (s : State) (id : MemId) (w : Nat) (c : Cw) : State :=
  match id, s.mirrorOf w with
  | .land, some d => s.setMem .land ((s.landing.put w c).put d c)
  | _, _ => s.setMem id ((s.mem id).put w c)

/-- Write the decoded codeword back with fresh check bits (R253). -/
def State.writeBack (s : State) (id : MemId) (w : Nat) (c : Cw) : State := s.putCw id w c

/-- The rewrite at the repeat threshold (R256): write back, WATCH, log entry REPEAT. -/
def State.repeatRewriteAt (s : State) (id : MemId) (w port : Nat) (c : Cw) (cell : Option Nat) : State :=
  ((s.writeBack id w c).rptWatch id w).logErr 3 port (cwLocator id w cell)

/-- A correction in an engine's code or data memory is counted for that engine as well (R244). -/
def State.countEngine (s : State) (id : MemId) : State :=
  match id with
  | .code e => s.inc Reg.TEX_ECNT_CODECORR e
  | .data e => s.inc Reg.TEX_ECNT_DATACORR e
  | _ => s

/-- What a CE1 does to the filter (R256, R257, R258); `scrub` is the scrubber's own read, which writes back and watches. -/
def State.onCe1 (s : State) (id : MemId) (w port cell : Nat) (c : Cw) (scrub : Bool) : State :=
  let s := (s.inc Reg.LND_ECNT1_CNT).countEngine id
  match s.rptFind id w with
  | some e =>
    if e.watch then
      ((s.writeBack id w c).countHard id w).logErr 4 port (cwLocator id w (some cell))
    else
      let s := s.rptSet { e with count := e.count + 1 }
      if e.count + 1 ≥ s.thresh then s.repeatRewriteAt id w port c (some cell)
      else if scrub then (s.writeBack id w c).rptWatch id w else s
  | none =>
    match s.rptRoom with
    | some s1 =>
      let s1 := s1.rptSet ⟨id, w, 1, false, s1.lnd.pass, s1.lnd.filterOrder⟩
      if 1 ≥ s1.thresh then s1.repeatRewriteAt id w port c (some cell)
      else if scrub then (s1.writeBack id w c).rptWatch id w else s1
    | none =>
      let s := s.setSticky 8 Reg.LND_ESTAT_RPTOVF
      if scrub then s.writeBack id w c else s

/-- What a CE2 does (R253, R256, R257). -/
def State.onCe2 (s : State) (id : MemId) (w port : Nat) (c : Cw) : State :=
  let s := ((((s.inc Reg.LND_ECNT2_CNT).countEngine id).setSticky 8 Reg.LND_ESTAT_CE2).writeBack id w c).logErr 1 port (cwLocator id w none)
  match s.rptFind id w with
  | some e => if e.watch then (s.countHard id w).logErr 4 port (cwLocator id w none) else s.rptWatch id w
  | none => s.rptWatch id w

/-- What a UE does (R253, R257). -/
def State.onUe (s : State) (id : MemId) (w port : Nat) (c : Cw) : State :=
  let s := (((s.inc Reg.LND_ECNTU_CNT).setSticky 8 Reg.LND_ESTAT_UE).writeBack id w c).logErr 2 port (cwLocator id w none)
  match s.rptFind id w with
  | some e => if e.watch then s.inc Reg.LND_ECNTH_CNT else s
  | none => s

/-- Read a codeword of a memory under the error policy: the codeword delivered and the state after (R253). -/
def State.readCw (s : State) (id : MemId) (w port : Nat) (scrub : Bool := false) : Cw × State :=
  match (s.mem id).decode w with
  | (c, .clean) => (c, s)
  | (c, .ce1 cell) => (c, s.onCe1 id w port cell c scrub)
  | (c, .ce2 _ _) => (c, s.onCe2 id w port c)
  | (c, .ue) => (c, s.onUe id w port c)

/-- Merge bytes into a data word: byte `i` of `mask` set takes byte `i` of `new`. -/
def mergeBytes (mask : BitVec 8) (old new : DWord) : DWord :=
  BitVec.ofNat 64 (leNat ((upFrom 0 8).map fun i =>
    if mask.getLsbD i then new.extractLsb' (8 * i) 8 else old.extractLsb' (8 * i) 8))

/-- Write bytes of a codeword of a memory (R254): all eight in full, fewer as a read-modify-write that keeps or sets
poison and reports PWPSN on a poisoned word. -/
def State.writeCw (s : State) (id : MemId) (w port : Nat) (mask : BitVec 8) (new : DWord) (poison : Bool) : State :=
  if mask = 0xFF#8 then s.putCw id w ⟨new, poison⟩
  else
    let (c, s1) := s.readCw id w port
    let s2 := s1.putCw id w ⟨mergeBytes mask c.data new, c.poison || poison⟩
    if c.poison then (s2.setSticky 8 Reg.LND_ESTAT_PWPSN).logErr 5 port (cwLocator id w none) else s2

end Sys2Proof.Machine
end

