-- ==== Sys2Proof/Machine/Landing.lean ====
section
/-! DEFINITION. The Landing: addresses and banks (R249), record accesses of the islands (R261, R463), arbitration
(R24 to R28), scrubbing, retirement, bank copy and test, and the MRAM window (R255 to R267). -/
namespace Sys2Proof.Machine

/-- Bytes of the Landing (R249). -/
def lndSize : Nat := 0x3000000

/-- Logical bank of a byte offset (R249). -/
def logBank (off : Nat) : Nat := off / 64 % 32

/-- Codeword index within the bank (R249). -/
def bankIndex (off : Nat) : Nat := off / 64 / 32 * 8 + off / 8 % 8

/-- The physical codeword of a byte offset (R249). -/
def State.lndCw (s : State) (off : Nat) : Nat := s.rd Reg.LND_BMAP_PHYS (logBank off) * bankWords + bankIndex off

/-! ### Retired pages (R260, R261) -/

/-- The retirement entries with VALID = 1. -/
def State.retValid (s : State) : List Nat :=
  s.regs.filterMap fun kv =>
    if kv.1 % 32 = 31 ∧ 0x80404 ≤ kv.1 / 32 ∧ kv.1 / 32 < 0x80C04 ∧ kv.1 / 32 % 8 = 4 ∧ kv.2 ≠ 0#32
    then some ((kv.1 / 32 - 0x80404) / 8) else none

/-- The retirement entry of the page an offset lies in. -/
def State.retEntry (s : State) (off : Nat) : Option Nat :=
  s.retValid.find? fun p => s.rd Reg.LND_RET_PAGE p == off / 4096

/-- The retirement entries that a request of `len` bytes touches. -/
def State.retTouched (s : State) (off len : Nat) : List Nat :=
  s.retValid.filter fun p =>
    let page := s.rd Reg.LND_RET_PAGE p
    decide (0 < len) && decide (off / 4096 ≤ page) && decide (page ≤ (off + (len - 1)) / 4096)

/-- A client request that touches retired pages counts once; the first access to each page is logged (R261). [DEDUCED, log 65] -/
def State.noteRetired (s : State) (port off len : Nat) : State :=
  let ps := s.retTouched off len
  if ps = [] then s
  else (s.inc Reg.LND_RETCNT_CNT).over ps fun p s =>
    if s.lnd.retSeen.contains p then s
    else
      let s1 := s.setSticky 8 Reg.LND_ESTAT_RETACC
      let s2 := s1.logErr 6 port (cwLocator .land (s1.lndCw (s1.rd Reg.LND_RET_PAGE p * 4096)) none)
      { s2 with lnd := { s2.lnd with retSeen := setIns s2.lnd.retSeen p } }

/-- An access beyond the Landing (R463): OOR and, at the first one, a Tally event OTHER. -/
def State.noteOor (s : State) : State :=
  if s.bit Reg.LND_ESTAT_OOR then s
  else (s.setSticky 8 Reg.LND_ESTAT_OOR).tallyOther 8 0 (some 0x80020)

/-! ### One codeword at a time -/

/-- Read one codeword at once (R253, R261, R463). -/
def State.cwReadNow (s : State) (port off : Nat) : Cw × State :=
  if off ≥ lndSize then (.lost, s.noteOor)
  else if (s.retEntry off).isSome then (.lost, s)
  else s.readCw .land (s.lndCw off) port

/-- While a pass runs, the 4 KiB block of a write is marked dirty (R391). -/
def State.noteDirty (s : State) (off : Nat) : State :=
  if s.lnd.dirtyOn then { s with lnd := { s.lnd with dirty := setIns s.lnd.dirty (off / 4096) } } else s

/-- A write to the FLAGS codeword of an image descriptor: LOADED may be set anew, so the init copies of that bank are due
again (R170, R247). [DEDUCED, log 52] -/
def State.noteLoaded (s : State) (off : Nat) : State :=
  let base := s.rd Reg.TEX_IBASE_BASE * 0x8000
  let t := (off - base) / 128
  let x := tabAt {} s.tex.tasks t
  let bank := off / 64 % 2
  if base ≤ off ∧ t < 256 ∧ off / 8 % 8 = 5 ∧ x.inited.contains bank then
    { s with tex := { s.tex with tasks := tabPut {} s.tex.tasks t { x with inited := x.inited.filter fun b => b ≠ bank } } }
  else s

/-- Write bytes of one codeword at once (R254, R261, R463). -/
def State.cwWriteNow (s : State) (port off : Nat) (mask : BitVec 8) (d : DWord) (poison : Bool) : State :=
  if off ≥ lndSize then s.noteOor
  else if (s.retEntry off).isSome then s
  else ((s.noteDirty off).noteLoaded off).writeCw .land (s.lndCw off) port mask d poison

/-- A read-modify-write of one codeword at once (R28): the new data are computed from the old; a poisoned word stays
poisoned and is reported, as for every partial write (R254). -/
def State.cwModifyNow (s : State) (port off : Nat) (f : DWord → DWord) : State :=
  if off ≥ lndSize then s.noteOor
  else if (s.retEntry off).isSome then s
  else
    let w := s.lndCw off
    let (c, s1) := s.readCw .land w port
    let s2 := ((s1.putCw .land w ⟨f c.data, c.poison⟩).noteDirty off).noteLoaded off
    if c.poison then (s2.setSticky 8 Reg.LND_ESTAT_PWPSN).logErr 5 port (cwLocator .land w none) else s2

/-! ### Requests in the order of issue (R27) -/

/-- Cells of the codeword read have flipped since it was last written (R252). -/
def State.lndUpset (s : State) (off : Nat) (upset : BitVec 80) : State :=
  if off < lndSize then { s with landing := s.landing.upset (s.lndCw off) upset } else s

/-- Answer a granted read (R27). -/
def State.lndReply (s : State) (r : LndReq) (c : Cw) : State :=
  { s with lnd := { s.lnd with replies := s.lnd.replies ++ [LndReply.mk r.port r.off c.data c.poison] } }

/-- Perform a granted request (R27, R28, R253, R254). -/
def State.lndPerform (s : State) (r : LndReq) : State :=
  let base := r.off / 8 * 8
  let s := s.noteRetired r.port base 8
  match r.op with
  | .read upset => let (c, s1) := (s.lndUpset base upset).cwReadNow r.port base; s1.lndReply r c
  | .write mask d p => s.cwWriteNow r.port base mask d p
  | .rmw a o => s.cwModifyNow r.port base fun d => (d &&& a) ||| o

/-- Grant the waiting requests that `p` selects, in their order. -/
def State.lndServe (s : State) (p : LndWait → Bool) : State :=
  if s.lnd.waiting.any p then
    ({ s with lnd := { s.lnd with waiting := s.lnd.waiting.filter fun w => !p w } }).over (s.lnd.waiting.filter p)
      fun w a => a.lndPerform w.req
  else s

/-- Whether a waiting request is one of engine `e`. -/
def LndWait.ofEngine (w : LndWait) (e : Nat) : Bool := 4 * w.req.port.val + w.req.client.val == e && decide (w.req.port.val < 2)

/-- Before a port's next access to a codeword, its requests to that codeword that still wait complete (R27). [DESIGN CHOICE, log 66] -/
def State.inOrder (s : State) (port off : Nat) : State :=
  s.lndServe fun w => w.req.port.val == port && w.req.off / 8 == off / 8

/-! ### Record accesses of the islands -/

/-- Read one codeword as an island, an engine or the host (R27, R253, R261, R463). -/
def State.lndCwRead (s : State) (port off : Nat) : Cw × State := (s.inOrder port off).cwReadNow port off

/-- Write bytes of one codeword as an island, an engine or the host (R27, R254, R261, R463). -/
def State.lndCwWrite (s : State) (port off : Nat) (mask : BitVec 8) (d : DWord) (poison : Bool) : State :=
  (s.inOrder port off).cwWriteNow port off mask d poison

/-- Read codewords in ascending order. -/
def State.readSeq (port : Nat) : Nat → Nat → State → List Cw × State
  | _, 0, s => ([], s)
  | off, n + 1, s =>
    let (c, s1) := s.lndCwRead port off
    let (l, s2) := State.readSeq port (off + 8) n s1
    (c :: l, s2)

/-- Read `n` codewords from the one `off` lies in: one record access (R261 counts it once). [DESIGN CHOICE, log 66] -/
def State.lndRead (s : State) (port off n : Nat) : List Cw × State :=
  State.readSeq port (off / 8 * 8) n (s.noteRetired port (off / 8 * 8) (8 * n))

/-- The bytes of codewords. -/
def cwBytes (l : List Cw) : List Byte := l.flatMap fun c => leBytes 8 c.data.toNat

/-- Whether any codeword is poisoned. -/
def anyPoison (l : List Cw) : Bool := l.any Cw.poison

/-- Read `n` bytes at any offset: the bytes and whether any codeword was poisoned. -/
def State.lndBytes (s : State) (port off n : Nat) : (List Byte × Bool) × State :=
  let k := (off % 8 + n + 7) / 8
  let (l, s1) := State.readSeq port (off / 8 * 8) k (s.noteRetired port off n)
  ((((cwBytes l).drop (off % 8)).take n, anyPoison l), s1)

/-- Read `n` bytes at any offset: the bytes and the places among them at which poisoned codewords begin. -/
def State.lndBytesPsn (s : State) (port off n : Nat) : (List Byte × List Nat) × State :=
  let k := (off % 8 + n + 7) / 8
  let (l, s1) := State.readSeq port (off / 8 * 8) k (s.noteRetired port off n)
  ((((cwBytes l).drop (off % 8)).take n,
    ((upFrom 0 k).zip l).filterMap fun ic => if ic.2.poison then some (8 * ic.1 - off % 8) else none), s1)

/-- Read a 32-bit word. -/
def State.lndWord (s : State) (port off : Nat) : (Nat × Bool) × State :=
  let ((b, p), s1) := s.lndBytes port off 4
  ((leNat b, p), s1)

/-- Write bytes from `off` up, codeword by codeword: whole codewords in full, ends as partial writes (R254). `fuel`
bounds the codewords. -/
def State.writeSeq (port : Nat) (poison : Bool) : Nat → Nat → List Byte → State → State
  | 0, _, _, s => s
  | fuel + 1, off, l, s =>
    if l = [] then s
    else
      let k := off % 8
      let n := Nat.min (8 - k) l.length
      let mask := BitVec.ofNat 8 ((2 ^ n - 1) * 2 ^ k)
      let d := BitVec.ofNat 64 (leNat (l.take n) * 2 ^ (8 * k))
      State.writeSeq port poison fuel (off + n) (l.drop n) (s.lndCwWrite port (off - k) mask d poison)

/-- Write bytes as one record access. [DESIGN CHOICE, log 66] -/
def State.lndWrite (s : State) (port off : Nat) (l : List Byte) (poison : Bool := false) : State :=
  if l = [] then s
  else State.writeSeq port poison (l.length / 8 + 2) off l (s.noteRetired port off l.length)

/-- Write whole codewords, each with its own poison, from an 8-byte aligned offset. -/
def State.lndWriteCws (s : State) (port off : Nat) (l : List Cw) : State :=
  if l = [] then s
  else ((upFrom 0 l.length).zip l).foldl
    (fun a ic => a.lndCwWrite port (off + 8 * ic.1) 0xFF#8 ic.2.data ic.2.poison) (s.noteRetired port off (8 * l.length))

/-- A read-modify-write of a 32-bit word (R28, R62): `word := (word AND NOT mask) OR (value AND mask)`; merging into a
poisoned word leaves it poisoned (R254). -/
def State.lndMerge32 (s : State) (port off : Nat) (mask value : Nat) : State :=
  let base := off / 8 * 8
  ((s.noteRetired port off 4).inOrder port base).cwModifyNow port base fun d =>
    let sh := off % 8 * 8
    let old := bitsOf d.toNat sh 32
    let new := Nat.lor (Nat.land old (Nat.xor (mask % 2 ^ 32) 0xFFFFFFFF)) (Nat.land value (mask % 2 ^ 32))
    BitVec.ofNat 64 (d.toNat - old * 2 ^ sh + new * 2 ^ sh)

/-- Whether `[off, off + len)` lies within the Landing. -/
def inLanding (off len : Nat) : Bool := decide (off + len ≤ lndSize)

/-! ### Arbitration (R24 to R28) -/

/-- Outstanding requests a client may hold (R24): 16 per engine on ports 0 and 1, a port's total elsewhere. -/
def portShare (port : Nat) : Nat :=
  match port with
  | 0 => 16 | 1 => 16 | 2 => 32 | 3 => 24 | 4 => 16 | 5 => 24 | 6 => 16 | _ => 16

/-- Class of a port (R24): 0 is A, 1 is B, 2 is C. -/
def portClass (port : Nat) : Nat :=
  match port with
  | 0 => 1 | 1 => 1 | 6 => 2 | 7 => 2 | _ => 0

/-- Class of a waiting request: A once raised (R26). -/
def LndWait.cls (w : LndWait) : Nat := if w.raised then 0 else portClass w.req.port

/-- Requests of one share (R24). -/
def sameShare (a b : LndReq) : Bool := a.port == b.port && (decide (a.port.val ≥ 2) || a.client == b.client)

/-- The loads an engine has outstanding take part of its share (R24). -/
def State.loadsOf (s : State) (r : LndReq) : Nat := if r.port.val < 2 then (tabAt {} s.tex.engines (4 * r.port.val + r.client.val)).loads.length else 0

/-- Outstanding requests of the client of `r` (R24). [DESIGN CHOICE, log 66] -/
def State.shareUsed (s : State) (r : LndReq) : Nat := (s.lnd.waiting.filter fun w => sameShare w.req r).length + s.loadsOf r

/-- Admit a request while its client has share left; it is held otherwise (R25). [DESIGN CHOICE, log 66] -/
def State.lndAdmit (s : State) (r : LndReq) : State :=
  if s.shareUsed r < portShare r.port ∧ !(s.lnd.blocked.any fun b => sameShare b r) then
    { s with lnd := { s.lnd with waiting := s.lnd.waiting ++ [⟨r, 0, false, s.lnd.seq⟩], seq := s.lnd.seq + 1 } }
  else { s with lnd := { s.lnd with blocked := s.lnd.blocked ++ [r] } }

/-- The physical bank a request needs; `none` beyond the Landing. -/
def State.reqBank (s : State) (r : LndReq) : Option Nat :=
  if r.off ≥ lndSize then none else some (s.rd Reg.LND_BMAP_PHYS (logBank r.off))

/-- Whether a request precedes all others of its port to its codeword (R27). -/
def portFirst (l : List LndWait) (w : LndWait) : Bool :=
  !(l.any fun x => x.req.port == w.req.port && x.req.off / 8 == w.req.off / 8 && decide (x.seq < w.seq))

/-- Turns of a port behind the one granted last (round robin). [DESIGN CHOICE, log 66] -/
def portTurn (last port : Nat) : Nat := (port + 8 - last - 1) % 8

/-- Whether request `a` goes before `b` at a bank: class, then round robin among the ports of the class (`last` gives the
port of a class granted last), then order (R26, R27). -/
def grantBefore (last : Nat → Nat) (a b : LndWait) : Bool :=
  let ka := a.cls * 8 + portTurn (last a.cls) a.req.port
  let kb := b.cls * 8 + portTurn (last b.cls) b.req.port
  decide (ka < kb) || (decide (ka = kb) && decide (a.seq < b.seq))

/-- The request a bank grants. [DESIGN CHOICE, log 66] -/
def pickGrant (last : Nat → Nat) : List LndWait → Option LndWait
  | [] => none
  | w :: l => match pickGrant last l with
    | none => some w
    | some x => some (if grantBefore last x w then x else w)

/-- Grant and perform the request of one bank, if one waits. -/
def State.grantBank (s : State) (bank : Nat) : State :=
  let cand := s.lnd.waiting.filter fun w => (s.reqBank w.req == some bank) && portFirst s.lnd.waiting w
  match pickGrant (fun c => tabAt 7 s.lnd.lastPort (bank * 3 + c)) cand with
  | none => s
  | some w =>
    ({ s with lnd := { s.lnd with
        waiting := s.lnd.waiting.filter fun x => x.seq ≠ w.seq
        lastPort := tabPut 7 s.lnd.lastPort (bank * 3 + w.cls) w.req.port } }).lndPerform w.req

/-- The physical banks the waiting requests need. -/
def State.banksWanted (s : State) : List Nat := s.lnd.waiting.foldl (fun a w => match s.reqBank w.req with | some b => setIns a b | none => a) []

/-- One CLK_FAB cycle with the requests presented in it: held requests come first as shares allow (R25), each bank
grants one (R26), the rest wait. -/
def execLandingAccess (reqs : List LndReq) (s : State) : Host.Outcome State Fault Refusal :=
  let held := s.lnd.blocked
  let s1 := ({ s with lnd := { s.lnd with blocked := [] } }).over (held ++ reqs) fun r a => a.lndAdmit r
  let out := s1.lnd.waiting.filter fun w => decide (w.req.off ≥ lndSize)
  let s2 := ({ s1 with lnd := { s1.lnd with waiting := s1.lnd.waiting.filter fun w => decide (w.req.off < lndSize) } }).over
    out fun w a => a.lndPerform w.req
  let s3 := s2.over s2.banksWanted fun b a => a.grantBank b
  .next { s3 with lnd := { s3.lnd with waiting := s3.lnd.waiting.map fun w => { w with waited := w.waited + 1 } } }

/-- A request that has waited 64 cycles becomes class A (R26). -/
def execRequestPromotion (seq : Nat) (s : State) : Host.Outcome State Fault Refusal :=
  .next { s with lnd := { s.lnd with waiting := s.lnd.waiting.map fun w =>
    if w.seq = seq ∧ w.waited ≥ 64 then { w with raised := true } else w } }

/-- State codes of LND_PHSTATp.STATE. -/
def bankInService : Nat := 0
def bankFree : Nat := 1
def bankOut : Nat := 2
def bankCopying : Nat := 3

/-! ### Repeat filter, scrubber, error log -/

/-- The rewrite of a watched-for codeword whose count stands at the threshold (R256). -/
def execRepeatRewrite (bank w : Nat) (s : State) : Host.Outcome State Fault Refusal :=
  let a := bank * bankWords + w
  match s.rptFind .land a with
  | some e =>
    if !e.watch && decide (e.count ≥ s.thresh) then
      let d := s.landing.decode a
      .next (s.repeatRewriteAt .land a 7 d.1 (match d.2 with | .ce1 c => some c | _ => none))
    else .next s
  | none => .next s

/-- Codewords of one engine's code memory and data memory (chapter 09). -/
def codeWords : Nat := 32768
def dataWords : Nat := 16384
/-- Codewords of the MRAM (R266). -/
def mramWords : Nat := 2097152
/-- Codewords of the control-law engine's state memory (32 bytes per loop, R75) and of the axis generators' private
memory (128 bytes per axis). -/
def cleWords : Nat := 16384
def axsWords : Nat := 8192
/-- Codewords of a pass: 34 banks, the local memories of R252, the MRAM (R255). -/
def scrubTotal : Nat := 34 * bankWords + 8 * (codeWords + dataWords) + cleWords + axsWords + mramWords

/-- The codeword the scrubber reads at a position (R255). -/
def scrubTarget (p : Nat) : MemId × Nat :=
  if p < 34 * bankWords then (.land, p)
  else
    let q := p - 34 * bankWords
    let e := q / (codeWords + dataWords)
    if e < 8 then
      let r := q % (codeWords + dataWords)
      if r < codeWords then (.code e, r) else (.data e, r - codeWords)
    else
      let u := q - 8 * (codeWords + dataWords)
      if u < cleWords then (.cle, u)
      else if u < cleWords + axsWords then (.axs, u - cleWords)
      else (.mram, u - cleWords - axsWords)

/-- The edges a pass lasts (R255): PASSMIN minutes, 0 acting as 240, within 10 to 1,440. -/
def State.scrubEdges (s : State) : Nat :=
  let m := s.rd Reg.LND_SCRUB_PASSMIN
  (if m = 0 then 240 else max 10 (min 1440 m)) * 60 * 1000 * edgesPerMs

/-- The edge at which the read at position `p` is due after the one before, reads spread evenly over the pass. [DEDUCED, log 132] -/
def State.scrubDue (s : State) (p : Nat) : Nat :=
  s.lnd.scrubAt + ((p + 1) * s.scrubEdges / scrubTotal - p * s.scrubEdges / scrubTotal)

/-- Whether the scrubber leaves a codeword out: the destination of a bank copy is not read until the switch (R263). -/
def State.scrubSkips (s : State) (id : MemId) (w : Nat) : Bool :=
  id == .land && s.rd Reg.LND_PHSTAT_STATE (w / bankWords) == bankCopying

/-- The scrubber reads its next codeword when it is due and repairs what it finds (R255). `upset`: cells that changed before. [DEDUCED, log 132] -/
def execScrubRead (upset : BitVec 80) (s : State) : Host.Outcome State Fault Refusal :=
  let (id, w) := scrubTarget s.lnd.scrubPos
  if !s.bit Reg.LND_CTL_SCRUBEN || decide (scrubTotal ≤ s.lnd.scrubPos) then .next s
  else
    let s0 := s.advanceEdge (s.scrubDue s.lnd.scrubPos)
    let s1 := s0.setMem id ((s0.mem id).upset w upset)
    let s2 := if s1.scrubSkips id w then s1 else (s1.readCw id w 7 true).2
    let p := s2.lnd.scrubPos + 1
    .next ({ s2 with lnd := { s2.lnd with scrubPos := p, scrubAt := s2.time.edge } }.wr Reg.LND_SCSTAT_PROG (p * 1000 / scrubTotal))

/-- The end of a pass (R255, R256): entries without WATCH go, and those watched since an earlier pass. -/
def execScrubPassEnd (s : State) : Host.Outcome State Fault Refusal :=
  if s.lnd.scrubPos < scrubTotal then .next s
  else
    let s1 := { s with lnd := { s.lnd with
      scrubPos := 0
      pass := s.lnd.pass + 1
      filter := s.lnd.filter.filter fun e => e.watch && decide (s.lnd.pass ≤ e.pass) } }
    .next ((s1.wr Reg.LND_SCSTAT_PASSES (s1.rd Reg.LND_SCSTAT_PASSES + 1)).wr Reg.LND_SCSTAT_PROG 0)

/-- Remove the head of the error log (R259). -/
def State.elogPop (s : State) : State := { s with lnd := { s.lnd with elog := s.lnd.elog.drop 1 } }.showElog
/-- ERROR_LOG_POP. -/
def execErrorLogPop (s : State) : Host.Outcome State Fault Refusal := .next s.elogPop

/-- Clear the counters (LND_CTL.CLRCNT). -/
def State.lndClrCnt (s : State) : State :=
  ((((s.wr Reg.LND_ECNT1_CNT 0).wr Reg.LND_ECNT2_CNT 0).wr Reg.LND_ECNTU_CNT 0).wr Reg.LND_ECNTH_CNT 0).wr Reg.LND_RETCNT_CNT 0

/-- LANDING_CLRCNT. -/
def execLandingClrcnt (s : State) : Host.Outcome State Fault Refusal := .next s.lndClrCnt

/-! ### Retirement (R260 to R262) -/

/-- Set VALID of a retirement entry; PERSIST copies it to the MRAM list. [DESIGN CHOICE, log 68; DEDUCED, log 69] -/
def State.pageRetire (s : State) (p : Nat) : State :=
  if s.bit Reg.LND_RCTL_VALID p then s
  else
    let s1 := s.wrB Reg.LND_RCTL_VALID true p
    { s1 with lnd := { s1.lnd with
      retSeen := setDel s1.lnd.retSeen p
      retPages := if s1.bit Reg.LND_RCTL_PERSIST p then tabPut 0 s1.lnd.retPages p (s1.rd Reg.LND_RET_PAGE p + 1) else s1.lnd.retPages } }

/-- Clear VALID and take the entry off the MRAM list. -/
def State.pageRestore (s : State) (p : Nat) : State :=
  let s1 := s.wrB Reg.LND_RCTL_VALID false p
  { s1 with lnd := { s1.lnd with retPages := tabDel s1.lnd.retPages p } }

/-- PAGE_RETIRE. -/
def execPageRetire (p : Fin 256) (s : State) : Host.Outcome State Fault Refusal := .next (s.pageRetire p)
/-- PAGE_RESTORE. -/
def execPageRestore (p : Fin 256) (s : State) : Host.Outcome State Fault Refusal := .next (s.pageRestore p)

/-! ### Bank copy and bank test (R263 to R265) -/


/-- Refuse or end a bank copy with a cause. -/
def State.copyFail (s : State) (cause : Nat) : State :=
  ((s.wrB Reg.LND_BCPY_START false).wr Reg.LND_BCSTAT_CAUSE cause).setSticky 8 Reg.LND_BCSTAT_FAIL

/-- Start a bank copy or refuse it (R263); ignored while a copy runs (R264). -/
def State.copyStart (s : State) : State :=
  if s.lnd.copy.isSome then s
  else
    let b := s.rd Reg.LND_BCPY_LOGB
    let dst := s.rd Reg.LND_BCPY_DST
    if dst = s.rd Reg.LND_BMAP_PHYS b then s.copyFail 2
    else if dst > 33 ∨ s.rd Reg.LND_PHSTAT_STATE dst ≠ bankFree then s.copyFail 1
    else
      let s1 := ((s.wrB Reg.LND_BCPY_START true).wr Reg.LND_PHSTAT_STATE bankCopying dst).wr Reg.LND_BCSTAT_LINES 0
      { s1 with lnd := { s1.lnd with copy := some (b, dst) } }

/-- The pairs of a table within `[lo, lo + n)`, moved to `dst`. -/
def tabMove {α : Type} (t : Tab α) (lo n dst : Nat) : Tab α :=
  t.filterMap fun kv => if lo ≤ kv.1 ∧ kv.1 < lo + n then some (kv.1 - lo + dst, kv.2) else none

/-- The table with `[dst, dst + n)` replaced by the pairs `l`. -/
def tabReplace {α : Type} (t : Tab α) (dst n : Nat) (l : Tab α) : Tab α :=
  (t.filter fun kv => decide (kv.1 < dst)) ++ l ++ (t.filter fun kv => decide (dst + n ≤ kv.1))

/-- The codewords of the first `n` lines of physical bank `src` that hold errors. -/
def Mem.flipped (m : Mem) (src n : Nat) : List Nat :=
  m.flips.filterMap fun kv => if decide (src * bankWords ≤ kv.1) && decide (kv.1 < src * bankWords + 8 * n) then some kv.1 else none

/-- The memory with the first `n` lines of physical bank `dst` holding what the decoder delivers of `src`, with fresh check
bits. [DEDUCED, log 67] -/
def Mem.copyLines (m : Mem) (src dst n : Nat) : Mem :=
  let m1 : Mem :=
    { cells := tabReplace m.cells (dst * bankWords * 8) (64 * n)
        (tabMove m.cells (src * bankWords * 8) (64 * n) (dst * bankWords * 8))
      poison := (m.poison.foldl (fun a w => if src * bankWords ≤ w ∧ w < src * bankWords + 8 * n
          then setIns a (w - src * bankWords + dst * bankWords) else a)
        (m.poison.filter fun w => !(decide (dst * bankWords ≤ w) && decide (w < dst * bankWords + 8 * n))))
      flips := tabReplace m.flips (dst * bankWords) (8 * n) [] }
  (m.flipped src n).foldl (fun a w => a.put (w - src * bankWords + dst * bankWords) (m.decode w).1) m1

/-- The memory with a bank cleared. [DESIGN CHOICE, log 64] -/
def Mem.clearBank (m : Mem) (b : Nat) : Mem :=
  { cells := tabReplace m.cells (b * bankWords * 8) (bankWords * 8) []
    poison := m.poison.filter fun w => !(decide (b * bankWords ≤ w) && decide (w < (b + 1) * bankWords))
    flips := tabReplace m.flips (b * bankWords) bankWords [] }

/-- The lines of a bank (R263). -/
def bankLines : Nat := 24576

/-- Copy the first `n` lines (R263): the codewords in error are read under the error policy, a UE is logged COPYUE as well,
and the destination takes what the reads deliver. [DEDUCED, log 67; DESIGN CHOICE, log 131] -/
def State.copyTo (s : State) (src dst n : Nat) : State :=
  let s1 := s.over (s.landing.flipped src n) fun w s =>
    match s.landing.decode w with
    | (_, .ue) => (s.readCw .land w 7).2.logErr 7 7 (cwLocator .land w none)
    | _ => (s.readCw .land w 7).2
  { s1 with landing := s1.landing.copyLines src dst n }.wr Reg.LND_BCSTAT_LINES n

/-- The end of a bank copy (R263): the destination holds the data, the map switches, the source goes OUT. [DESIGN CHOICE, log 4; DEDUCED, log 67] -/
def execBankCopyDone (s : State) : Host.Outcome State Fault Refusal :=
  match s.lnd.copy with
  | none => .next s
  | some (b, dst) =>
    let src := s.rd Reg.LND_BMAP_PHYS b
    let s2 := s.copyTo src dst bankLines
    let s3 := ((s2.wr Reg.LND_BMAP_PHYS dst b).wr Reg.LND_PHSTAT_STATE bankInService dst).wr Reg.LND_PHSTAT_STATE bankOut src
    let s4 := { s3 with lnd := { s3.lnd with
      copy := none
      retMap := tabPut 0 s3.lnd.retMap b (dst + 1)
      retState := tabPut 0 (tabPut 0 s3.lnd.retState dst (bankInService + 1)) src (bankOut + 1) } }
    .next (((s4.wrB Reg.LND_BCPY_START false).setSticky 8 Reg.LND_BCSTAT_DONE).tally 0x0809 b 0 dst)

/-- End a running copy without the switch (R264). How many lines it had copied by then the spec leaves to the load on the
Landing: a free number. [DESIGN CHOICE, log 131] -/
def State.copyAbort (s : State) : State :=
  match s.lnd.copy with
  | none => s
  | some (b, dst) =>
    let (i, s1) := s.draw
    let s2 := s1.copyTo (s.rd Reg.LND_BMAP_PHYS b) dst ((Config.freeWord i).toNat % (bankLines + 1))
    (({ s2 with lnd := { s2.lnd with copy := none } }).wr Reg.LND_PHSTAT_STATE bankFree dst).copyFail 3

/-- BANK_COPY_START. -/
def execBankCopyStart (s : State) : Host.Outcome State Fault Refusal := .next s.copyStart
/-- BANK_COPY_ABORT. -/
def execBankCopyAbort (s : State) : Host.Outcome State Fault Refusal := .next s.copyAbort

/-- Start a bank test or refuse it (R265). -/
def State.testStart (s : State) : State :=
  let p := s.rd Reg.LND_BTEST_PHYS
  let st := s.rd Reg.LND_PHSTAT_STATE p
  if s.lnd.test.isSome then s
  else if p > 33 ∨ (st ≠ bankFree ∧ st ≠ bankOut) then
    ((s.wrB Reg.LND_BTEST_START false).wr Reg.LND_BTSTAT_CAUSE 1).setSticky 8 Reg.LND_BTSTAT_FAIL
  else { (s.wrB Reg.LND_BTEST_START true) with lnd := { s.lnd with test := some p } }

/-- BANK_TEST_START. -/
def execBankTestStart (s : State) : Host.Outcome State Fault Refusal := .next s.testStart

/-- A bank takes a state, which the RETIRE region keeps (R262). [DESIGN CHOICE, log 68] -/
def State.bankTo (s : State) (p st : Nat) : State :=
  { (s.wr Reg.LND_PHSTAT_STATE st p) with lnd := { s.lnd with retState := tabPut 0 s.lnd.retState p (st + 1) } }

/-- The end of a bank test (R265), with the failing words and cells the array showed. [DESIGN CHOICE, log 64] -/
def execBankTestDone (failing : List (Nat × BitVec 80)) (s : State) : Host.Outcome State Fault Refusal :=
  match s.lnd.test with
  | none => .next s
  | some p =>
    let bad := failing.filter fun f => decide (f.2 ≠ 0#80)
    let s1 := { s with landing := s.landing.clearBank p, lnd := { s.lnd with test := none } }
    let s2 := s1.over (bad.take 16) fun f s =>
      s.logErr 8 7 (cwLocator .land (p * bankWords + f.1 % bankWords) (match cellsOf f.2 with | [c] => some c | _ => none))
    let s3 := (s2.wrB Reg.LND_BTEST_START false).setSticky 8 Reg.LND_BTSTAT_DONE
    if bad = [] then
      .next ((((s3.bankTo p bankFree).wr Reg.LND_PHSTAT_HARD 0 p).wr Reg.LND_BTSTAT_CAUSE 0))
    else
      .next (((s3.bankTo p bankOut).wr Reg.LND_BTSTAT_CAUSE 2).setSticky 8 Reg.LND_BTSTAT_FAIL)

/-! ### The MRAM window (R266, R267) -/

/-- Whether the host may write an MRAM offset through the window (R266). -/
def State.mramOpen (s : State) (off : Nat) : Bool :=
  (decide (0x200000 ≤ off) && decide (off < 0x400000) && s.bit Reg.LND_MWP_FWB) ||
  (decide (0x400000 ≤ off) && decide (off < 0x480000) && s.bit Reg.LND_MWP_CFG)

/-- The offset in the window register. -/
def State.mramOfs (s : State) : Nat := s.rd Reg.LND_MOFS_OFS * 8

/-- Read one codeword into the window (R267). -/
def State.mramRead (s : State) : State :=
  let (c, s1) := s.readCw .mram (s.mramOfs / 8) 7
  (((s1.wrB Reg.LND_MCTL_RD true).wr Reg.LND_MDATL_D c.data.toNat).wr Reg.LND_MDATH_D (c.data.toNat / 2 ^ 32)).wrB
    Reg.LND_MCTL_PSN c.poison

/-- Write the window data to an open region, or set ERR (R267). -/
def State.mramWrite (s : State) : State :=
  if s.mramOpen s.mramOfs then
    (s.writeCw .mram (s.mramOfs / 8) 7 0xFF#8
      (BitVec.ofNat 64 (s.rd Reg.LND_MDATL_D + s.rd Reg.LND_MDATH_D * 2 ^ 32)) false).wrB Reg.LND_MCTL_WR true
  else s.wrB Reg.LND_MCTL_ERR true

/-- MRAM_READ. -/
def execMramRead (s : State) : Host.Outcome State Fault Refusal := .next s.mramRead
/-- MRAM_WRITE. -/
def execMramWrite (s : State) : Host.Outcome State Fault Refusal := .next s.mramWrite
/-- MRAM_WINDOW_DONE: RD and WR read 0 again. -/
def execMramWindowDone (s : State) : Host.Outcome State Fault Refusal :=
  .next ((s.wrB Reg.LND_MCTL_RD false).wrB Reg.LND_MCTL_WR false)

end Sys2Proof.Machine
end

