-- ==== Sys2Proof/Machine/Link.lean ====
section
/-! DEFINITION. What the module puts on the PCI Express link: MSI-X vectors, writeback words and the entries of the rings
from module to host (R275, R276, R286). -/
namespace Sys2Proof.Machine

/-- Landing port of the HIF (R24). -/
def hifPort : Nat := 6

/-- Put something on the link. [DESIGN CHOICE, log 101] -/
def State.toHost (s : State) (x : HostOut) : State := { s with hostOut := s.hostOut ++ [x] }

/-! ### Interrupts and writebacks (R273, R276, R286) -/

/-- Send an MSI-X vector; a masked one sets its pending bit. [PRESUMED, log 105] -/
def State.sendMsix (s : State) (v : Nat) : State :=
  if !s.hif.msixOn then s
  else
    let w := fun k => s.rd Reg.MSIX_WORD v k
    if s.hif.msixMask || bitAt (w 3) 0 then s.setBitOf Reg.MSIX_PBA (v % 32) (v / 32)
    else s.toHost (.msi (w 0 + w 1 * 2 ^ 32) (w 2))

/-- The writeback word of a ring (R276). -/
def State.writeback (s : State) (r : Nat) : State :=
  s.toHost (.write (s.rd Reg.HIF_RWL_WB r * 8 + s.rd Reg.HIF_RWH_WB r * 2 ^ 32)
    (leBytes 4 (s.rd Reg.HIF_RCNT_CNT r) ++ leBytes 3 0 ++ leBytes 1 ((s.regWord (0x11018 + 64 * r)).toNat / 2 ^ 24)))

/-- Send a ring's vector after a writeback (R276, R286). -/
def State.sendVector (s : State) (r : Nat) : State :=
  let s1 := { s with hif := { s.hif with unsig := tabDel s.hif.unsig r, unsigAt := tabDel s.hif.unsigAt r } }
  if s1.bit Reg.HIF_RCFG_IEN r then (s1.writeback r).sendMsix (s1.rd Reg.HIF_RCFG_VEC r) else s1

/-- The module's count of a ring has moved on by `n` (R276, R286). -/
def State.ringAdvance (s : State) (r n : Nat) : State :=
  let s1 := (s.wr Reg.HIF_RCNT_CNT (s.rd Reg.HIF_RCNT_CNT r + n) r).writeback r
  let u := tabAt 0 s1.hif.unsig r
  let at_ := if u = 0 then s1.time.edge else tabAt 0 s1.hif.unsigAt r
  let s2 := { s1 with hif := { s1.hif with unsig := tabPut 0 s1.hif.unsig r (u + n), unsigAt := tabPut 0 s1.hif.unsigAt r at_ } }
  if max 1 (s2.rd Reg.HIF_RIMOD_ICNT r) ≤ u + n ∧ s2.bit Reg.HIF_RCFG_IEN r then s2.sendVector r else s2

/-! ### Ring slots (R275) -/

/-- Rings by number. -/
def ringCmd : Nat := 0
def ringCpl : Nat := 1
def isSp (r : Nat) : Bool := decide (2 ≤ r) && decide (r ≤ 33)
def isRs (r : Nat) : Bool := decide (34 ≤ r)
/-- Whether the host is the producer of the ring. -/
def hostProduces (r : Nat) : Bool := decide (r = 0) || isSp r

/-- The host's count of a ring. -/
def State.hostCount (s : State) (r : Nat) : Nat := tabAt 0 s.hif.host r
/-- Slots of a ring. -/
def State.ringSlots (s : State) (r : Nat) : Nat := 2 ^ s.rd Reg.HIF_RCFG_LOG2 r
/-- Whether the module has a free slot in a module-to-host ring. -/
def State.ringRoom (s : State) (r : Nat) : Bool :=
  s.bit Reg.HIF_RSTAT_RUN r && decide ((s.rd Reg.HIF_RCNT_CNT r + 2 ^ 32 - s.hostCount r) % 2 ^ 32 < s.ringSlots r)

/-- Write one entry of 32 bytes into a module-to-host ring (R275, R276). -/
def State.putEntry (s : State) (r : Nat) (b : List Byte) : State :=
  let at_ := s.rd Reg.HIF_RBL_BASE r * 4096 + s.rd Reg.HIF_RBH_BASE r * 2 ^ 32 + 32 * (s.rd Reg.HIF_RCNT_CNT r % s.ringSlots r)
  (s.toHost (.write at_ b)).ringAdvance r 1

/-- FULLWAIT of a record stream ring: whether an entry waits for a free slot of the ring (R289). -/
def State.rsWait (s : State) (k : Nat) : State :=
  s.wrB Reg.HIF_RSTAT_FULLWAIT
    (s.bit Reg.HIF_RSTAT_RUN (34 + k) && !s.ringRoom (34 + k) && s.tly.staged.any fun x => x.1 == k) (34 + k)

end Sys2Proof.Machine
end

