-- ==== Sys2Proof/Machine/Tally.lean ====
section
/-! DEFINITION. The Tally (R394 to R403), and entries of the record stream and the trace ring (R404 to R410). -/
namespace Sys2Proof.Machine

/-! ### Tally records -/

/-- MRAM offset of a Tally record (R266, R394). -/
def tallyOff (n : Nat) : Nat := 0x500000 + 32 * n

/-- Bytes 0 to 23 of a record (R394). -/
def tallyHead (e : TlyEvent) : List Byte :=
  leBytes 8 e.ht.toNat ++ leBytes 2 e.code ++ leBytes 1 e.src ++ leBytes 1 e.sub ++ leBytes 12 e.data.toNat

/-- A whole record with LAST, REPEAT and CRC (R394, R395). -/
def tallyRecord (head : List Byte) (last rep : Nat) : List Byte :=
  let b := head ++ leBytes 4 (Nat.min last 0xFFFFFFFF) ++ leBytes 2 (Nat.min rep 0xFFFF)
  b ++ leBytes 2 (crc16 b)

/-- Write bytes to the MRAM by whole codewords. -/
def State.mramPut (s : State) (off : Nat) (l : List Byte) : State :=
  ((upFrom 0 (l.length / 8)).foldl
    (fun a i => a.writeCw .mram (off / 8 + i) 7 0xFF#8 (BitVec.ofNat 64 (leNat ((l.drop (8 * i)).take 8))) false) s)

/-- Read bytes of the MRAM: the bytes and whether any codeword was poisoned. -/
def State.mramGet (s : State) (off n : Nat) : (List Byte × Bool) × State :=
  let r := (upFrom 0 (n / 8)).foldl
    (fun (acc : (List Byte × Bool) × State) i =>
      let (c, s1) := acc.2.readCw .mram (off / 8 + i) 7
      ((acc.1.1 ++ leBytes 8 c.data.toNat, acc.1.2 || c.poison), s1)) (([], false), s)
  r

/-- Bytes of the MRAM as they stand, for the module's own comparison of the last record. -/
def State.mramPeek (s : State) (off n : Nat) : List Byte := (upFrom off n).map s.mram.byte

/-- Write bytes 24 to 31 of a record (R396, R397). -/
def State.tallyTail (s : State) (n last rep : Nat) : State :=
  let r := tallyRecord (s.mramPeek (tallyOff n) 24) last rep
  s.mramPut (tallyOff n + 24) (r.drop 24)

/-- The record that repeats are counted in: the last one (R397, R398). -/
def State.tallyLast (s : State) : Nat := s.rd Reg.TLY_STAT_NREC - 1

/-- Put a pending repeat count into its record (R397). -/
def State.tallyFlush (s : State) : State :=
  if s.tly.dirty then
    let s1 := s.tallyTail s.tallyLast s.tly.last s.tly.repeats
    { s1 with tly := { s1.tly with dirty := false, lastWrite := s1.time.edge } }
  else s

/-- Write a new record after the last one; it starts with no repeats. -/
def State.tallyAppend (s : State) (head : List Byte) : State :=
  let n := s.rd Reg.TLY_STAT_NREC
  let r := tallyRecord head 0 0
  let s1 := ((s.mramPut (tallyOff n) (r.take 24)).mramPut (tallyOff n + 24) (r.drop 24)).wr Reg.TLY_STAT_NREC (n + 1)
  { s1 with tly := { s1.tly with repeats := 0, last := 0, dirty := false, lastWrite := s1.time.edge } }

/-- Count an event as a repeat of the last record (R397, R398). -/
def State.tallyRepeat (s : State) (e : TlyEvent) : State :=
  let ht0 := leNat (s.mramPeek (tallyOff s.tallyLast) 8)
  let s1 := { s with tly := { s.tly with
    repeats := Nat.min (s.tly.repeats + 1) 0xFFFF
    last := Nat.min ((e.ht.toNat + 2 ^ 64 - ht0) % 2 ^ 64 / 1000) 0xFFFFFFFF
    dirty := true } }
  if s1.time.edge ≥ s1.tly.lastWrite + edgesPerMs then s1.tallyFlush else s1

/-- Whether an event equals the last record (R397): CODE, SRC, SUB and DATA. -/
def State.tallySame (s : State) (e : TlyEvent) : Bool :=
  decide (s.rd Reg.TLY_STAT_NREC ≠ 0) &&
    (s.mramPeek (tallyOff s.tallyLast + 8) 16 == (tallyHead e).drop 8)

/-- Write one event (R396 to R398): a repeat, a new record, or the FULL record. -/
def State.tallyStore (s : State) (e : TlyEvent) : State :=
  if s.bit Reg.TLY_STAT_FULL then s.tallyRepeat e
  else if s.tallySame e then s.tallyRepeat e
  else
    let s1 := s.tallyFlush
    if s1.rd Reg.TLY_STAT_NREC < 32767 then s1.tallyAppend (tallyHead e)
    else (s1.tallyAppend (tallyHead { ht := e.ht, code := 0x0D01, src := 13, sub := 0, data := 0#96 })).wrB Reg.TLY_STAT_FULL true

/-- Take the head of the queue into the record; a loss is recorded once there is room (R396). -/
def State.tallyPop (s : State) : State :=
  match s.tly.queue with
  | [] => s
  | e :: q =>
    let s1 := ({ s with tly := { s.tly with queue := q } }).tallyStore e
    if s1.tly.lostNew = 0 then s1
    else ({ s1 with tly := { s1.tly with lostNew := 0 } }).tally 0x0D03 0 0 s1.tly.lostNew

/-- Write the whole queue (R396): before event W, S and standby, and at the power-fail warning. -/
def State.tallyDrain : Nat → State → State
  | 0, s => s
  | n + 1, s => if s.tly.queue = [] then s else State.tallyDrain n s.tallyPop

/-- Drain the queue of 64 and the QLOST record it may add. -/
def State.tallyWriteAll (s : State) : State := (State.tallyDrain 66 s).tallyFlush

/-- TALLY_WRITE: events wait during a clear (R400). -/
def execTallyWrite (s : State) : Host.Outcome State Fault Refusal :=
  if s.bit Reg.TLY_STAT_CLRBUSY then .next s else .next s.tallyPop

/-- TALLY_REPEAT_UPDATE: the pending repeat count goes to its record, at most once per ms (R397). -/
def execTallyRepeatUpdate (s : State) : Host.Outcome State Fault Refusal :=
  if s.tly.dirty then .next (s.advanceEdge (s.tly.lastWrite + edgesPerMs)).tallyFlush else .next s

/-- Load a record into the window (R399). -/
def State.tallyShow (s : State) (n : Nat) : State :=
  let ((b, p), s1) := s.mramGet (tallyOff n) 32
  let s2 := s1.over (upFrom 0 8) fun i a => a.wr Reg.TLY_WIN_D (leNat ((b.drop (4 * i)).take 4)) i
  let ok := !p && decide (crc16 (b.take 30) = leNat (b.drop 30))
  ((((s2.wr Reg.TLY_CUR_INDEX n).wrB Reg.TLY_WSTAT_BUSY false).wrB Reg.TLY_WSTAT_VALID ok).wrB Reg.TLY_WSTAT_EMPTY
    (decide (leNat ((b.drop 8).take 2) = 0))).wrB Reg.TLY_WSTAT_PSN p

/-- TALLY_READ. -/
def execTallyRead (index : Fin 32768) (s : State) : Host.Outcome State Fault Refusal := .next (s.tallyShow index)

/-- The record after the one shown; 32,767 wraps to 0 (R399). -/
def State.tallyNext (s : State) : State := s.tallyShow ((s.rd Reg.TLY_CUR_INDEX + 1) % 32768)
/-- TALLY_NEXT. -/
def execTallyNext (s : State) : Host.Outcome State Fault Refusal := .next s.tallyNext

/-- Whether the step of the clear sequence before lies at most 1 ms back (R400). -/
def State.unlockFresh (s : State) : Bool := decide (s.time.edge ≤ s.tly.unlockAt + edgesPerMs)

/-- Set the stage of the clear sequence. -/
def State.setUnlock (s : State) (n : Nat) : State :=
  ({ s with tly := { s.tly with unlock := n, unlockAt := s.time.edge } }).wrB Reg.TLY_CLR_UNLOCKED (n = 2)

/-- A write to TLY_UNLOCK (R400). -/
def State.tallyUnlock (s : State) (key : Nat) : State :=
  if s.tly.unlock = 0 ∧ key = 0x7A11 then s.setUnlock 1
  else if s.tly.unlock = 1 ∧ s.unlockFresh ∧ key = 0xC1EA then s.setUnlock 2
  else s.setUnlock 0
/-- TALLY_UNLOCK. -/
def execTallyUnlock (key : Word) (s : State) : Host.Outcome State Fault Refusal := .next (s.tallyUnlock key.toNat)

/-- TALLY_UNLOCK_TIMEOUT: a gap longer than 1 ms (R400). -/
def execTallyUnlockTimeout (s : State) : Host.Outcome State Fault Refusal :=
  if s.tly.unlock = 0 then .next s else .next ((s.advanceEdge (s.tly.unlockAt + edgesPerMs + 1)).setUnlock 0)

/-- Begin the clear after the unlock (R400): record 0 becomes the CLEARED record. -/
def State.tallyClear (s : State) : State :=
  if s.tly.unlock = 2 ∧ s.unlockFresh then
    let former := s.rd Reg.TLY_STAT_NREC
    let s1 := (((s.setUnlock 0).wr Reg.TLY_STAT_NREC 0).wrB Reg.TLY_STAT_FULL false).tallyAppend
      (tallyHead ⟨BitVec.ofNat 64 s.T, 0x0D02, 13, 0, BitVec.ofNat 96 (former * 2 ^ 32)⟩)
    { (s1.wrB Reg.TLY_STAT_CLRBUSY true) with tly := { s1.tly with clearAt := some 1 } }
  else s.setUnlock 0
/-- TALLY_CLEAR. -/
def execTallyClear (s : State) : Host.Outcome State Fault Refusal := .next s.tallyClear

/-- Write records from `n` to 32,767 as all zeros. -/
def State.tallyZero (s : State) (n : Nat) : State :=
  let lo := tallyOff n
  let cnt := tallyOff 32768 - lo
  { s with mram :=
    { cells := tabReplace s.mram.cells lo cnt []
      poison := s.mram.poison.filter fun w => !(decide (lo ≤ w * 8) && decide (w * 8 < lo + cnt))
      flips := tabReplace s.mram.flips (lo / 8) (cnt / 8) [] } }

/-- The zeroing completes (R400). -/
def State.tallyClearEnd (s : State) : State :=
  match s.tly.clearAt with
  | none => s
  | some n => { ((s.tallyZero n).wrB Reg.TLY_STAT_CLRBUSY false) with tly := { s.tly with clearAt := none } }
/-- TALLY_CLEAR_DONE: a clear that the power-fail warning stopped goes on once the warning has cleared (R400). -/
def execTallyClearDone (s : State) : Host.Outcome State Fault Refusal :=
  if s.bit Reg.PWR_STAT_PFW && decide (2 ≤ s.tly.clearAt.getD 0) then .next s else .next s.tallyClearEnd

/-- The queue is written before the module may stop (R396). During a clear the queued events go into records 1 onwards and
the next record is zeroed; the zeroing goes on behind it, after a reset by boot (R400, R401). -/
def State.tallyPowerFail (s : State) : State :=
  match s.tly.clearAt with
  | none => s.tallyWriteAll
  | some _ =>
    let s1 := s.tallyWriteAll
    let n := s1.rd Reg.TLY_STAT_NREC
    { (s1.mramPut (tallyOff n) (List.replicate 32 0#8)) with tly := { s1.tly with clearAt := some (n + 1) } }

/-! ### Record stream and trace ring (R404 to R410) -/

/-- The stamp of an entry: a hoist of a ring, or a dispatcher tick. -/
inductive RsStamp where
  | hoist (ring hnum : Nat)
  | tick (j : Nat)
deriving DecidableEq, Repr

/-- The number of a stamp: the hoist or the tick. -/
def RsStamp.num : RsStamp → Nat
  | .hoist _ h => h
  | .tick j => j

/-- The place of a source's SEQ counters for the clock of a stamp: one per ring, and one for ticks. -/
def RsStamp.clock (st : RsStamp) (src : Nat) : Nat :=
  16 * src + match st with | .hoist r _ => r % 8 | .tick _ => 8

/-- Build an entry (R405). [DESIGN CHOICE, log 128] -/
def rsEntry (st : RsStamp) (addr src seq aux : Nat) (late : Bool) (w0 : Cw) (w1 : Option Cw) : RsEntry :=
  let flags := match st with
    | .hoist r _ => r % 8
    | .tick _ => 8
  let p1 := match w1 with | some c => c.poison | none => false
  let d1 := match w1 with | some c => c.data.toNat | none => 0
  BitVec.ofNat 256 (st.num % 2 ^ 32 + addr % 2 ^ 32 * 2 ^ 32 + src % 16 * 2 ^ 64
    + (flags + b2n w0.poison * 16 + b2n p1 * 32 + b2n w1.isNone * 64 + b2n late * 128) * 2 ^ 72
    + seq % 65536 * 2 ^ 80 + aux % 2 ^ 32 * 2 ^ 96 + w0.data.toNat * 2 ^ 128 + d1 * 2 ^ 192)

/-- The 32 bytes of an entry. -/
def rsBytes (e : RsEntry) : List Byte := leBytes 32 e.toNat
/-- SRC of an entry. -/
def rsSrc (e : RsEntry) : Nat := bitsOf e.toNat 64 4

/-- RS ring a source is mapped to (TLY_RSMAPi). -/
def State.rsRing (s : State) (src : Nat) : Nat := bitsOf (s.rd Reg.TLY_RSMAP_RING (src / 8)) (src % 8 * 4) 3

/-- Entries the staging area holds (R407): RSLEN MiB, 0 acts as 1. -/
def State.stagingRoom (s : State) : Nat := max 1 (s.rd Reg.TLY_RSLEN_MIB) * 32768

/-- Byte offset of place `k` of the staging area (R407). -/
def State.stagingOff (s : State) (k : Nat) : Nat := s.rd Reg.TLY_RSBASE_BASE * 0x100000 + 32 * k

/-- The lowest place of the staging area that no waiting entry takes. -/
def State.stagingFree (s : State) : Nat :=
  ((upFrom 0 s.tly.staged.length).find? fun k => !s.tly.staged.any fun x => x.2 == k).getD s.tly.staged.length

/-- An entry goes to RS ring `r` (R289, R407): straight into a free slot where none waits before it, else into the staging
area in the Landing; a full staging area drops it. [DESIGN CHOICE, log 128] -/
def State.rsSend (s : State) (r : Nat) (e : RsEntry) : State :=
  if s.ringRoom (34 + r) && !s.tly.staged.any fun x => x.1 == r then s.putEntry (34 + r) (rsBytes e)
  else if s.tly.staged.length < s.stagingRoom then
    let k := s.stagingFree
    let s1 := s.lndWrite 7 (s.stagingOff k) (rsBytes e)
    ({ s1 with tly := { s1.tly with staged := s1.tly.staged ++ [(r, k)] } }).rsWait r
  else
    let s1 := (s.setSticky 13 Reg.TLY_RSTAT_LOST).inc Reg.TLY_RSTAT_GAPS
    { s1 with tly := { s1.tly with gapRun := s1.tly.gapRun + 1 } }

/-- Room has returned after entries were dropped: a GAP entry with their number, then Tally event 0x0D04 (R407). -/
def State.rsGap (s : State) : State :=
  if s.tly.gapRun = 0 ∨ s.stagingRoom ≤ s.tly.staged.length then s
  else
    let n := s.tly.gapRun
    let g := rsEntry (.tick s.dtick) 0 15 0 0 false ⟨BitVec.ofNat 64 n, false⟩ none
    (({ s with tly := { s.tly with gapRun := 0 } }).rsSend (s.rsRing 15) g).tally 0x0D04 0 0 n

/-- Put an entry on its way to the host. -/
def State.rsPut (s : State) (e : RsEntry) : State :=
  let s1 := s.rsGap
  s1.rsSend (s1.rsRing (rsSrc e)) e

/-- SIZE of the trace ring in MiB: 0 acts as 1, above 24 as 24. -/
def State.traceMib (s : State) : Nat := Nat.min 24 (max 1 (s.rd Reg.TLY_TRCFG_SIZE))

/-- Freeze the trace ring (R410). -/
def State.traceFreeze (s : State) : State :=
  let s1 := s.setSticky 13 Reg.TLY_TRSTAT_FROZEN
  { s1 with tly := { s1.tly with post := none } }

/-- Write an entry to the trace ring (R409, R410): entries after the header of 64 bytes, then WIDX. [DESIGN CHOICE, log 128] -/
def State.tracePut (s : State) (e : RsEntry) : State :=
  if s.bit Reg.TLY_TRSTAT_FROZEN then s
  else if s.tly.post = some 0 then s.traceFreeze
  else
    let base := s.rd Reg.TLY_TRBASE_BASE * 0x100000
    let n := s.tly.widx % (s.traceMib * 32768)
    let s1 := s.lndWrite 7 (base + 64 + 32 * n) (rsBytes e)
    let s2 := s1.lndWrite 7 base (leBytes 8 (s1.tly.widx + 1))
    let s3 := { s2 with tly := { s2.tly with widx := s2.tly.widx + 1 } }
    match s3.tly.post with
    | some k => if k ≤ 1 then s3.traceFreeze else { s3 with tly := { s3.tly with post := some (k - 1) } }
    | none => s3

/-- The SEQ of the next entry of a source under a stamp (R405). -/
def State.nextSeq (s : State) (src : Nat) (st : RsStamp) : Nat × State :=
  let c := st.clock src
  let same := tabAt 0 s.tly.seqAt c == st.num + 1
  let n := if same then tabAt 0 s.tly.seqNo c + 1 else 0
  (n, { s with tly := { s.tly with seqAt := tabPut 0 s.tly.seqAt c (st.num + 1), seqNo := tabPut 0 s.tly.seqNo c n } })

/-- Whether a source is recorded: while recording, and in a replay the outputs alone (R404, R414). -/
def State.recorded (s : State) (src : Nat) : Bool :=
  (s.bit Reg.TLY_RSTAT_RUN || (s.bit Reg.TLY_RPSTAT_RUN && decide (src = 12))) && bitAt (s.rd Reg.TLY_RSRC_MASK) src
/-- Whether a source is traced. -/
def State.traced (s : State) (src : Nat) : Bool := s.bit Reg.TLY_TRCFG_EN && bitAt (s.rd Reg.TLY_TRCFG_MASK) src

/-- Report one entry to the record stream and the trace ring. -/
def State.report (s : State) (st : RsStamp) (addr src aux : Nat) (late : Bool) (w0 : Cw) (w1 : Option Cw) : State :=
  if !s.recorded src && !s.traced src then s
  else
    let (seq, s1) := s.nextSeq src st
    let e := rsEntry st addr src seq aux late w0 w1
    let s2 := if s1.recorded src then s1.rsPut e else s1
    if s2.traced src then s2.tracePut e else s2

/-- Report codewords written from `addr` up, two to an entry (R406). -/
def State.reportCws (st : RsStamp) (src : Nat) (late : Bool) : Nat → List Cw → State → State
  | _, [], s => s
  | addr, [a], s => s.report st addr src 0 late a none
  | addr, a :: b :: l, s => State.reportCws st src late (addr + 16) l (s.report st addr src 0 late a (some b))

/-- In replay no source but HDR, REG, DISP and OUT writes to the Landing (R412). -/
def State.replaying (s : State) : Bool := s.bit Reg.TLY_RPSTAT_RUN

/-- A recorded source writes whole codewords to the Landing (R404): the write and its entries. -/
def State.srcWrite (s : State) (port src : Nat) (st : RsStamp) (late : Bool) (off : Nat) (l : List Cw) : State :=
  if s.replaying then s
  else State.reportCws st src late off l (s.lndWriteCws port off l)

/-- A recorded source writes bytes to the Landing: the entries carry the codewords as they stand afterwards. -/
def State.srcWriteBytes (s : State) (port src : Nat) (st : RsStamp) (off : Nat) (l : List Byte) (poison : Bool := false) : State :=
  if s.replaying || l == [] then s
  else
    let s1 := s.lndWrite port off l poison
    let n := (off % 8 + l.length + 7) / 8
    let cws := (upFrom 0 n).map fun i =>
      let o := off / 8 * 8 + 8 * i
      if o < lndSize then (s1.landing.decode (s1.lndCw o)).1 else Cw.lost
    State.reportCws st src false (off / 8 * 8) cws s1

/-- TRACE_ENABLE: EN from 0 to 1 starts or restarts the trace ring (R409, R410). -/
def State.traceEnable (s : State) : State :=
  if s.bit Reg.TLY_TRCFG_EN then s
  else { ((s.wrB Reg.TLY_TRCFG_EN true).wrB Reg.TLY_TRSTAT_FROZEN false) with tly := { s.tly with widx := 0, post := none } }
/-- TRACE_ENABLE. -/
def execTraceEnable (s : State) : Host.Outcome State Fault Refusal := .next s.traceEnable

/-- TRACE_FREEZE: the entries after the trigger have been written (R410). -/
def execTraceFreeze (s : State) : Host.Outcome State Fault Refusal :=
  match s.tly.post with
  | some 0 => .next s.traceFreeze
  | _ => .next s

end Sys2Proof.Machine
end

