-- ==== Sys2Proof/Machine/Outputs.lean ====
section
/-! DEFINITION. Output release: when the standard output stages work, and the safe state each takes while they do not
(R113, R136, R158, R355, R376, R443, R453, R454). -/
namespace Sys2Proof.Machine

/-- Own claim. -/
def State.ensign (s : State) : Nat := s.rd Reg.TRH_ENSIGN_E

/-- Whether the unit is enabled (R376). [DEDUCED, log 49] -/
def State.enabled (s : State) : Bool := decide (s.ensign ≠ 0) && decide (s.rd Reg.TRH_HIGH_E ≤ s.ensign)

/-- Whether the unit sends Pennant frames on ring `n`: enabled, and past the seal a take-over waits for (R376, R389). -/
def State.sendsOn (s : State) (n : Nat) : Bool := s.enabled && decide (tabAt 0 s.trh.ringHold n ≤ 1)

/-- Whether the local stages of ring `n` work, as far as the pair is concerned (R376, R389). [DEDUCED, log 49] -/
def State.stagesOn (s : State) (n : Nat) : Bool := s.enabled && decide (tabAt 0 s.trh.ringHold n = 0)

/-- Whether the local output stages of ring `n` work: released (R443), and the unit does not yield (R376). [DEDUCED, log 49] -/
def State.outOn (s : State) (n : Nat) : Bool := s.bit Reg.PWR_STAT_OUTREL && s.stagesOn n

/-! ### Digital lines (R453, R454) -/

/-- The lines. -/
def allLines : List Nat := upFrom 0 48

/-- The number whose bit `l` is `f l` for the 48 lines. -/
def lineMask (f : Nat → Bool) : Nat := allLines.foldl (fun a l => a + b2n (f l) * 2 ^ l) 0

/-- Whether a compare unit's pulse is active on a line (R454). -/
def State.linePulse (s : State) (l : Nat) : Bool :=
  s.axs.units.any fun (p : Nat × CcSt) =>
    match p.2.pulse with
    | some e => decide (s.time.edge < e) && s.bit Reg.AXS_CCCFG_OUTEN p.1 && s.rd Reg.AXS_CCCFG_OUTLINE p.1 == l
    | none => false

/-- The level an output stage asks for (R453, R454). -/
def State.lineOut (s : State) (l : Nat) : Bool :=
  if !s.outOn (s.rd Reg.SYS_DIOCFG_RING l) then s.bit Reg.SYS_DIOCFG_SAFE l
  else s.linePulse l || bitAt s.dio.val l

/-- The level at a land: what the line drives, or what the outside shows where it does not drive. [DESIGN CHOICE, log 40] -/
def State.lineLevel (s : State) (l : Nat) : Bool :=
  if !s.bit Reg.SYS_DIOCFG_OUT l then bitAt s.dio.ext l
  else if s.bit Reg.SYS_DIOCFG_OD l then s.lineOut l && bitAt s.dio.ext l
  else s.lineOut l

/-- SYS_DILVL shows the lands. [DESIGN CHOICE, log 40] -/
def State.showLines (s : State) : State :=
  let v := lineMask s.lineLevel
  (s.wr Reg.SYS_DILVL0_L v).wr Reg.SYS_DILVL1_L (v / 2 ^ 32)

/-- A line whose ring's stages do not work holds its SAFE level, and starts from there (R443, R453). [DEDUCED, log 41] -/
def State.dioSafe (s : State) : State :=
  let v := lineMask fun l => if s.outOn (s.rd Reg.SYS_DIOCFG_RING l) then bitAt s.dio.val l else s.bit Reg.SYS_DIOCFG_SAFE l
  ({ s with dio := { s.dio with val := v } }).showLines

/-! ### DACs and emulation stages -/

/-- A DAC whose ring's stages do not work holds its SAFE code (R158). -/
def State.dacSafe (s : State) : State :=
  s.over (upFrom 0 16) fun d s =>
    if s.outOn (s.rd Reg.CNV_DCFG_RING d) then s else s.wr Reg.CNV_DSTAT_CODE (s.rd Reg.CNV_DCFG_SAFE d) d

/-- A stage at rest (R136). [DEDUCED, log 50] -/
def State.emuRest (s : State) (e : Nat) : State :=
  let x := tabAt ({} : EmuSt) s.fbk.emus e
  let y : EmuSt := { x with src0 := none, target := 0, c := 0, sched := 0, start := 0, span := 0 }
  ({ s with fbk := { s.fbk with emus := tabPut {} s.fbk.emus e y } }).wr Reg.FBK_EMCNT_C 0 e

/-- The emulation stages of rings whose stages do not work rest (R136). -/
def State.emuSafe (s : State) : State :=
  s.over (upFrom 0 8) fun e s => if s.outOn (s.rd Reg.FBK_EMCFG_RING e) then s else s.emuRest e

/-- Every stage that may not work takes its safe state (R355, R376, R443). -/
def State.outSafe (s : State) : State := s.dacSafe.dioSafe.emuSafe

/-- The release latch clears (R443). -/
def State.outHold (s : State) : State :=
  if s.bit Reg.PWR_STAT_OUTREL then (s.wrB Reg.PWR_STAT_OUTREL false).outSafe else s

/-- OUTREL sets on the first edge at which the program is in RUN and the safety island has released (R443). A replay
keeps the stages safe (R412). [DEDUCED, log 33] -/
def State.outRelease (s : State) : State :=
  if decide (s.rd Reg.TEX_PSTAT_STATE = 1) && s.bit Reg.SAF_STAT_REL && !s.replaying then s.wrB Reg.PWR_STAT_OUTREL true else s

end Sys2Proof.Machine
end

