-- ==== Sys2Proof/Machine/Pair.lean ====
section
/-! DEFINITION. Redundant pairs, the part every island leans on: Terha frames (R371), claims (R374 to R378), dips (R387,
R388) and whether the unit's outputs work. -/
namespace Sys2Proof.Machine

/-! ### Roles (R379) -/

def roleNegotiate : Nat := 0
def roleActive : Nat := 1
def roleSync : Nat := 2
def roleInstep : Nat := 3
def roleDipped : Nat := 4
def roleIsolated : Nat := 5

/-- TRH_STAT.ROLE. -/
def State.role (s : State) : Nat := s.rd Reg.TRH_STAT_ROLE

/-- FLAGS.STANDBY (R382). -/
def State.isStandby (s : State) : Bool := decide (s.role ≠ roleActive)

/-! ### Frames (R371, R372) -/

/-- The 16 header bytes of a frame. -/
def trhHeader (type : Nat) (last : Bool) (len seq hnum ring : Nat) : List Byte :=
  leBytes 1 type ++ leBytes 1 (b2n last) ++ leBytes 2 len ++ leBytes 4 seq ++ leBytes 4 hnum ++ leBytes 1 (ring % 8) ++ leBytes 3 0

/-- Send a frame on lanes `lanes`; with PAIR = 0 the lanes are off (R380). -/
def State.trhSend (s : State) (lanes type : Nat) (last : Bool) (hnum ring : Nat) (payload : List Byte) (psn : List Nat := []) : State :=
  if !s.bit Reg.TRH_CTL_PAIR || lanes == 0 || s.pwr.standby then s
  else
    let b := trhHeader type last payload.length s.trh.seq hnum ring ++ payload
    { s with
      trh := { s.trh with seq := (s.trh.seq + 1) % 2 ^ 32 }
      trhOut := s.trhOut ++ [⟨lanes, b ++ leBytes 4 (crc32c b), psn⟩] }

/-- Send a frame on the lanes that are up (R372). -/
def State.trhData (s : State) (type : Nat) (last : Bool) (hnum ring : Nat) (payload : List Byte) (psn : List Nat := []) : State :=
  s.trhSend (s.rd Reg.TRH_STAT_LANEUP) type last hnum ring payload psn

/-- The candidate claim (R380). -/
def State.cand (s : State) : Nat := (s.rd Reg.TRH_LASTEP_EP + 1) * 256 + s.rd Reg.TRH_CFG_UNIT

/-- The payload of a CLAIM frame (R372). -/
def State.claimPayload (s : State) : List Byte :=
  leBytes 4 s.ensign
    ++ leBytes 4 (if s.role = roleNegotiate then s.cand else 0)
    ++ leBytes 4 (s.rd Reg.TRH_IDENT_ID) ++ leBytes 1 s.role ++ leBytes 1 (s.rd Reg.TRH_STAT_DIPCAUSE)
    ++ leBytes 2 (b2n (decide (s.rd Reg.TEX_PSTAT_STATE = 1)) + 2 * b2n (s.bit Reg.SAF_STAT_REL))
    ++ leBytes 8 s.htime ++ leBytes 8 s.trh.pht ++ leBytes 8 s.trh.prx

/-- Send a CLAIM frame on both lanes (R372). -/
def State.sendClaim (s : State) : State := s.trhSend 3 1 false 0 0 s.claimPayload

/-! ### Claims (R374, R375, R378) -/

/-- CLAIMWIN in edges; 0 acts as 1. -/
def State.claimWindow (s : State) : Nat := max 1 (s.rd Reg.TRH_CFG_CLAIMWIN) * 100 * edgesPerUs

/-- TRH_HIGH from the claims seen within the window (R375). -/
def State.claimHigh (s : State) : State :=
  let l := s.trh.claims.filter fun c => decide (s.time.edge ≤ c.2 + s.claimWindow)
  let s1 := ({ s with trh := { s.trh with claims := l } }).wr Reg.TRH_HIGH_E (l.foldl (fun (a : Nat) (c : Nat × Nat) => max a c.1) 0)
  if s.enabled && !s1.enabled then s1.outSafe else s1

/-- A pass ends where the unit's role ends (R379, R391). -/
def State.passStop (s : State) : State :=
  let s1 := (s.wrB Reg.TRH_PASS_BUSY false).wrB Reg.TRH_PASS_R2 false
  { s1 with lnd := { s1.lnd with dirtyOn := false, dirty := [] } }

/-- Enter SYNC: pull a pass (R391). -/
def State.enterSync (s : State) : State :=
  let s1 := (((s.wr Reg.TRH_STAT_ROLE roleSync).wrB Reg.TRH_STAT_INSTEP false)).passStop
  ({ s1 with trh := { s1.trh with passOk := false, passSeen := 0, handover := false } }).trhData 6 false 0 0 []

/-- Whether a standby is in step (R381). -/
def State.inStepNow (s : State) : Bool :=
  s.trh.passOk && decide (s.rd Reg.TRH_IDENT_ID = s.rd Reg.TRH_PIDENT_ID)
    && decide ((s.rdS Reg.TRH_TOFS_NS).natAbs ≤ s.rd Reg.TRH_CFG_TOFSMAX * 100)
    && decide (s.rd Reg.TEX_PSTAT_STATE = 1) && bitAt s.trh.pstatus 0
    && s.trh.mirLate.all (fun (p : Nat × Nat) => decide (p.2 < 2))

/-- IDENTERR follows the two identities; an INSTEP standby that is no longer in step enters SYNC (R379, R381). -/
def State.stepCheck (s : State) : State :=
  let s1 := if s.trh.pseen ∧ s.rd Reg.TRH_IDENT_ID ≠ s.rd Reg.TRH_PIDENT_ID then s.setSticky 12 Reg.TRH_STAT_IDENTERR else s
  if s1.role = roleInstep ∧ !s1.inStepNow then s1.enterSync else s1

/-- Give up the claim to a higher one (R378). -/
def State.yieldTo (s : State) (c : Nat) : State :=
  (((((s.wr Reg.TRH_ENSIGN_E 0).outSafe).sendClaim).setSticky 12 Reg.TRH_STAT_YIELDED).tally 0x0C02 0 0 c).enterSync

/-- Yield if the own claim is lower (R378). -/
def State.yieldIfBelow (s : State) (c : Nat) : State :=
  if s.ensign ≠ 0 ∧ s.ensign < c then s.yieldTo c else s

/-- A claim is seen, in a CLAIM frame or a CYCLE_DOWN frame (R375, R378). -/
def State.seeClaim (s : State) (c : Nat) : State :=
  if c = 0 then s
  else
    let s1 := ({ s with trh := { s.trh with
      claims := tabIns (tabDel s.trh.claims c) c s.time.edge
      negClaim := s.trh.negClaim || decide (s.role = roleNegotiate) } }).claimHigh
    let s2 := s1.wr Reg.TRH_LASTEP_EP (max (s1.rd Reg.TRH_LASTEP_EP) (c / 256))
    s2.yieldIfBelow c

/-- Raise a claim with the next epoch (R374): refused at the last epoch. -/
def State.raiseClaim (s : State) : State :=
  let ep := s.rd Reg.TRH_LASTEP_EP
  if ep ≥ 0xFFFFFF then s.setSticky 12 Reg.TRH_STAT_EPOCHMAX
  else
    let s1 := (s.wr Reg.TRH_LASTEP_EP (ep + 1)).wr Reg.TRH_ENSIGN_E ((ep + 1) * 256 + s.rd Reg.TRH_CFG_UNIT)
    ((s1.wr Reg.TRH_STAT_ROLE roleActive).wrB Reg.TRH_STAT_INSTEP false).passStop.sendClaim

/-! ### Dips (R387, R388) -/

/-- Whether the partner is in step, as its last CLAIM says, while a lane is up. -/
def State.partnerInStep (s : State) : Bool :=
  s.bit Reg.TRH_CTL_PAIR && decide (s.rd Reg.TRH_STAT_LANEUP ≠ 0) && s.trh.pseen && decide (s.trh.prole = roleInstep)

/-- Whether a cause of R387 dips the unit now. -/
def State.dipAllowed (s : State) (cause : Nat) : Bool :=
  let en := match cause with
    | 6 => s.bit Reg.TRH_DIPEN_ENGINE
    | 7 => s.bit Reg.TRH_DIPEN_ABANDON
    | 8 => s.bit Reg.TRH_DIPEN_CHAIN
    | 9 => s.bit Reg.TRH_DIPEN_LATE
    | _ => true
  decide (s.role = roleActive) && en && (decide (cause ≤ 3) || s.partnerInStep)

/-- Dip for a cause (R388). -/
def State.dip (s : State) (cause : Nat) : State :=
  if s.dipAllowed cause then
    let old := s.ensign
    let s1 := ((s.wr Reg.TRH_ENSIGN_E 0).wr Reg.TRH_STAT_DIPCAUSE cause).wr Reg.TRH_STAT_ROLE roleDipped
    ((((s1.sendClaim).outSafe).passStop).setSticky 12 Reg.TRH_STAT_DIPPED).tally 0x0C03 0 cause old
  else s

/-! ### Retained segments (R383, R386) -/

/-- The retained segments of a task in the mirror table (R383): address and length. -/
def State.retSegs (s : State) (t : Nat) : List (Nat × Nat) × State :=
  let base := s.rd Reg.TRH_MBASE_BASE * 4096
  let ((n, _), s1) := s.lndBytes 5 base 2
  (upFrom 0 (Nat.min (leNat n) 1024)).foldl
    (fun (acc : List (Nat × Nat) × State) i =>
      let ((b, p), s2) := acc.2.lndBytes 5 (base + 16 + 16 * i) 16
      if !p && decide (leNat ((b.drop 8).take 1) = t) then (acc.1 ++ [(leNat (b.take 4), leNat ((b.drop 4).take 4))], s2)
      else (acc.1, s2)) ([], s1)

/-- Cut a byte string into payloads of at most `n` bytes; `fuel` bounds the cuts. [DEDUCED, log 98] -/
def cutBytes (n : Nat) : Nat → List Byte → List (List Byte)
  | 0, _ => []
  | fuel + 1, l => if l = [] then [] else l.take n :: cutBytes n fuel (l.drop n)

/-- The places of poisoned words within `[lo, lo + n)`, counted from `lo`. -/
def psnPart (psn : List Nat) (lo n : Nat) : List Nat := psn.filterMap fun p => if lo ≤ p ∧ p < lo + n then some (p - lo) else none

/-- Data with the places of its poisoned words. -/
abbrev PsnData := List Byte × List Nat

/-- The frames that carry data from a Landing offset: the offset and the data of each (R253). [DESIGN CHOICE, log 99] -/
def cutData (off : Nat) (d : PsnData) : List (Nat × PsnData) :=
  let cs := cutBytes 2008 (d.1.length / 2008 + 1) d.1
  (upFrom 0 cs.length).zip cs |>.map fun ic => (off + 2008 * ic.1, ic.2, psnPart d.2 (2008 * ic.1) 2008)

/-- The places of poisoned words of data that stands behind `n` bytes of a payload. -/
def psnAfter (n : Nat) (psn : List Nat) : List Nat := psn.map fun p => p + n

/-- A recorded source writes data with the poison of its words (R253). [DESIGN CHOICE, log 99] -/
def State.srcWritePsn (s : State) (port src : Nat) (st : RsStamp) (off : Nat) (d : PsnData) : State :=
  if d.2 = [] then s.srcWriteBytes port src st off d.1
  else
    let cs := cutBytes 8 (d.1.length / 8 + 1) d.1
    s.over ((upFrom 0 cs.length).zip cs) fun ic a => a.srcWriteBytes port src st (off + 8 * ic.1) ic.2 (d.2.contains (8 * ic.1))

/-- Whether the active unit mirrors (R383, R391): to a partner that syncs or is in step, or while a pass runs. -/
def State.mirroring (s : State) : Bool :=
  decide (s.role = roleActive) && s.bit Reg.TRH_CTL_PAIR && decide (s.rd Reg.TRH_STAT_LANEUP ≠ 0)
    && (s.bit Reg.TRH_PASS_BUSY || s.trh.pseen && (decide (s.trh.prole = roleSync) || decide (s.trh.prole = roleInstep)))

/-- RET frames at a publish of a task on the active unit (R386). -/
def State.sendRet (s : State) (t : Nat) : State :=
  if !s.mirroring then s
  else
    let (segs, s1) := s.retSegs t
    let (fr, s2) := segs.foldl
      (fun (acc : List (Nat × PsnData) × State) sg =>
        let (b, s3) := acc.2.lndBytesPsn 5 sg.1 sg.2
        (acc.1 ++ cutData sg.1 b, s3)) ([], s1)
    ((upFrom 1 fr.length).zip fr).foldl
      (fun a ic => a.trhData 3 (decide (ic.1 = fr.length)) 0 0 (leBytes 4 ic.2.1 ++ leBytes 1 t ++ leBytes 3 0 ++ ic.2.2.1)
        (psnAfter 8 ic.2.2.2)) s2

/-- A mirror period of ring `n` that came late: MIRLATE, its count, the Tally record at the first one, and the end of
INSTEP at the second in a row (R385). [DEDUCED, log 98] -/
def State.mirrorLate (s : State) (n hnum : Nat) : State :=
  let c := tabAt 0 s.trh.mirLate n
  let s1 := (s.setSticky 12 Reg.TRH_STAT_MIRLATE).inc Reg.TRH_CNT_MIRLATE
  let s2 := { s1 with trh := { s1.trh with mirLate := tabPut 0 s1.trh.mirLate n (Nat.min (c + 1) 2) } }
  let s3 := if c = 0 then s2.tally 0x0C05 n 0 hnum else s2
  if c ≥ 1 ∧ s.role = roleInstep then s3.enterSync else s3

/-- A mirror period of ring `n` that came in time. -/
def State.mirrorOnTime (s : State) (n : Nat) : State :=
  { s with trh := { s.trh with mirLate := tabDel s.trh.mirLate n } }

end Sys2Proof.Machine
end

