-- ==== Sys2Proof/Machine/Tasks.lean ====
section
/-! DEFINITION. Tasks: their descriptors and segments (R170, R171), the snapshot and the publish with forces (R163,
R164, R178), release (R162, R167, R172), and work items and flumes (R201 to R205). -/
namespace Sys2Proof.Machine

/-! ### Tasks and their states (R189) -/

def stUnused : Nat := 0
def stIdle : Nat := 1
def stWait : Nat := 2
def stDelay : Nat := 3
def stSnap : Nat := 4
def stReady : Nat := 5
def stRun : Nat := 6

/-- The task. -/
def State.task (s : State) (t : Nat) : TaskSt := tabAt {} s.tex.tasks t
/-- Replace the task. -/
def State.setTask (s : State) (t : Nat) (x : TaskSt) : State :=
  { s with tex := { s.tex with tasks := tabPut {} s.tex.tasks t x } }
/-- TEX_DSTATEt.STATE. -/
def State.tstate (s : State) (t : Nat) : Nat := s.rd Reg.TEX_DSTATE_STATE t
/-- Put the task into a state. -/
def State.setTstate (s : State) (t v : Nat) : State := s.wr Reg.TEX_DSTATE_STATE v t
/-- TEX_PSTAT.STATE. -/
def State.progState (s : State) : Nat := s.rd Reg.TEX_PSTAT_STATE
/-- Whether releases go on: the program is in RUN and no STOP is pending (R175). -/
def State.releasing (s : State) : Bool := decide (s.progState = 1) && !s.tex.stopping
/-- Deterministic mode (R210). -/
def State.det (s : State) : Bool := s.bit Reg.TEX_DCTL_DET
/-- The 256 task numbers. -/
def allTasks : List Nat := upFrom 0 256
/-- Whether KIND enables a task (R161). -/
def kindEnabled (k : Nat) : Bool := k == 1 || k == 2

/-- The Landing port of a task's copies: that of the lowest engine of its mask (R24). [DESIGN CHOICE, log 135] -/
def State.texPort (s : State) (t : Nat) : Nat :=
  let aff := s.rd Reg.TEX_DCFG_AFF t
  if aff % 16 = 0 ∧ aff ≠ 0 then 1 else 0

/-! ### Descriptors and segments (R170, R171, R221) -/

/-- `n` bytes at `i` of a byte string as a number. -/
def fieldAt (b : List Byte) (i n : Nat) : Nat := leNat ((b.drop i).take n)

/-- An image descriptor from its 64 bytes (R170, R221). -/
def parseDesc (b : List Byte) : Desc :=
  let flags := fieldAt b 0x28 4
  let d : Desc :=
    { hdr := fieldAt b 0 4, inA := fieldAt b 4 4, nin := fieldAt b 8 2, nout := fieldAt b 0xA 2
      outA := fieldAt b 0xC 4, retA := fieldAt b 0x10 4, retLen := fieldAt b 0x14 4
      carryA := fieldAt b 0x18 4, ncarry := fieldAt b 0x1C 2, imgid := fieldAt b 0x20 4
      retid := fieldAt b 0x24 4, loaded := flags % 2 == 1, cimg := fieldAt b 0x30 4
      corg := fieldAt b 0x34 2, clen := fieldAt b 0x36 2, entry := fieldAt b 0x38 2
      xhnd := fieldAt b 0x3A 2, forg := fieldAt b 0x3C 2, frame := fieldAt b 0x3E 2 }
  { d with wellFormed :=
      d.hdr % 32 == 0 && d.inA % 16 == 0 && decide (d.nin ≤ 1024) && decide (d.nout ≤ 1024) && d.outA % 16 == 0
        && d.retA % 8 == 0 && d.retLen % 8 == 0 && d.carryA % 16 == 0 && decide (d.ncarry ≤ 256)
        && fieldAt b 0x1E 2 == 0 && decide (flags < 2) && fieldAt b 0x2C 4 == 0 }

/-- Whether the code fields of a descriptor are in range (R221). -/
def Desc.codeOk (d : Desc) : Bool :=
  let inside := fun w => decide (d.corg * 16 ≤ w) && decide (w < (d.corg + d.clen) * 16)
  d.cimg % 64 == 0 && decide (1 ≤ d.clen) && decide (d.corg + d.clen ≤ 4096) && inside d.entry
    && (d.xhnd == 0 || inside d.xhnd) && decide (d.frame ≤ 64) && decide (d.forg + d.frame ≤ 2048)

/-- Read a descriptor of a task; the flag says that a codeword of it was poisoned. -/
def State.readDesc (s : State) (t bank : Nat) : (Desc × Bool) × State :=
  let ((b, p), s1) := s.lndBytes (s.texPort t) (s.rd Reg.TEX_IBASE_BASE * 0x8000 + 128 * t + 64 * bank) 64
  ((parseDesc b, p), s1)

/-- A segment entry (R171). -/
structure Seg where
  src : Nat
  dst : Nat
  len : Nat
  stn : Nat
  wellFormed : Bool
deriving DecidableEq, Repr

/-- A segment from its 16 bytes (R171). [DESIGN CHOICE, log 51] -/
def parseSeg (b : List Byte) : Seg :=
  let src := fieldAt b 0 4
  let dst := fieldAt b 4 4
  let len := fieldAt b 8 4 % 2 ^ 20
  let w := fieldAt b 12 4
  let stn := w / 256 % 256
  ⟨src, dst, len, stn, src % 8 == 0 && dst % 8 == 0 && len % 8 == 0 && decide (8 ≤ len) && decide (len ≤ 65536)
    && decide (stn ≤ 254) && w / 65536 == 0 && w % 256 == 0⟩

/-- Read a segment entry. -/
def State.readSeg (s : State) (port addr : Nat) : (Seg × Bool) × State :=
  let ((b, p), s1) := s.lndBytes port addr 16
  ((parseSeg b, p), s1)

/-- Read a segment list; the flag says that an entry was poisoned. -/
def State.readSegs (s : State) (port addr n : Nat) : (List Seg × Bool) × State :=
  (upFrom 0 n).foldl
    (fun (acc : (List Seg × Bool) × State) i =>
      let ((g, p), s1) := acc.2.readSeg port (addr + 16 * i)
      ((acc.1.1 ++ [g], acc.1.2 || p), s1)) (([], false), s)

/-! ### Forces (R177, R178) -/

/-- The force entry in use for an address and direction. -/
def State.forceFor (s : State) (out : Bool) (addr : Nat) : Option ForceSt :=
  (s.tex.forces.find? fun kf => kf.2.act && kf.2.out == out && kf.2.addr == addr).map (·.2)

/-- A word with a force applied (R178): with MASK all ones the forced word is clean. -/
def ForceSt.merge (f : ForceSt) (c : Cw) : Cw :=
  ⟨(c.data &&& ~~~f.mask) ||| (f.value &&& f.mask), c.poison && decide (f.mask ≠ BitVec.allOnes 64)⟩

/-- Words copied with the forces of a direction: `addr` is the source of an input, the destination of an output. -/
def State.forced (s : State) (out : Bool) : Nat → List Cw → List Cw
  | _, [] => []
  | addr, c :: l =>
    (match s.forceFor out addr with | some f => f.merge c | none => c) :: State.forced s out (addr + 8) l

/-- Copy one segment in 64-bit words with its poison (R171, R178). -/
def State.copySeg (s : State) (port : Nat) (out : Bool) (g : Seg) : State :=
  let (l, s1) := s.lndRead port g.src (g.len / 8)
  let d := s1.forced out (if out then g.dst else g.src) l
  -- one copy counts once as an access to retired pages (R261)
  if s.retTouched g.src g.len = [] then s1.lndWriteCws port g.dst d
  else (s1.lndWriteCws port g.dst d).wr Reg.LND_RETCNT_CNT (s1.rd Reg.LND_RETCNT_CNT)

/-- One entry of a segment list at a release or a publish (R171): an entry read poisoned copies nothing, sets SEGPSN
and is recorded at the first such entry after a clean copy. -/
def State.copyEntry (s : State) (t port : Nat) (out : Bool) (addr : Nat) : State :=
  let ((g, p), s1) := s.readSeg port addr
  if p then
    let s2 := s1.wrB Reg.TEX_TSTAT_SEGPSN true t
    let s3 := s2.setTask t { s2.task t with prevSegPsn := true }
    if (s1.task t).prevSegPsn then s3 else s3.tallyOther 7 t (some (0x74004 + 16 * t))
  else (s1.copySeg port out g).setTask t { (s1.copySeg port out g).task t with prevSegPsn := false }

/-- Copy `n` entries of a segment list in order, from the `k`-th on. -/
def State.copyList (s : State) (t port : Nat) (out : Bool) (addr k n : Nat) : State :=
  s.over (upFrom k n) fun i a => a.copyEntry t port out (addr + 16 * i)

/-! ### Release and snapshot (R162, R163, R172) -/

/-- What a release fixes: task time, hoist number, period in 125 ns, t_k, full quotient, publish instant and seal. -/
structure Release where
  tt : Nat
  hnum : Nat
  period : Nat
  tk : Nat
  k : Nat
  pubAt : Nat
  sealAt : Nat
deriving DecidableEq, Repr

/-- FLAGS of a task header (R172). -/
def State.headerFlags (s : State) (x : TaskSt) : Nat :=
  b2n x.isFirst + 2 * b2n x.isWarm + 4 * b2n x.isOcnew + 8 * b2n x.latePrev
    + 16 * b2n (s.bit Reg.TEX_PSTAT_FORCED) + 32 * b2n s.isStandby + Nat.min x.skipped 0xFFFF * 65536

/-- The 32 bytes of a task header (R172). -/
def headerBytes (a : Release) (cycle flags : Nat) : List Byte :=
  leBytes 8 a.tt ++ leBytes 4 a.hnum ++ leBytes 4 cycle ++ leBytes 4 flags ++ leBytes 4 a.period ++ leBytes 8 0

/-- A standby writes the retained data it received into the task's area before the snapshot (R386). -/
def State.takeRet (s : State) (t : Nat) (a : Release) : State :=
  let x := s.task t
  if x.retLast then
    let s1 := s.over x.retIn fun d st => st.srcWritePsn 5 13 (.hoist x.ring a.hnum) d.1 d.2
    (s1.setTask t { s1.task t with retIn := [], retLast := false }).mirrorOnTime (8 + x.ring)
  else if s.role = roleInstep ∧ !x.isFirst then
    let (segs, s1) := s.retSegs t
    if segs = [] then s1 else s1.mirrorLate (8 + x.ring) a.hnum
  else s

/-- Release a task: header, then input segments in list order; the task stands in SNAP (R163, R172, R189). [DESIGN CHOICE, log 51] -/
def State.release (s : State) (t : Nat) (a : Release) : State :=
  let s0 := s.takeRet t a
  let x := s0.task t
  let cyc := (x.cycle + 1) % 2 ^ 32
  let port := s0.texPort t
  let s1 := s0.lndWrite port x.desc.hdr (headerBytes a cyc (s0.headerFlags x))
  let s2 := s1.copyList t port false x.desc.inA 0 x.desc.nin
  let y := s2.task t
  ((s2.setTask t { y with
      cycle := cyc, isOpen := true, toPublish := false, pubNext := 0, relTk := a.tk, relAt := s.T, relK := a.k, pubAt := a.pubAt
      sealAt := a.sealAt, lateNow := false, isFirst := false, isWarm := false, isOcnew := false, latePrev := false
      skipped := 0, prevSkip := false, wait := none, delayDue := none, hwait := none, pendRd := none
      hasCtx := false, preempted := false }).setTstate t stSnap).wrB Reg.TEX_TSTAT_RUNNING true t

/-- A release that finds the cycle still running is skipped (R167). -/
def State.skipRelease (s : State) (t hnum : Nat) : State :=
  let x := s.task t
  let s1 := (s.setSticky 7 Reg.TEX_TSTAT_OVR t).inc Reg.TEX_TCNT_SKIP t
  let s2 := s1.setTask t { s1.task t with skipped := Nat.min (x.skipped + 1) 0xFFFF, prevSkip := true }
  if x.prevSkip then s2 else s2.tally 0x0702 t 0 hnum

/-! ### Checkpoint gathering (R183) -/

/-- The retained bytes of a task as a checkpoint area (R183, R268). -/
def State.gatherArea (s : State) (t : Nat) : CkArea × State :=
  let d := (s.task t).desc
  let ((b, _), s1) := s.lndBytes (s.texPort t) d.retA d.retLen
  (⟨t, d.retid, 0, b⟩, s1)

/-- Gather a task's area if a checkpoint waits for it (R183). -/
def State.gather (s : State) (t : Nat) : State :=
  match s.tex.ck with
  | none => s
  | some ck =>
    if ck.need.contains t then
      let (a, s1) := s.gatherArea t
      { s1 with tex := { s1.tex with ck := some { ck with need := setDel ck.need t, areas := ck.areas ++ [a] } } }
    else s

/-! ### Publish (R164 to R168) -/

/-- `n` more output segments of a publish in progress, each copied whole (R166). [DESIGN CHOICE, log 51] -/
def State.publishPart (s : State) (t n : Nat) : State :=
  let x := s.task t
  let s1 := s.copyList t (s.texPort t) true x.desc.outA x.pubNext n
  s1.setTask t { s1.task t with pubNext := x.pubNext + n }

/-- Copy the output segments still to come with forces, close the cycle's books, gather and mirror (R164, R183, R386). -/
def State.publish (s : State) (t : Nat) : State :=
  let x := s.task t
  let s1 := s.publishPart t (x.desc.nout - x.pubNext)
  let us := Nat.min ((s1.T - x.relAt) / 1000) 0xFFFF
  let s2 := (s1.wr Reg.TEX_TTIME_LAST us t).wr Reg.TEX_TTIME_MAX (max (s1.rd Reg.TEX_TTIME_MAX t) us) t
  let y := s2.task t
  let s3 := (s2.setTask t { y with isOpen := false, toPublish := false, pubNext := 0, prevLate := y.lateNow }).wrB Reg.TEX_TSTAT_RUNNING false t
  (s3.gather t).sendRet t

/-- A cycle not published at its seal is late (R165). -/
def State.markLate (s : State) (t hnum : Nat) : State :=
  let x := s.task t
  let s1 := (s.setSticky 7 Reg.TEX_TSTAT_LATE t).inc Reg.TEX_TCNT_LATECNT t
  let s2 := s1.setTask t { s1.task t with lateNow := true, latePrev := true, prevLate := true }
  if x.prevLate then s2 else s2.tally 0x0701 t 0 hnum

/-- Whether the task's cycle stands unpublished at the seal that is now (R165). -/
def State.lateAtSeal (s : State) (t : Nat) : Bool :=
  let x := s.task t
  x.kind == 1 && (x.isOpen || x.toPublish) && !x.lateNow && decide (x.sealAt ≤ s.T)

/-! ### Flumes and items (R201 to R205) -/

/-- CFG of a flume (R202): enabled, group, MAXQ. -/
structure FlumeCfg where
  en : Bool
  grp : Nat
  maxq : Nat
deriving DecidableEq, Repr

/-- Landing offset of a flume's entry. -/
def State.flumeAt (s : State) (f : Nat) : Nat := s.rd Reg.TEX_FLBASE_BASE * 0x8000 + 8 * f

/-- Read CFG of a flume. [DESIGN CHOICE, log 135] -/
def State.flumeCfg (s : State) (f : Nat) : FlumeCfg × State :=
  let ((w, _), s1) := s.lndWord 0 (s.flumeAt f)
  (⟨bitAt w 31, bitsOf w 16 6, w % 2 ^ 15⟩, s1)

/-- The items of a flume, head first. -/
def State.flumeItems (s : State) (f : Nat) : List Item := s.tex.items.filter fun i => i.flume == f

/-- Whether an item of the flume is in service (R202). -/
def State.inService (s : State) (f : Nat) : Bool := (s.flumeItems f).any fun i => decide (i.place ≠ .queued)

/-- Whether the flume is eligible (R203). -/
def State.eligible (s : State) (f : Nat) : Bool := !s.inService f && decide (s.flumeItems f ≠ [])

/-- Write STAT of a flume and NFREE (R202). -/
def State.flumeStat (s : State) (f : Nat) : State :=
  let w := b2n (s.inService f) * 2 ^ 31 + (s.flumeItems f).length
  (s.lndWrite 0 (s.flumeAt f + 4) (leBytes 4 w)).wr Reg.TEX_DSTAT_NFREE (16384 - s.tex.items.length)

/-- The lowest free cell of the pool. [DEDUCED, log 58] -/
def freeCell (l : List Item) : Nat → Nat → Nat
  | 0, c => c
  | n + 1, c => if l.any fun i => i.cell == c then freeCell l n (c + 1) else c

/-- The members of a group (R203), in ascending task number. -/
def State.members (s : State) (g : Nat) : List Nat :=
  allTasks.filter fun t => s.bit Reg.TEX_DCFG_GEN t && s.rd Reg.TEX_DCFG_GRP t == g

/-- Set event flags as they stand, without looking at waits. -/
def State.rawFlags (s : State) (t v : Nat) : State := (s.wr Reg.TEX_EFLAG_F v t).wr Reg.TEX_EFLAGC_F v t

/-- Place of an item. -/
def State.placeItem (s : State) (i : Item) (p : ItemPlace) : State :=
  ({ s with tex := { s.tex with items := s.tex.items.map fun (x : Item) => if x.cell = i.cell then { x with place := p } else x } }).flumeStat
    i.flume

/-- Remove an item: it returns to the pool (R204). -/
def State.dropItem (s : State) (i : Item) : State :=
  ({ s with tex := { s.tex with items := s.tex.items.filter fun (x : Item) => x.cell ≠ i.cell } }).flumeStat i.flume

/-- Offer an item to a flume (R203): 0 accepted, 1 OFF, 2 QFULL, 3 FULL. The state holds the item; its effects on
group flags come after. -/
def State.offer (s : State) (flume arg : Nat) (poison : Bool) (src stamp : Nat) : Nat × State :=
  let (c, s1) := s.flumeCfg flume
  if !c.en then (1, s1)
  else if c.maxq ≠ 0 ∧ c.maxq ≤ (s1.flumeItems flume).length then (2, s1)
  else if 16384 ≤ s1.tex.items.length then (3, s1)
  else
    let cell := freeCell s1.tex.items 16384 0
    let seq := tabAt 0 s1.tex.seqs src
    let base := s1.rd Reg.TEX_WBASE_BASE * 0x40000 + 16 * cell
    let s2 := s1.lndWriteCws 0 base
      [⟨BitVec.ofNat 64 arg, poison⟩,
       ⟨BitVec.ofNat 64 (stamp % 2 ^ 32 + flume % 4096 * 2 ^ 32 + src % 16 * 2 ^ 44 + seq % 65536 * 2 ^ 48), false⟩]
    (0, ({ s2 with tex := { s2.tex with
        items := s2.tex.items ++ [Item.mk cell flume (stamp % 2 ^ 32) src seq .queued]
        seqs := tabPut 0 s2.tex.seqs src ((seq + 1) % 65536)
        postOk := true } }).flumeStat flume)

/-- Count a refused post; the first after an accepted one is recorded (R203), in deterministic mode every one of a
task's (R233). `obj` is the posting task, 0 for another source. [DEDUCED, log 58] -/
def State.refusePost (s : State) (cause flume obj : Nat) (always : Bool) : State :=
  let s1 := s.inc Reg.TEX_DCNT_POSTREJ
  let s2 := if cause = 3 then s1.setSticky 7 Reg.TEX_DSTAT_FULL else s1
  let s3 := if s2.tex.postOk || always then s2.tally 0x070B obj cause flume else s2
  { s3 with tex := { s3.tex with postOk := false } }

/-- Whether head `a` is served before head `b` (R204). -/
def headBefore (a b : Item) : Bool :=
  decide (a.stamp < b.stamp) || (a.stamp == b.stamp && (decide (a.src < b.src) || (a.src == b.src && decide (a.seq < b.seq))))

/-- The heads of the eligible flumes of a group; reading CFG of each flume that has items. -/
def State.groupHeads (s : State) (g : Nat) : List Item × State :=
  let fl := s.tex.items.foldl (fun a i => setIns a i.flume) []
  fl.foldl
    (fun (acc : List Item × State) f =>
      if acc.2.eligible f then
        let (c, s1) := acc.2.flumeCfg f
        match s1.flumeItems f with
        | i :: _ => if c.grp = g then (acc.1 ++ [i], s1) else (acc.1, s1)
        | [] => (acc.1, s1)
      else acc) ([], s)

/-- The first of a list of heads in the order of R204. -/
def firstHead : List Item → Option Item
  | [] => none
  | i :: l => match firstHead l with
    | none => some i
    | some j => some (if headBefore j i then j else i)

/-- The head that a member of group `g` is served with next (R204). -/
def State.nextHead (s : State) (g : Nat) : Option Item × State :=
  let (l, s1) := s.groupHeads g
  (firstHead l, s1)

/-- ARG of an item, with its poison. -/
def State.itemArg (s : State) (i : Item) (port : Nat) : Cw × State :=
  s.lndCwRead port (s.rd Reg.TEX_WBASE_BASE * 0x40000 + 16 * i.cell)

end Sys2Proof.Machine
end

