-- ==== Sys2Proof/Machine/Dispatcher.lean ====
section
/-! DEFINITION. The hardware dispatcher: flags, waits and releases (R194 to R198), items (R203 to R206), engines, context
(R217, R223), dispatch and preemption (R190 to R192), abandoned cycles (R243), the pool (R208, R209) and deterministic
dispatch (R210 to R213). -/
namespace Sys2Proof.Machine

/-! ### Engines and contexts -/

/-- The engine. -/
def State.eng (s : State) (e : Nat) : EngSt := tabAt {} s.tex.engines e
/-- Replace the engine. -/
def State.setEng (s : State) (e : Nat) (x : EngSt) : State :=
  { s with tex := { s.tex with engines := tabPut {} s.tex.engines e x } }
/-- Replace the registers of the task on an engine. -/
def State.setCtx (s : State) (e : Nat) (c : CtxSt) : State := s.setEng e { s.eng e with ctx := c }
/-- Whether an engine is in the pool. -/
def State.isMember (s : State) (e : Nat) : Bool := bitAt (s.rd Reg.TEX_EPOOL_MEMBER) e
/-- Whether a task's mask names an engine. -/
def State.inMask (s : State) (t e : Nat) : Bool := bitAt (s.rd Reg.TEX_DCFG_AFF t) e
/-- The engines. -/
def allEngines : List Nat := upFrom 0 8
/-- Port of an engine (R24). -/
def engPort (e : Nat) : Nat := e / 4

/-- Value of a general register (R216). -/
def CtxSt.greg (c : CtxSt) (r : Nat) : Word := if r = 0 then 0#32 else tabAt 0#32 c.g r
/-- Poison tag of a general register (R216). -/
def CtxSt.tag (c : CtxSt) (r : Nat) : Bool := r ≠ 0 && c.tags.getLsbD r
/-- Write a general register with its tag; g0 discards (R216). -/
def CtxSt.setG (c : CtxSt) (r : Nat) (v : Word) (tag : Bool) : CtxSt :=
  if r = 0 then c
  else
    let bit := BitVec.ofNat 32 (2 ^ r)
    { c with g := tabPut 0#32 c.g r v, tags := if tag then c.tags ||| bit else c.tags &&& ~~~bit }

/-- Landing offset of a task's context area (R223). [DESIGN CHOICE, log 62] -/
def State.ctxAt (s : State) (t : Nat) : Nat := s.rd Reg.TEX_CTXBASE_BASE * 0x200000 + 8192 * t

/-- Two words as a codeword's data. -/
def pairWord (lo hi : Word) : DWord := hi ++ lo

/-- The 32 codewords of a register context; their layout is the model's own (R223 leaves it to the module). [DESIGN CHOICE, log 62] -/
def CtxSt.save (c : CtxSt) : List Cw :=
  (upFrom 0 16).map (fun i => Cw.mk (pairWord (c.greg (2 * i)) (c.greg (2 * i + 1))) false) ++
  [⟨pairWord c.pc c.tags, false⟩,
   ⟨pairWord (BitVec.ofNat 32 (b2n c.inHnd)) (c.fsticky.setWidth 32), false⟩,
   ⟨pairWord c.epc (c.ecause.setWidth 32), false⟩, ⟨pairWord c.eval c.hnum, false⟩, ⟨c.tt, false⟩,
   ⟨pairWord c.cycle c.hflags, false⟩, ⟨pairWord c.hdra c.tkflume, false⟩, ⟨pairWord c.tkstamp c.hthi, false⟩] ++
  List.replicate 8 Cw.zero

/-- Low and high word of a saved codeword. -/
def Cw.lo (c : Cw) : Word := c.data.setWidth 32
def Cw.hi (c : Cw) : Word := c.data.extractLsb' 32 32

/-- The context from its saved codewords; a register whose codeword reads poisoned is tagged (R223). [DESIGN CHOICE, log 62] -/
def CtxSt.load (l : List Cw) : CtxSt :=
  let at_ := fun i => l.getD i Cw.zero
  let c : CtxSt :=
    { pc := (at_ 16).lo, tags := (at_ 16).hi, inHnd := (at_ 17).lo.getLsbD 0, fsticky := (at_ 17).hi.setWidth 5
      epc := (at_ 18).lo, ecause := (at_ 18).hi.setWidth 16, eval := (at_ 19).lo, hnum := (at_ 19).hi
      tt := (at_ 20).data, cycle := (at_ 21).lo, hflags := (at_ 21).hi, hdra := (at_ 22).lo
      tkflume := (at_ 22).hi, tkstamp := (at_ 23).lo, hthi := (at_ 23).hi }
  (upFrom 1 31).foldl
    (fun a r =>
      let w := at_ (r / 2)
      a.setG r (if r % 2 = 0 then w.lo else w.hi) (c.tags.getLsbD r || w.poison)) c

/-- Deliver the oldest Landing load (R215). [DEDUCED, log 63] -/
def State.returnLoad (s : State) (e : Nat) : State :=
  match (s.eng e).loads with
  | [] => s
  | l :: rest =>
    let x := s.eng e
    let c1 := x.ctx.setG l.rd (l.data.setWidth 32) l.tag
    let c2 := if l.pair then c1.setG (l.rd + 1) (l.data.extractLsb' 32 32) l.tag else c1
    s.setEng e { x with ctx := c2, loads := rest }

/-- Deliver every outstanding load of an engine; `fuel` is the most there can be. -/
def State.returnAll : Nat → Nat → State → State
  | 0, _, s => s
  | n + 1, e, s => if (s.eng e).loads = [] then s else State.returnAll n e (s.returnLoad e)

/-- What a fence waits for (R220): every earlier load has returned and every waiting access of the engine is granted. -/
def State.fenced (s : State) (e : Nat) : State := (State.returnAll 16 e s).lndServe fun w => w.ofEngine e

/-- A fence completes (R220): loads have returned, stores been accepted, and the FENCE instruction is done. -/
def State.fenceDone (s : State) (e : Nat) : State :=
  let s1 := s.fenced e
  let x := s1.eng e
  if x.fence then s1.setEng e { x with fence := false, ctx := { x.ctx with pc := x.ctx.pc + 4#32 } } else s1

/-- Read codewords of an engine's data memory. -/
def State.dataRead (e : Nat) : Nat → Nat → State → List Cw × State
  | _, 0, s => ([], s)
  | w, n + 1, s =>
    let (c, s1) := s.readCw (.data e) w 7
    let (l, s2) := State.dataRead e (w + 1) n s1
    (c :: l, s2)

/-- Whether the Landing can take a task's context (R244). -/
def State.ctxSavable (s : State) (t : Nat) : Bool :=
  let len := 256 + (s.task t).desc.frame * 64
  inLanding (s.ctxAt t) len && (s.retTouched (s.ctxAt t) len).isEmpty

/-- Save the context of the task on an engine (R223). [DESIGN CHOICE, log 62] -/
def State.ctxSave (s : State) (e t : Nat) : State :=
  let d := (s.task t).desc
  let (fr, s1) := State.dataRead e (d.forg * 8) (d.frame * 8) s
  let s2 := s1.lndWriteCws (engPort e) (s1.ctxAt t) ((s1.eng e).ctx.save ++ fr)
  s2.setTask t { s2.task t with hasCtx := true }

/-- An engine stands idle. -/
def State.freeEngine (s : State) (e : Nat) : State :=
  s.setEng e { s.eng e with busy := false, loads := [], fence := false }

/-! ### Staged effects (R211) -/

/-- Hold an effect for the next tick boundary. -/
def State.stage (s : State) (rank k1 : Nat) (eff : Effect) : State :=
  { s with tex := { s.tex with
      held := s.tex.held ++ [⟨s.dtick, rank, k1, s.tex.arrival, eff⟩]
      arrival := s.tex.arrival + 1 } }

/-! ### Readiness (R190, R208) -/

/-- STRAND marks a READY task with no pool member in its mask, as long as it is so (R208). [DEDUCED, log 59] -/
def State.strand (s : State) (t : Nat) : State :=
  if s.tstate t = stReady ∧ !(allEngines.any fun e => s.inMask t e && s.isMember e) ∧ !s.bit Reg.TEX_DSTATE_STRAND t then
    ((s.wrB Reg.TEX_DSTATE_STRAND true t).setSticky 7 Reg.TEX_DSTAT_STRAND).tally 0x070A t
  else if s.bit Reg.TEX_DSTATE_STRAND t ∧ (s.tstate t ≠ stReady ∨ allEngines.any fun e => s.inMask t e && s.isMember e) then
    s.wrB Reg.TEX_DSTATE_STRAND false t
  else s

/-- The task becomes READY; a yield (`after` = 1) does so behind those that are READY by then (R199). [DEDUCED, log 59] -/
def State.makeReady (s : State) (t : Nat) (preempted : Bool := false) (after : Nat := 0) : State :=
  let s1 := s.setTask t { s.task t with readyNo := s.tex.readyNo, readyAt := s.time.edge + after, preempted := preempted }
  (({ s1 with tex := { s1.tex with readyNo := s1.tex.readyNo + 1 } }).setTstate t stReady).strand t

/-- Whether READY task `a` is served before `b` (R190): by priority, preempted tasks first, then by the edge at which they
became READY and the task number. [DEDUCED, log 59] -/
def State.readyBefore (s : State) (a b : Nat) : Bool :=
  let x := s.task a
  let y := s.task b
  decide (x.prio < y.prio) || (x.prio == y.prio &&
    (if x.preempted then !y.preempted || decide (y.readyNo < x.readyNo)
     else !y.preempted && (decide (x.readyAt < y.readyAt) || (x.readyAt == y.readyAt && decide (a < b)))))

/-- Insert a task into the order of R190. -/
def State.insertReady (s : State) (t : Nat) : List Nat → List Nat
  | [] => [t]
  | a :: l => if s.readyBefore t a then t :: a :: l else a :: s.insertReady t l

/-- READY tasks in the order of R190. -/
def State.readyOrder (s : State) : List Nat :=
  (allTasks.filter fun t => s.tstate t == stReady).foldl (fun l t => s.insertReady t l) []

/-! ### Waits and releases (R195 to R197) -/

/-- Whether a wait condition holds (R195). -/
def WaitSt.holds (w : WaitSt) (f : Nat) : Bool :=
  if w.andMode then Nat.land f w.mask == w.mask else Nat.land f w.mask != 0

/-- The flags of a task. -/
def State.flags (s : State) (t : Nat) : Nat := s.rd Reg.TEX_EFLAG_F t

/-- The expiry tick of a timeout of `d` µs that starts now (R199). -/
def State.expiry (s : State) (d : Nat) : Option Nat := if d = 0 then none else some (s.dtick + d)

/-- The release condition of an event task (R196). -/
def State.releaseCond (s : State) (t : Nat) : WaitSt :=
  ⟨s.rd Reg.TEX_DWAIT_MASK t, s.bit Reg.TEX_DWCTL_AND t, s.bit Reg.TEX_DWCTL_CONSUME t, s.expiry (s.rd Reg.TEX_DWCTL_TMO t), none⟩

/-- Release an event task (R168, R172). -/
def State.eventRelease (s : State) (t : Nat) : State :=
  s.release t ⟨s.dtick * 1000 % 2 ^ 64, 0, 0, s.T, 0, 0, 0⟩

/-- The wait of a task ends with `r` (R195, R196, R231): its release, or READY with `r` for its register. -/
def State.endWait (s : State) (t r : Nat) : State :=
  let x := s.task t
  let s1 := s.wr Reg.TEX_DREL_R r t
  match x.wait with
  | none => s1
  | some w =>
    match w.rd with
    | none => if s1.releasing then s1.eventRelease t else s1
    | some rd => (s1.setTask t { x with wait := none, pendRd := some (rd, BitVec.ofNat 32 r) }).makeReady t

/-- Whether a wait may end now: a release condition needs the program in RUN (R175). -/
def State.mayEnd (s : State) (w : WaitSt) : Bool := w.rd.isSome || s.releasing

/-- Test the wait of a task (R195): when it holds, deliver, consume, end. -/
def State.testWait (s : State) (t : Nat) : State :=
  match (s.task t).wait with
  | none => s
  | some w =>
    if s.tstate t = stWait ∧ w.holds (s.flags t) ∧ s.mayEnd w then
      let r := Nat.land (s.flags t) w.mask
      let s1 := if w.consume then s.rawFlags t (s.flags t - r) else s
      s1.endWait t r
    else s

/-- The wait of a task times out (R195): R is 0 and TOUT is set. -/
def State.waitOut (s : State) (t : Nat) : State :=
  match (s.task t).wait with
  | none => s
  | some w =>
    if s.tstate t = stWait ∧ s.mayEnd w then
      let s1 := s.wrB Reg.TEX_DSTATE_TOUT true t
      s1.endWait t 0
    else s

/-- The task enters WAIT on its release condition; in normal mode a condition that holds releases it at once (R196). -/
def State.awaitRelease (s : State) (t : Nat) : State :=
  let s1 := (s.setTask t { s.task t with wait := some (s.releaseCond t) }).setTstate t stWait
  if s1.det then s1 else s1.testWait t

/-- Where a task stands once its cycle has ended (R189): IDLE, or WAIT on the release condition, unless the program is in
STOP. -/
def State.afterCycle (s : State) (t : Nat) : State :=
  if (s.task t).kind = 2 ∧ s.progState ≠ 0 then s.awaitRelease t else s.setTstate t stIdle

/-! ### Flags (R194, R211) -/

/-- Set flags now. -/
def State.setFlagsNow (s : State) (t mask : Nat) : State := (s.rawFlags t (Nat.lor (s.flags t) mask)).testWait t
/-- Clear flags now. -/
def State.clrFlagsNow (s : State) (t mask : Nat) : State :=
  s.rawFlags t (s.flags t - Nat.land (s.flags t) mask)

/-- In replay, effects of ranks 1 to 4 come from the recording only (R412). -/
def State.dropsRank (s : State) (rank : Nat) : Bool := s.replaying && decide (1 ≤ rank) && decide (rank ≤ 4)

/-- A source of rank `rank` sets flags of a task (R194, R211). [DEDUCED, log 59] -/
def State.flagSet (s : State) (rank k1 t mask : Nat) : State :=
  if s.dropsRank rank then s
  else if s.det then s.stage rank k1 (.setF t mask) else s.setFlagsNow t mask

/-- A source of rank `rank` clears flags of a task. -/
def State.flagClear (s : State) (rank k1 t mask : Nat) : State :=
  if s.dropsRank rank then s
  else if s.det then s.stage rank k1 (.clrF t mask) else s.clrFlagsNow t mask

/-! ### Items (R203 to R205) -/

/-- The group flag of a group. -/
def State.groupFlag (s : State) (g : Nat) : Nat := 2 ^ s.rd Reg.TEX_GCFG_FLAG g

/-- A flume that has become eligible sets the group flag of every member (R203); in deterministic mode the boundary
assigns instead (R212). -/
def State.nowEligible (s : State) (f : Nat) : State :=
  if s.det || !s.eligible f then s
  else
    let (c, s1) := s.flumeCfg f
    s1.over (s1.members c.grp) fun t a => a.setFlagsNow t (a.groupFlag c.grp)

/-- Offer an item in normal mode (R203): cause and state. -/
def State.postNow (s : State) (flume arg : Nat) (poison : Bool) (src obj : Nat) : Nat × State :=
  let was := s.eligible flume
  let (c, s1) := s.offer flume arg poison src s.dtick
  if c = 0 then (0, if was then s1 else s1.nowEligible flume)
  else (c, s1.refusePost c flume obj false)

/-- A post by a source (R203, R211, R233): 0 to 3 in normal mode, 4 when the boundary decides. -/
def State.postFrom (s : State) (rank k1 flume arg : Nat) (poison : Bool) (obj : Nat) : Nat × State :=
  if s.dropsRank rank then (0, s)
  else if s.det then (4, s.stage rank k1 (.post flume arg poison rank obj))
  else s.postNow flume arg poison rank obj

/-- An item returns to the head of its flume (R205); in deterministic mode at the next boundary (R212). -/
def State.returnItem (s : State) (i : Item) (counted : Bool) : State :=
  if s.det then s.placeItem i (.back counted)
  else
    let s1 := (s.placeItem i .queued).nowEligible i.flume
    if counted then s1.inc Reg.TEX_DCNT_RETURN else s1

/-- Return the items a task owns: those in its slot, and with `taken` those it took and did not complete (R205). -/
def State.returnItems (s : State) (t : Nat) (taken : Bool) : State :=
  let s1 := s.over (s.tex.items.filter fun i => i.place == .slot t) fun i a => a.returnItem i false
  if taken then s1.over (s1.tex.items.filter fun i => i.place == .taken t) fun i a => a.returnItem i true else s1

/-! ### The end of a cycle (R164, R168, R236, R243) -/

/-- The dispatcher's part of a cycle end: at once, or at the next boundary in deterministic mode (R211). An event task stands
in WAIT until then as well (R189), on a condition that the boundary sets. -/
def State.endDispatch (s : State) (t : Nat) : State :=
  if s.det then
    let st := if (s.task t).kind = 2 ∧ s.progState ≠ 0 then stWait else stIdle
    ((s.setTask t { s.task t with wait := none }).setTstate t st).stage 6 t (.cycleEnd t)
  else s.afterCycle t

/-- CEND: items return, the engine is free, the outputs publish at their instant (R164, R168, R236). -/
def State.cycleEnd (s : State) (e t : Nat) : State :=
  let s1 := (s.freeEngine e).returnItems t true
  let x := s1.task t
  if x.kind = 1 ∧ s1.T < x.pubAt then
    (s1.setTask t { x with isOpen := false, toPublish := true }).endDispatch t
  else (s1.publish t).endDispatch t

/-- Refuse or end an online change with a cause (R182). -/
def State.ocRefuse (s : State) (cause : Nat) : State :=
  let s1 := ({ s with tex := { s.tex with oc := none } }).wrB Reg.TEX_OCCTL_ARM false
  ((s1.wr Reg.TEX_OCSTAT_CAUSE cause).setSticky 7 Reg.TEX_OCSTAT_REJ).tally 0x0707 0 cause

/-- CMD STOP (R175): no further releases; an armed online change is interrupted (R182). -/
def State.programStop (s : State) : State :=
  if s.progState = 1 ∧ !s.tex.stopping then
    let s1 := { s with tex := { s.tex with stopping := true } }
    if s1.tex.oc.isSome then s1.ocRefuse 5 else s1
  else s

/-- The cycle of a task ends without publish. -/
def State.dropCycle (s : State) (e t : Nat) : State :=
  let s1 := (s.freeEngine e).returnItems t true
  let x := s1.task t
  (((s1.setTask t { x with isOpen := false, toPublish := false, prevLate := x.lateNow }).wrB Reg.TEX_TSTAT_RUNNING false t).gather
    t).endDispatch t

/-- An exception without a handler abandons the cycle (R243). -/
def State.abandon (s : State) (e t code role : Nat) (pc eval : Word) : State :=
  let s0 := s.dip 7
  let s1 := ((s0.wr Reg.TEX_XSTAT_TASK t e).wr Reg.TEX_XSTAT_ROLE role e).wr Reg.TEX_XSTAT_CODE code e
  let s2 := ((s1.wr Reg.TEX_XPC_PC pc.toNat e).wr Reg.TEX_XVAL_VAL eval.toNat e).setSticky 7 Reg.TEX_XSTAT_XV e
  let s3 := (s2.inc Reg.TEX_XCNT_ABANDON t).tally 0x070C t (code + 256 * role) pc.toNat e
  let s4 := if s3.bit Reg.TEX_XCTL_STOPX then s3.programStop else s3
  s4.dropCycle e t

/-! ### Engine faults and leaving (R208, R244) -/

/-- READY tasks that a shrunken pool leaves without an engine. -/
def State.strandAll (s : State) : State := s.over allTasks fun t a => a.strand t

/-- Locator of an engine fault: the code word, or the engine as a tile (R16). [DEDUCED, log 65] -/
def faultLocator (e cause w : Nat) : Nat := if cause = 1 then cwLocator (.code e) w none else locator 4 0 7 e 0 0 0

/-- An engine fault (R208, R244): a dip where the pair asks for one, the cycle dropped, the engine out of the pool. -/
def State.engineFault (s : State) (e cause w : Nat) : State :=
  let s0 := s.dip 6
  let s1 := (s0.clrBitOf Reg.TEX_EPOOL_MEMBER e).setSummary 7 Reg.TEX_EPOOL_FAULT e
  let s2 := (s1.wr Reg.TEX_EFLT_CAUSE cause e).tallyLoc 0x0709 (faultLocator e cause w) e e
  let s3 := if (s2.eng e).busy then s2.dropCycle e (s2.eng e).task else s2
  s3.strandAll

/-- Take the task off an engine with its context saved and its slot returned (R192, R205, R223); the flag is false when the
context could not be saved and the engine has faulted (R244). -/
def State.takeOff (s : State) (e : Nat) : Bool × State :=
  let s1 := s.fenceDone e
  let t := (s1.eng e).task
  if s1.ctxSavable t then (true, ((s1.ctxSave e t).freeEngine e).returnItems t false)
  else (false, s1.engineFault e 3 0)

/-- A task waits or delays within its cycle: it leaves its engine for state `st` (R195, R198, R199). -/
def State.leaveFor (s : State) (e st : Nat) (f : TaskSt → TaskSt) : State :=
  let t := (s.eng e).task
  match s.takeOff e with
  | (true, s1) => (s1.setTask t (f (s1.task t))).setTstate t st
  | (false, s1) => s1

/-! ### Dispatch and preemption (R190 to R193) -/

/-- Set an engine up for a released task (R217): registers clear, header copies loaded. -/
def State.setUp (s : State) (e t : Nat) : State :=
  let d := (s.task t).desc
  let ((b, _), s1) := s.lndBytes (engPort e) d.hdr 32
  let w := fun i => BitVec.ofNat 32 (fieldAt b i 4)
  s1.setCtx e { (s1.eng e).ctx with
    g := [], tags := 0#32, fsticky := 0#5, inHnd := false, pc := BitVec.ofNat 32 (d.entry * 4)
    tt := BitVec.ofNat 64 (fieldAt b 0 8), hnum := w 8, cycle := w 12, hflags := w 16
    hdra := BitVec.ofNat 32 (0x80000000 + d.hdr) }

/-- Write codewords to an engine's data memory. -/
def State.dataWrite (s : State) (e w : Nat) (l : List Cw) : State :=
  ((upFrom 0 l.length).zip l).foldl (fun a ic => a.setMem (.data e) ((a.mem (.data e)).put (w + ic.1) ic.2)) s

/-- Restore a context (R223): pc or STATUS read poisoned abandons the cycle as an unhandled POISON. -/
def State.restore (s : State) (e t : Nat) : State :=
  let d := (s.task t).desc
  let (l, s1) := s.lndRead (engPort e) (s.ctxAt t) (32 + d.frame * 8)
  let c := CtxSt.load (l.take 32)
  if (l.getD 16 Cw.zero).poison || (l.getD 17 Cw.zero).poison then s1.abandon e t 4 0 c.pc 0#32
  else
    let x := s1.task t
    let c1 := match x.pendRd with | some (rd, v) => c.setG rd v false | none => c
    ((s1.dataWrite e (d.forg * 8) (l.drop 32)).setCtx e c1).setTask t { x with pendRd := none }

/-- Start a task on an engine. -/
def State.startOn (s : State) (e t : Nat) : State :=
  let no := s.tex.dispNo
  let s1 := { s with tex := { s.tex with dispNo := no + 1 } }
  let s2 := s1.setEng e { s1.eng e with busy := true, task := t, loads := [], fence := false, dispNo := no }
  let s3 := ((s2.wr Reg.TEX_DSTATE_ENG e t).wrB Reg.TEX_DSTATE_STRAND false t).setTstate t stRun
  if (s3.task t).hasCtx then s3.restore e t else s3.setUp e t

/-- The lowest idle pool engine of a task's mask (R191). -/
def State.idleFor (s : State) (t : Nat) : Option Nat :=
  allEngines.find? fun e => s.inMask t e && s.isMember e && !(s.eng e).busy

/-- DISPATCH: the first READY task that can have an idle engine gets the lowest (R190, R191). -/
def execDispatch (s : State) : Host.Outcome State Fault Refusal :=
  match s.readyOrder.findSome? fun t => (s.idleFor t).map fun e => (t, e) with
  | some (t, e) => .next (s.startOn e t)
  | none => .next s

/-- Whether victim engine `a` is preferred to `b` (R192). -/
def State.victimBefore (s : State) (a b : Nat) : Bool :=
  let pa := (s.task (s.eng a).task).prio
  let pb := (s.task (s.eng b).task).prio
  decide (pb < pa) || (pa == pb && (decide ((s.eng b).dispNo < (s.eng a).dispNo) || ((s.eng a).dispNo == (s.eng b).dispNo && decide (b < a))))

/-- The engine that a READY task preempts (R192). -/
def State.victimFor (s : State) (t : Nat) : Option Nat :=
  let c := allEngines.filter fun e =>
    s.inMask t e && s.isMember e && (s.eng e).busy && decide ((s.task t).prio < (s.task (s.eng e).task).prio)
      && !s.bit Reg.TEX_DCFG_NOPRE (s.eng e).task
  c.foldl (fun b e => match b with | none => some e | some x => if s.victimBefore e x then some e else some x) none

/-- PREEMPT: the first READY task without an idle engine that has a victim takes its engine (R192). -/
def execPreempt (s : State) : Host.Outcome State Fault Refusal :=
  match s.readyOrder.findSome? fun t => if (s.idleFor t).isSome then none else (s.victimFor t).map fun e => (t, e) with
  | none => .next s
  | some (t, e) =>
    let v := (s.eng e).task
    match s.takeOff e with
    | (true, s1) => .next ((s1.makeReady v true).startOn e t)
    | (false, s1) => .next s1

/-- SNAPSHOT_COMPLETE: the released task becomes READY (R163, R189). -/
def execSnapshotComplete (t : Fin 256) (s : State) : Host.Outcome State Fault Refusal :=
  if s.tstate t = stSnap then .next (s.makeReady t) else .next s

/-- Items that travel with a task's release or stand in its slot. -/
def State.slotCount (s : State) (t : Nat) : Nat := (s.tex.items.filter fun i => i.place == .slot t).length

/-- SLOT_FILL: one item into the prefetch slot of the member on an engine, while it has room (R207). -/
def execSlotFill (e : Fin 8) (s : State) : Host.Outcome State Fault Refusal :=
  let t := (s.eng e).task
  let g := s.rd Reg.TEX_DCFG_GRP t
  if !(s.eng e).busy || s.det || !s.bit Reg.TEX_DCFG_GEN t || s.bit Reg.TEX_GCFG_NOSLOT g
      || decide (2 ≤ s.slotCount t) then .next s
  else match s.nextHead g with
    | (some i, s1) => .next (s1.placeItem i (.slot t))
    | (none, s1) => .next s1

/-! ### Events on flags and lists -/

/-- EFLAG_SET: the host writes 1 to bits of TEX_EFLAGt (R194). -/
def execEflagSet (t : Fin 256) (mask : Word) (s : State) : Host.Outcome State Fault Refusal := .next (s.flagSet 4 0 t mask.toNat)
/-- EFLAG_CLEAR: the host writes 1 to bits of TEX_EFLAGCt (R194). -/
def execEflagClear (t : Fin 256) (mask : Word) (s : State) : Host.Outcome State Fault Refusal := .next (s.flagClear 4 0 t mask.toNat)

/-- Insert a task into the order of priority and task number. -/
def State.insertPrio (s : State) (t : Nat) : List Nat → List Nat
  | [] => [t]
  | a :: l =>
    if (s.task t).prio < (s.task a).prio ∨ ((s.task t).prio = (s.task a).prio ∧ t < a) then t :: a :: l else a :: s.insertPrio t l

/-- Tasks in the order in which R190 serves those that become READY at one instant. -/
def State.byPrio (s : State) (l : List Nat) : List Nat := l.foldl (fun acc t => s.insertPrio t acc) []

/-- The expiry of a timeout of a task's wait (R195, R197, R211). -/
def State.waitExpires (s : State) (t : Nat) : State :=
  if s.det then s.stage 0 t (.expiry t) else (s.testWait t).waitOut t

/-- The boundary at which a task in DELAY or in a WAIT with a timeout expires. -/
def State.expiresAt (s : State) (t : Nat) : Option Nat :=
  let x := s.task t
  if s.tstate t = stDelay then x.delayDue
  else if s.tstate t = stWait then (match x.wait with | some w => w.due | none => none)
  else none

/-- Every task that expires at the boundary `j` becomes READY or is released there, in the order of R190 (R200). -/
def State.expireAll (s : State) (j : Nat) : State :=
  s.over (s.byPrio (allTasks.filter fun t => s.expiresAt t == some j)) fun t a =>
    if a.tstate t = stDelay then (a.setTask t { a.task t with delayDue := none }).makeReady t
    else a.waitExpires t

/-- WAIT_TIMEOUT: the boundary at which the wait of a task times out if it still does not hold (R195, R197, R199, R200). -/
def execWaitTimeout (t : Fin 256) (s : State) : Host.Outcome State Fault Refusal :=
  match s.expiresAt t with
  | some j => if s.tstate t = stWait then .next ((s.advanceTo (j * 1000)).expireAll j) else .next s
  | none => .next s

/-- DELAY_EXPIRY: the boundary at which a task's delay ends (R199, R200). -/
def execDelayExpiry (t : Fin 256) (s : State) : Host.Outcome State Fault Refusal :=
  match s.expiresAt t with
  | some j => if s.tstate t = stDelay then .next ((s.advanceTo (j * 1000)).expireAll j) else .next s
  | none => .next s

/-- Tasks in HWAIT on ring `n` whose hoist has come, or whose ring stopped, become READY (R198, R231). -/
def State.hoistWake (s : State) (n : Nat) (stopped : Bool) : State :=
  s.over allTasks fun t a =>
    match (a.task t).hwait with
    | some (ring, hn, rd) =>
      if ring = n ∧ a.tstate t = stDelay ∧ (stopped ∨ sInt 32 (hn + 2 ^ 32 - a.rd Reg.HST_RHNUM_HNUM n) ≤ 0) then
        (a.setTask t { a.task t with hwait := none, pendRd := some (rd, if stopped then 1#32 else 0#32) }).makeReady t
      else a
    | none => a

/-! ### The pool (R208, R209) -/

/-- LEAVE: the task is preempted and the engine leaves the pool (R208). -/
def State.engineLeave (s : State) (e : Nat) : State :=
  if !s.isMember e then s
  else
    let v := (s.eng e).task
    let (ok, s1) := if (s.eng e).busy then s.takeOff e else (true, s)
    let s2 := (s1.clrBitOf Reg.TEX_EPOOL_MEMBER e).tally 0x0708 e 0 0 e
    let s3 := if ok && (s.eng e).busy then s2.makeReady v true else s2
    s3.strandAll
/-- ENGINE_LEAVE. -/
def execEngineLeave (e : Fin 8) (s : State) : Host.Outcome State Fault Refusal := .next (s.engineLeave e)

/-- ENGINE_FAULT: an uncorrectable error shows in an engine of the pool (R244). -/
def execEngineFault (e : Fin 8) (cause : Fin 4) (w : Nat) (s : State) : Host.Outcome State Fault Refusal :=
  if s.isMember e ∧ cause.val ≠ 0 then .next (s.engineFault e cause w) else .next s

/-- JOIN: an engine outside the pool and not already returning starts its memory test (R209). -/
def State.engineJoin (s : State) (e : Nat) : State :=
  if s.isMember e || bitAt (s.rd Reg.TEX_EPOOL_TESTING) e || s.tex.joining.contains e then s
  else s.setBitOf Reg.TEX_EPOOL_TESTING e
/-- ENGINE_JOIN. -/
def execEngineJoin (e : Fin 8) (s : State) : Host.Outcome State Fault Refusal := .next (s.engineJoin e)

/-- An engine becomes a member: stranded tasks it can serve are stranded no longer (R209). -/
def State.enterPool (s : State) (e : Nat) : State :=
  let s1 := ({ s with tex := { s.tex with joining := setDel s.tex.joining e } }).setBitOf Reg.TEX_EPOOL_MEMBER e
  s1.over allTasks fun t a => if a.inMask t e then a.wrB Reg.TEX_DSTATE_STRAND false t else a

/-- The join of a loaded engine as the dispatcher sees it arrive: staged for the next boundary in deterministic mode (R211). -/
def State.joinStage (s : State) (e : Nat) : State :=
  ({ s with tex := { s.tex with joining := setDel s.tex.joining e } }).stage 6 (256 + e) (.join e)

/-- Clear TEX_DCNT. -/
def State.dispatchClr (s : State) : State := (s.wr Reg.TEX_DCNT_RETURN 0).wr Reg.TEX_DCNT_POSTREJ 0
/-- DISPATCH_CLRCNT. -/
def execDispatchClrcnt (s : State) : Host.Outcome State Fault Refusal := .next s.dispatchClr

/-! ### The tick boundary in deterministic mode (R211 to R214) -/

/-- Order of two held effects (R211). [DEDUCED, log 59] -/
def HeldEffect.before (a b : HeldEffect) : Bool :=
  let ka := [a.stamp, a.rank, a.k1, a.arrival]
  let kb := [b.stamp, b.rank, b.k1, b.arrival]
  decide (ka < kb)

/-- Insert an effect into the order of R211. -/
def insertEffect (x : HeldEffect) : List HeldEffect → List HeldEffect
  | [] => [x]
  | a :: l => if x.before a then x :: a :: l else a :: insertEffect x l

/-- Apply one effect; waits are tested after all of them (R212). -/
def State.applyEffect (s : State) (h : HeldEffect) : State :=
  match h.eff with
  | .setF t m => s.rawFlags t (Nat.lor (s.flags t) m)
  | .clrF t m => s.clrFlagsNow t m
  | .post f arg p src obj =>
    let r := s.offer f arg p src h.stamp
    let s1 := if src = 4 && !s.replaying then { r.2 with hif := { r.2.hif with postRes := some r.1 } } else r.2
    if r.1 = 0 then s1 else s1.refusePost r.1 f obj (decide (src = 5))
  | .fin _ f => s.over ((s.flumeItems f).filter fun i => i.place == .ended) fun i a => a.dropItem i
  | .cycleEnd t =>
    if s.tstate t = stWait ∧ (s.task t).wait = none ∧ s.progState ≠ 0 then s.awaitRelease t else s
  | .expiry _ => s
  | .join e => s.enterPool e

/-- Items whose return was due at this boundary go back to their flume heads (R212). -/
def State.settleReturns (s : State) : State :=
  s.over s.tex.items fun i a => match i.place with
    | .back c => let b := a.placeItem i .queued
                 if c then b.inc Reg.TEX_DCNT_RETURN else b
    | _ => a

/-- Whether a group member waits for its release on the group flag (R212). -/
def State.wantsItems (s : State) (t g : Nat) : Bool :=
  match (s.task t).wait with
  | some w => s.tstate t == stWait && w.rd.isNone && bitAt w.mask (s.rd Reg.TEX_GCFG_FLAG g)
  | none => false

/-- Give a member one item of its group and the group flag, while its two-entry slot has room (R207, R212). -/
def State.assignOne (s : State) (t g : Nat) : State :=
  if 2 ≤ s.slotCount t then s
  else match s.nextHead g with
  | (some i, s1) => (s1.placeItem i (.slot t)).rawFlags t (Nat.lor (s1.flags t) (s1.groupFlag g))
  | (none, s1) => s1

/-- Members of a group in ascending priority number, then task number. -/
def State.membersByPrio (s : State) (g : Nat) : List Nat :=
  (upFrom 0 64).flatMap fun p => (s.members g).filter fun t => (s.task t).prio == p

/-- GROUP_ASSIGN (R212): up to two items per waiting member of each group. -/
def State.groupAssign (s : State) : State :=
  if s.tex.items = [] then s
  else s.over (upFrom 0 64) fun g a =>
    a.over (a.membersByPrio g) fun t b => if b.wantsItems t g then (b.assignOne t g).assignOne t g else b

/-- The DISP entry of an effect (R405). -/
def HeldEffect.entry (h : HeldEffect) : Nat × Cw × Cw :=
  let aux := fun kind task flume => h.rank % 8 + kind * 16 + task % 256 * 256 + flume % 4096 * 65536
  let z := Cw.zero
  match h.eff with
  | .setF t m => (aux 1 t 0, ⟨BitVec.ofNat 64 m, false⟩, z)
  | .clrF t m => (aux 2 t 0, ⟨BitVec.ofNat 64 m, false⟩, z)
  | .post f arg p _ obj => (aux 3 obj f, z, ⟨BitVec.ofNat 64 arg, p⟩)
  | .fin t f => (aux 4 t f, z, z)
  | .cycleEnd t => (aux 5 t 0, z, z)
  | .expiry t => (aux 6 t 0, z, z)
  | .join e => (aux 7 e 0, z, z)

/-- AUX and data of an entry, as a replay compares them (R414). -/
def rsCompared (e : RsEntry) : Nat := e.toNat / 2 ^ 96

/-- The effects of ranks 0, 5 and 6 of a boundary compared with the recorded ones (R414). -/
def State.compareDisp (s : State) (l : List HeldEffect) : State :=
  let own := (l.filter fun h => h.rank == 0 || h.rank == 5 || h.rank == 6).map fun h =>
    let (aux, a, b) := h.entry
    rsCompared (rsEntry (.tick s.dtick) 0 11 0 aux false a (some b))
  let rec' := s.tly.rpDisp.map rsCompared
  let s1 := { s with tly := { s.tly with rpDisp := [] } }
  if own = rec' || s.bit Reg.TLY_RPSTAT_DIVERGE then s1
  else (s1.setSticky 13 Reg.TLY_RPSTAT_DIVERGE).wr Reg.TLY_RPDIV_TICK s1.dtick

/-- Report the effects of a boundary (R213), or compare them in a replay (R414). -/
def State.reportDisp (s : State) (l : List HeldEffect) : State :=
  if s.replaying then s.compareDisp l
  else s.over l fun h a =>
    let (aux, x, y) := h.entry
    a.report (.tick a.dtick) 0 11 aux false x (some y)

/-- The dispatcher's work at a boundary (R211 to R213); waits end in the order of R190 (R200). -/
def State.tickEffects (s : State) : State :=
  if !s.det then s
  else
    let due := (s.tex.held.filter fun h => decide (h.stamp < s.dtick)).foldl (fun l h => insertEffect h l) []
    let s1 := { s with tex := { s.tex with held := s.tex.held.filter fun h => !decide (h.stamp < s.dtick) } }
    let s2 := (s1.over due fun h a => a.applyEffect h).settleReturns.groupAssign
    let expired := due.filterMap fun h => match h.eff with | .expiry t => some t | _ => none
    let s3 := s2.over (s2.byPrio (allTasks.filter fun t => s2.tstate t == stWait)) fun t a =>
      let b := a.testWait t
      if expired.contains t then b.waitOut t else b
    s3.reportDisp due

/-! ### Restart (R206) -/

/-- Events C and H, and the start of a recording: items, flags, delays and waits go; one record if items went (R206). -/
def State.dispatcherClear (s : State) : State :=
  let n := s.tex.items.length
  let fl := s.tex.items.foldl (fun a i => setIns a i.flume) []
  let s1 := { s with tex := { s.tex with items := [], held := [] } }
  let s2 := s1.over fl fun f a => a.flumeStat f
  let s3 := s2.over allTasks fun t a =>
    let b := if a.flags t = 0 then a else a.rawFlags t 0
    b.setTask t { b.task t with wait := none, delayDue := none, hwait := none, pendRd := none }
  (s3.wr Reg.TEX_DSTAT_NFREE 16384).tally 0x070D 0 0 n

end Sys2Proof.Machine
end

