-- ==== Sys2Proof/Machine/Float.lean ====
section
/-! DEFINITION. IEEE 754 binary32 and binary64 arithmetic on codes (R8, R72, R227, R228): every
operation computes the exact result and rounds it once. -/
namespace Sys2Proof.Machine

/-- A binary format: `p` significand bits with the hidden one, `eb` exponent bits. -/
structure Fmt where
  p : Nat
  eb : Nat
deriving DecidableEq, Repr

/-- binary32. -/
def b32 : Fmt := ⟨24, 8⟩
/-- binary64. -/
def b64 : Fmt := ⟨53, 11⟩

/-- A decoded value: a NaN with its code, a signed infinity, or the signed `m × 2^e`. -/
inductive FVal where
  | nan (quiet : Bool) (code : Nat)
  | inf (neg : Bool)
  | fin (neg : Bool) (m : Nat) (e : Int)
deriving DecidableEq, Repr

/-- Rounding modes of R227. -/
inductive RMode where
  | nearestEven | towardZero | down | up | nearestAway
deriving DecidableEq, Repr

/-- The five sticky conditions of R228. -/
structure FFlags where
  invalid : Bool := false
  divByZero : Bool := false
  overflow : Bool := false
  underflow : Bool := false
  inexact : Bool := false
deriving DecidableEq, Repr

/-- Both sets of conditions. -/
def FFlags.join (a b : FFlags) : FFlags :=
  ⟨a.invalid || b.invalid, a.divByZero || b.divByZero, a.overflow || b.overflow,
   a.underflow || b.underflow, a.inexact || b.inexact⟩

/-- A result code with the conditions it raises. -/
abbrev FRes := Nat × FFlags

/-- Exponent bias. -/
def Fmt.bias (f : Fmt) : Int := (2 : Int) ^ (f.eb - 1) - 1
/-- Weight of the lowest significand bit of a subnormal. -/
def Fmt.qmin (f : Fmt) : Int := 1 - f.bias - ((f.p : Int) - 1)
/-- Total width of a code. -/
def Fmt.width (f : Fmt) : Nat := f.p + f.eb
/-- Code of an infinity. -/
def Fmt.infCode (f : Fmt) (neg : Bool) : Nat :=
  b2n neg * 2 ^ (f.width - 1) + (2 ^ f.eb - 1) * 2 ^ (f.p - 1)
/-- Code of the largest finite value. -/
def Fmt.maxCode (f : Fmt) (neg : Bool) : Nat := f.infCode neg - 1
/-- Code of the NaN an invalid operation returns (R228: 0x7FC0_0000 in binary32). -/
def Fmt.qnan (f : Fmt) : Nat := f.infCode false + 2 ^ (f.p - 2)
/-- Code of a zero. -/
def Fmt.zeroCode (f : Fmt) (neg : Bool) : Nat := b2n neg * 2 ^ (f.width - 1)

/-- Decode a code. -/
def fDec (f : Fmt) (v : Nat) : FVal :=
  let m := v % 2 ^ (f.p - 1)
  let e := bitsOf v (f.p - 1) f.eb
  let neg := bitAt v (f.width - 1)
  if e = 2 ^ f.eb - 1 then
    if m = 0 then .inf neg else .nan (bitAt v (f.p - 2)) (v % 2 ^ f.width)
  else if e = 0 then .fin neg m f.qmin
  else .fin neg (m + 2 ^ (f.p - 1)) (f.qmin + (e : Int) - 1)

/-- Whether a discarded part rounds the magnitude up. `twice` compares twice the rest with one unit. -/
def roundsUp (rm : RMode) (neg odd : Bool) (rest unit : Nat) : Bool :=
  match rm with
  | .nearestEven => decide (2 * rest > unit) || (decide (2 * rest = unit) && odd)
  | .nearestAway => decide (2 * rest ≥ unit)
  | .towardZero => false
  | .down => neg && decide (rest ≠ 0)
  | .up => !neg && decide (rest ≠ 0)

/-- Round the exact `m × 2^e` to an integer multiple of `2^q`: the multiple and whether it is exact. -/
def roundAt (rm : RMode) (neg : Bool) (m : Nat) (e q : Int) : Nat × Bool :=
  if e ≥ q then (m * 2 ^ (e - q).toNat, true)
  else
    let k := (q - e).toNat
    let unit := 2 ^ k
    let c := m / unit
    let r := m % unit
    (if roundsUp rm neg (c % 2 == 1) r unit then c + 1 else c, r == 0)

/-- Round the exact value to a code of format `f`; tininess is detected before rounding (R228). -/
def fEnc (f : Fmt) (rm : RMode) (neg : Bool) (m : Nat) (e : Int) : FRes :=
  if m = 0 then (f.zeroCode neg, {})
  else
    let top := e + (Nat.log2 m : Int)
    let q := max (top - ((f.p : Int) - 1)) f.qmin
    let tiny := decide (top < 1 - f.bias)
    let r := roundAt rm neg m e q
    let (c, q) := if r.1 = 2 ^ f.p then (2 ^ (f.p - 1), q + 1) else (r.1, q)
    let exact := r.2
    let fl : FFlags := { inexact := !exact, underflow := tiny && !exact }
    if q > f.bias - ((f.p : Int) - 1) then
      let toInf := match rm with
        | .nearestEven => true | .nearestAway => true | .towardZero => false
        | .down => neg | .up => !neg
      (if toInf then f.infCode neg else f.maxCode neg, { overflow := true, inexact := true })
    else if c < 2 ^ (f.p - 1) then (f.zeroCode neg + c, fl)
    else (f.zeroCode neg + ((q - f.qmin).toNat + 1) * 2 ^ (f.p - 1) + (c - 2 ^ (f.p - 1)), fl)

/-- A NaN operand's code with its quiet bit set. -/
def quietCode (f : Fmt) (c : Nat) : Nat := if bitAt c (f.p - 2) then c else c + 2 ^ (f.p - 2)

/-- The NaN rule of R228: the first NaN among the operands, quieted; INVALID if one is signalling. -/
def nanRule (f : Fmt) (ops : List FVal) : Option FRes :=
  let sig := ops.any (fun v => match v with | .nan q _ => !q | _ => false)
  match ops.find? (fun v => match v with | .nan _ _ => true | _ => false) with
  | some (.nan _ c) => some (quietCode f c, { invalid := sig })
  | _ => none

/-- The result of an invalid operation (R228). -/
def invalidRes (f : Fmt) : FRes := (f.qnan, { invalid := true })

/-- Sum of two signed finite values, exact, at the lower exponent. -/
def addExact (s1 : Bool) (m1 : Nat) (e1 : Int) (s2 : Bool) (m2 : Nat) (e2 : Int) : Int × Int :=
  let e := min e1 e2
  let a : Int := (m1 : Int) * (2 : Int) ^ (e1 - e).toNat
  let b : Int := (m2 : Int) * (2 : Int) ^ (e2 - e).toNat
  ((if s1 then -a else a) + (if s2 then -b else b), e)

/-- The sign of an exact zero sum: equal signs keep theirs, unequal ones give − only toward −∞. -/
def zeroSign (rm : RMode) (s1 s2 : Bool) : Bool := if s1 = s2 then s1 else rm == .down

/-- Add two decoded values. -/
def addVal (f : Fmt) (rm : RMode) (a b : FVal) : FRes :=
  match a, b with
  | .inf s1, .inf s2 => if s1 = s2 then (f.infCode s1, {}) else invalidRes f
  | .inf s1, _ => (f.infCode s1, {})
  | _, .inf s2 => (f.infCode s2, {})
  | .fin s1 m1 e1, .fin s2 m2 e2 =>
    let (x, e) := addExact s1 m1 e1 s2 m2 e2
    if x = 0 then (f.zeroCode (zeroSign rm s1 s2), {})
    else fEnc f rm (decide (x < 0)) x.natAbs e
  | _, _ => invalidRes f

/-- The value with its sign inverted. -/
def negVal : FVal → FVal
  | .inf s => .inf (!s)
  | .fin s m e => .fin (!s) m e
  | v => v

/-- Sum. -/
def fAdd (f : Fmt) (rm : RMode) (x y : Nat) : FRes :=
  let a := fDec f x
  let b := fDec f y
  match nanRule f [a, b] with
  | some r => r
  | none => addVal f rm a b

/-- Difference. -/
def fSub (f : Fmt) (rm : RMode) (x y : Nat) : FRes :=
  let a := fDec f x
  let b := fDec f y
  match nanRule f [a, b] with
  | some r => r
  | none => addVal f rm a (negVal b)

/-- Product of two decoded values, neither a NaN, unrounded; `none` for 0 × ∞. -/
def mulVal (a b : FVal) : Option FVal :=
  match a, b with
  | .inf s1, .inf s2 => some (.inf (s1 != s2))
  | .inf s1, .fin s2 m _ => if m = 0 then none else some (.inf (s1 != s2))
  | .fin s1 m _, .inf s2 => if m = 0 then none else some (.inf (s1 != s2))
  | .fin s1 m1 e1, .fin s2 m2 e2 => some (.fin (s1 != s2) (m1 * m2) (e1 + e2))
  | _, _ => none

/-- Encode a decoded value. -/
def encVal (f : Fmt) (rm : RMode) : FVal → FRes
  | .nan _ c => (c, {})
  | .inf s => (f.infCode s, {})
  | .fin s m e => fEnc f rm s m e

/-- Product. -/
def fMul (f : Fmt) (rm : RMode) (x y : Nat) : FRes :=
  let a := fDec f x
  let b := fDec f y
  match nanRule f [a, b] with
  | some r => r
  | none => match mulVal a b with
    | some v => encVal f rm v
    | none => invalidRes f

/-- `x × y + z` rounded once; `np` inverts the product, `nz` the addend. -/
def fFma (f : Fmt) (rm : RMode) (np nz : Bool) (x y z : Nat) : FRes :=
  let a := fDec f x
  let b := fDec f y
  let c := fDec f z
  match nanRule f [a, b, c] with
  | some r => r
  | none => match mulVal a b with
    | some v => addVal f rm (if np then negVal v else v) (if nz then negVal c else c)
    | none => invalidRes f

/-- Quotient. -/
def fDiv (f : Fmt) (rm : RMode) (x y : Nat) : FRes :=
  let a := fDec f x
  let b := fDec f y
  match nanRule f [a, b] with
  | some r => r
  | none => match a, b with
    | .inf _, .inf _ => invalidRes f
    | .inf s1, .fin s2 _ _ => (f.infCode (s1 != s2), {})
    | .fin s1 _ _, .inf s2 => (f.zeroCode (s1 != s2), {})
    | .fin s1 m1 e1, .fin s2 m2 e2 =>
      if m2 = 0 then
        if m1 = 0 then invalidRes f else (f.infCode (s1 != s2), { divByZero := true })
      else
        let k := 2 * f.p + 4
        let n := m1 * 2 ^ k
        let q := 2 * (n / m2) + b2n (decide (n % m2 ≠ 0))
        fEnc f rm (s1 != s2) q (e1 - e2 - (k : Int) - 1)
    | _, _ => invalidRes f

/-- Square root. -/
def fSqrt (f : Fmt) (rm : RMode) (x : Nat) : FRes :=
  match fDec f x with
  | .nan q c => (quietCode f c, { invalid := !q })
  | .inf s => if s then invalidRes f else (f.infCode false, {})
  | .fin s m e =>
    if m = 0 then (f.zeroCode s, {})
    else if s then invalidRes f
    else
      let k := 2 * f.p + 4
      let odd := e % 2 ≠ 0
      let n := (if odd then 2 * m else m) * 4 ^ k
      let e' := if odd then e - 1 else e
      let r := isqrt n
      fEnc f rm false (2 * r + b2n (decide (r * r ≠ n))) (e' / 2 - (k : Int) - 1)

/-- Order of two finite or infinite values. -/
def valLt (a b : FVal) : Bool :=
  match a, b with
  | .inf s1, .inf s2 => s1 && !s2
  | .inf s1, .fin _ _ _ => s1
  | .fin _ _ _, .inf s2 => !s2
  | .fin s1 m1 e1, .fin s2 m2 e2 => decide ((addExact s1 m1 e1 (!s2) m2 e2).1 < 0)
  | _, _ => false

/-- Equality of two values that are no NaN. -/
def valEq (a b : FVal) : Bool :=
  match a, b with
  | .inf s1, .inf s2 => s1 == s2
  | .fin s1 m1 e1, .fin s2 m2 e2 => decide ((addExact s1 m1 e1 (!s2) m2 e2).1 = 0)
  | _, _ => false

/-- The code is a NaN. -/
def fIsNan (f : Fmt) (x : Nat) : Bool := match fDec f x with | .nan _ _ => true | _ => false
/-- The code is a signalling NaN. -/
def fIsSnan (f : Fmt) (x : Nat) : Bool := match fDec f x with | .nan q _ => !q | _ => false
/-- The code is finite. -/
def fIsFin (f : Fmt) (x : Nat) : Bool := match fDec f x with | .fin _ _ _ => true | _ => false
/-- `x < y`; false if either is a NaN. -/
def fLt (f : Fmt) (x y : Nat) : Bool := valLt (fDec f x) (fDec f y)
/-- `x = y`; false if either is a NaN. -/
def fEq (f : Fmt) (x y : Nat) : Bool := valEq (fDec f x) (fDec f y)
/-- `x ≤ y`; false if either is a NaN. -/
def fLe (f : Fmt) (x y : Nat) : Bool := fLt f x y || fEq f x y
/-- `x > y`. -/
def fGt (f : Fmt) (x y : Nat) : Bool := fLt f y x
/-- `x ≥ y`. -/
def fGe (f : Fmt) (x y : Nat) : Bool := fLe f y x
/-- The code's sign bit. -/
def fNeg? (f : Fmt) (x : Nat) : Bool := bitAt x (f.width - 1)
/-- The code with its sign bit inverted. -/
def fNeg (f : Fmt) (x : Nat) : Nat :=
  if fNeg? f x then x - 2 ^ (f.width - 1) else x + 2 ^ (f.width - 1)
/-- The code with its sign bit cleared. -/
def fAbs (f : Fmt) (x : Nat) : Nat := x % 2 ^ (f.width - 1)

/-- Convert a code between formats; a NaN stays a NaN, its payload's high bits kept, quieted. -/
def fConv (f g : Fmt) (rm : RMode) (x : Nat) : FRes :=
  match fDec f x with
  | .nan q c =>
    let pay := c % 2 ^ (f.p - 1)
    let pay' := if g.p ≥ f.p then pay * 2 ^ (g.p - f.p) else pay / 2 ^ (f.p - g.p)
    (quietCode g (g.infCode (bitAt c (f.width - 1)) + pay'), { invalid := !q })
  | v => encVal g rm v

/-- Code of an integer. -/
def fOfInt (f : Fmt) (rm : RMode) (x : Int) : FRes :=
  if x = 0 then (f.zeroCode false, {}) else fEnc f rm (decide (x < 0)) x.natAbs 0

/-- Code of the exact `x × 2^e`. -/
def fOfScaled (f : Fmt) (x : Int) (e : Int) : Nat :=
  if x = 0 then f.zeroCode false else (fEnc f .nearestEven (decide (x < 0)) x.natAbs e).1

/-- Code of the exact quotient `x / d × 2^e` (`d > 0`). -/
def fOfRatio (f : Fmt) (x : Int) (d : Nat) : Nat :=
  if x = 0 then f.zeroCode false
  else
    let k := 2 * f.p + Nat.log2 d + 4
    let n := x.natAbs * 2 ^ k
    (fEnc f .nearestEven (decide (x < 0)) (2 * (n / d) + b2n (decide (n % d ≠ 0))) (-(k : Int) - 1)).1

/-- The value as `x × 2^e`; a NaN or an infinity gives 0. -/
def fToScaled (f : Fmt) (x : Nat) : Int × Int :=
  match fDec f x with
  | .fin s m e => (if s then -(m : Int) else (m : Int), e)
  | _ => (0, 0)

/-- Round a finite value times `2^sh` to an integer, ties to even. -/
def fRoundScaled (f : Fmt) (x : Nat) (sh : Int) : Int :=
  match fDec f x with
  | .fin s m e =>
    let r : Int := (roundAt .nearestEven s m (e + sh) 0).1
    if s then -r else r
  | _ => 0

/-- Convert to an integer under `rm`, held to `[lo, hi]`; a NaN gives 0 (R227); INVALID where the
rounded value lies outside or is no number, INEXACT where it was rounded. -/
def fToInt (f : Fmt) (rm : RMode) (lo hi : Int) (x : Nat) : Int × FFlags :=
  match fDec f x with
  | .nan _ _ => (0, { invalid := true })
  | .inf s => (if s then lo else hi, { invalid := true })
  | .fin s m e =>
    let r := roundAt rm s m e 0
    let v : Int := if s then -(r.1 : Int) else (r.1 : Int)
    if v < lo then (lo, { invalid := true })
    else if hi < v then (hi, { invalid := true })
    else (v, { inexact := !r.2 })

/-- IEEE 754 minimum (`hi = false`) or maximum: −0 < +0 and a NaN operand gives a NaN (R227). -/
def fMinMax (f : Fmt) (hi : Bool) (x y : Nat) : FRes :=
  let a := fDec f x
  let b := fDec f y
  match nanRule f [a, b] with
  | some r => r
  | none =>
    let less := valLt a b || (valEq a b && fNeg? f x)
    (if less != hi then x else y, {})

/-- binary32 short names: round to nearest, ties to even, codes only (R72). -/
def add32 (x y : Nat) : Nat := (fAdd b32 .nearestEven x y).1
def sub32 (x y : Nat) : Nat := (fSub b32 .nearestEven x y).1
def mul32 (x y : Nat) : Nat := (fMul b32 .nearestEven x y).1
def div32 (x y : Nat) : Nat := (fDiv b32 .nearestEven x y).1
def fma32 (x y z : Nat) : Nat := (fFma b32 .nearestEven false false x y z).1
/-- binary64 short names (R72). -/
def add64 (x y : Nat) : Nat := (fAdd b64 .nearestEven x y).1
def sub64 (x y : Nat) : Nat := (fSub b64 .nearestEven x y).1
def mul64 (x y : Nat) : Nat := (fMul b64 .nearestEven x y).1
def div64 (x y : Nat) : Nat := (fDiv b64 .nearestEven x y).1
def fma64 (x y z : Nat) : Nat := (fFma b64 .nearestEven false false x y z).1
def sqrt64 (x : Nat) : Nat := (fSqrt b64 .nearestEven x).1
/-- Conversions between the formats (R72). -/
def to64 (x : Nat) : Nat := (fConv b32 b64 .nearestEven x).1
def to32 (x : Nat) : Nat := (fConv b64 b32 .nearestEven x).1

end Sys2Proof.Machine
end

