-- ==== Sys2Proof/Machine/Flags.lean ====
section
/-! DEFINITION. The sticky floating-point flags of JV32 (R228) and the class codes of FKIND (R227). -/
namespace Sys2Proof.Machine

/-- The five conditions as FSTICKY bits (R228): INVALID, DIVBYZERO, OVERFLOW, UNDERFLOW, INEXACT. -/
def FFlags.bits (f : FFlags) : BitVec 5 :=
  BitVec.ofNat 5 (b2n f.invalid + 2 * b2n f.divByZero + 4 * b2n f.overflow + 8 * b2n f.underflow + 16 * b2n f.inexact)

/-- FSTICKY after an operation: a poisoned source updates nothing (R228, R237). -/
def CtxSt.stick (c : CtxSt) (poisoned : Bool) (f : FFlags) : CtxSt :=
  if poisoned then c else { c with fsticky := c.fsticky ||| f.bits }

/-- Rounding modes by their rm value (R227). -/
def rmOf (n : Nat) : RMode :=
  match n with
  | 0 => .nearestEven
  | 1 => .nearestAway
  | 2 => .towardZero
  | 3 => .up
  | _ => .down

/-- Conditions of a comparison: the quiet one signals for a signalling NaN, the signalling ones for any NaN (R228). -/
def cmpFlags (quiet : Bool) (x y : Nat) : FFlags :=
  if quiet then { invalid := fIsSnan b32 x || fIsSnan b32 y } else { invalid := fIsNan b32 x || fIsNan b32 y }

/-- FKIND (R227): class code and sign. -/
def fkindOf (x : Nat) : Nat :=
  let k := match fDec b32 x with
    | .nan q _ => if q then 4 else 5
    | .inf _ => 3
    | .fin _ m _ => if m = 0 then 0 else if x / 2 ^ 23 % 256 = 0 then 1 else 2
  k + 16 * (x / 2 ^ 31 % 2)

end Sys2Proof.Machine
end

