-- ==== Sys2Proof/Machine/Programs.lean ====
section
/-! DEFINITION. Program state (R175), configuration checks (R169 to R171), code load and init copies (R221, R222, R246
to R248), forces (R177 to R180), checkpoints (R183, R184, R268, R269) and online change (R181, R182). -/
namespace Sys2Proof.Machine

/-! ### Checks of a configuration (R169 to R171, R175, R182) -/

/-- Causes of R182. -/
def ocTimeout : Nat := 1
def ocNotLoaded : Nat := 2
def ocOverlap : Nat := 3
def ocFormat : Nat := 4

/-- Tasks that TCFG enables. -/
def State.enabledTasks (s : State) : List Nat := allTasks.filter fun t => kindEnabled (s.rd Reg.TEX_TCFG_KIND t)

/-- KIND of a task: outside STOP the register is a shadow (R181). -/
def State.kindInUse (s : State) (t : Nat) : Nat := if s.progState = 0 then s.rd Reg.TEX_TCFG_KIND t else (s.task t).kind

/-- A task with the descriptor a configuration gives it. -/
structure TaskDesc where
  task : Nat
  desc : Desc
  poison : Bool
deriving DecidableEq, Repr

/-- Read the descriptors of tasks in given banks. -/
def State.readDescs (s : State) (l : List (Nat × Nat)) : List TaskDesc × State :=
  l.foldl (fun (acc : List TaskDesc × State) tb =>
    let ((d, p), s1) := acc.2.readDesc tb.1 tb.2
    (acc.1 ++ [⟨tb.1, d, p⟩], s1)) ([], s)

/-- Whether a list of segments is well formed and clean. -/
def State.segsOk (s : State) (port addr n : Nat) : Bool × State :=
  let ((l, p), s1) := s.readSegs port addr n
  (!p && l.all (·.wellFormed), s1)

/-- Format check of one task (R170, R171); `carry` includes the carry list. The fields of R221 are the code load's (R222). -/
def State.formatOk (s : State) (td : TaskDesc) (carry : Bool) : Bool × State :=
  let d := td.desc
  if td.poison || !d.wellFormed then (false, s)
  else
    let port := s.texPort td.task
    let (a, s1) := s.segsOk port d.inA d.nin
    let (b, s2) := s1.segsOk port d.outA d.nout
    let (c, s3) := if carry then s2.segsOk port d.carryA d.ncarry else (true, s2)
    (a && b && c, s3)

/-- Whether two byte ranges overlap. -/
def rangesMeet (a b : Nat × Nat) : Bool := decide (a.1 < b.1 + b.2) && decide (b.1 < a.1 + a.2)

/-- Whether any two ranges of a list overlap. -/
def anyMeet : List (Nat × Nat) → Bool
  | [] => false
  | a :: l => l.any (rangesMeet a) || anyMeet l

/-- The output ranges of tasks (R169), and whether an entry read poisoned (R171). -/
def State.outRanges (s : State) (l : List TaskDesc) : (List (Nat × Nat) × Bool) × State :=
  l.foldl (fun (acc : (List (Nat × Nat) × Bool) × State) td =>
    let ((g, p), s1) := acc.2.readSegs (s.texPort td.task) td.desc.outA td.desc.nout
    ((acc.1.1 ++ g.map (fun x => (x.dst, x.len)), acc.1.2 || p), s1)) (([], false), s)

/-- Check descriptors: 0, or the cause of R182. `all` are the tasks of the configuration, `new` those of them that are
newly taken into use. [DESIGN CHOICE, log 51] -/
def State.checkDescs (s : State) (all new : List TaskDesc) (carry : Bool) : Nat × State :=
  if new.any fun td => !td.poison && !td.desc.loaded then (ocNotLoaded, s)
  else
    let (ok, s1) := new.foldl (fun (acc : Bool × State) td =>
      let (b, s2) := acc.2.formatOk td carry
      (acc.1 && b, s2)) (true, s)
    if !ok || decide (0x400000 < all.foldl (fun n td => n + td.desc.retLen) 0) then (ocFormat, s1)
    else
      let ((r, p), s2) := s1.outRanges all
      (if p then ocFormat else if anyMeet r then ocOverlap else 0, s2)

/-! ### Code load (R221, R222, R246, R248) -/

/-- A code image header (R246). -/
structure CodeHdr where
  ok : Bool
  crc : Nat
  initA : Nat
  ninit : Nat
deriving DecidableEq, Repr

/-- Read and check the header of a descriptor's code image (R246, R248). [DESIGN CHOICE, log 64] -/
def State.codeHdr (s : State) (port : Nat) (d : Desc) : CodeHdr × State :=
  let ((b, p), s1) := s.lndBytes port d.cimg 64
  let ni := fieldAt b 0x18 4
  (⟨!p && fieldAt b 0 4 == 0x4943564A && fieldAt b 4 4 == 1 && fieldAt b 8 4 == d.imgid && fieldAt b 12 4 == d.clen * 64
      && decide (ni ≤ 1024) && fieldAt b 0x14 4 % 16 == 0, fieldAt b 16 4, fieldAt b 0x14 4, ni⟩, s1)

/-- Whether two descriptors may stand on one engine (R222). -/
def codeFits (a b : Desc) : Bool :=
  decide (a.corg + a.clen ≤ b.corg) || decide (b.corg + b.clen ≤ a.corg)
    || (a.cimg == b.cimg && a.corg == b.corg && a.clen == b.clen)

/-- Whether the descriptors of a list fit together. -/
def allFit : List Desc → Bool
  | [] => true
  | a :: l => l.all (codeFits a) && allFit l

/-- Copy one descriptor's code into engines, and say whether header, init list and CRC hold. [DESIGN CHOICE, log 64] -/
def State.loadOne (s : State) (engs : List Nat) (td : TaskDesc) : Bool × State :=
  let port := s.texPort td.task
  let d := td.desc
  let (h, s1) := s.codeHdr port d
  if !h.ok || !d.codeOk then (false, s1)
  else
    let ((il, ip), s2) := s1.readSegs port h.initA h.ninit
    let iok := !ip && il.all fun g => g.wellFormed && g.stn == 0
    let (l, s3) := s2.lndRead port (d.cimg + 64) (d.clen * 8)
    let ok := iok && !anyPoison l && decide (crc32c (cwBytes l) = h.crc)
    let mine := engs.filter fun e => s3.inMask td.task e
    (ok, s3.over mine fun e a =>
      ((upFrom 0 l.length).zip l).foldl
        (fun b ic => b.setMem (.code e) ((b.mem (.code e)).put (d.corg * 8 + ic.1) ic.2)) a)

/-- Load the code of `new` into `engs` beside what `all` places there (R222): DONE of these engines shows whether it succeeded. -/
def State.loadCode (s0 : State) (engs : List Nat) (all new : List TaskDesc) : Bool × State :=
  let s := s0.over engs fun e a => a.clrBitOf Reg.TEX_LOAD_DONE e
  let fit := engs.all fun e => allFit ((all.filter fun td => s.inMask td.task e).map (·.desc))
  if !fit then (false, s.wrB Reg.TEX_LOAD_LDERR true)
  else
    let (ok, s1) := new.foldl (fun (acc : Bool × State) td =>
      let (b, s2) := acc.2.loadOne engs td
      (acc.1 && b, s2)) (true, s)
    if ok then (true, s1.over engs fun e a => a.setBitOf Reg.TEX_LOAD_DONE e)
    else (false, s1.wrB Reg.TEX_LOAD_LDERR true)

/-- The engines of the pool. -/
def State.pool (s : State) : List Nat := allEngines.filter s.isMember

/-- The init copies of a descriptor (R247). [DEDUCED, log 52] -/
def State.initCopies (s : State) (t : Nat) (d : Desc) : State :=
  let port := s.texPort t
  let (h, s1) := s.codeHdr port d
  s1.over (upFrom 0 (if h.ok then h.ninit else 0)) fun i a =>
    let ((g, p), b) := a.readSeg port (h.initA + 16 * i)
    if p then b
    else
      let (l, c) := b.lndRead port g.src (g.len / 8)
      c.lndWriteCws port g.dst l

/-- The init copies at the first RUN after a bank's LOADED was set (R247). [DEDUCED, log 52] -/
def State.firstInit (s : State) (t bank : Nat) (d : Desc) : State :=
  if (s.task t).inited.contains bank then s
  else
    let s1 := s.initCopies t d
    let x := s1.task t
    s1.setTask t { x with inited := setIns x.inited bank }

/-! ### IDENT (R381) -/

/-- The bytes of the mirror table. -/
def State.mirrorTable (s : State) : List Byte × State :=
  let base := s.rd Reg.TRH_MBASE_BASE * 4096
  let ((h, _), s1) := s.lndBytes 5 base 16
  let n := Nat.min (fieldAt h 0 2) 1024 + Nat.min (fieldAt h 2 2) 1024
  let ((b, _), s2) := s1.lndBytes 5 (base + 16) (16 * n)
  (h ++ b, s2)

/-- Recompute IDENT (R381). [DESIGN CHOICE, log 128] -/
def State.identUpdate (s : State) : State :=
  let rings := (upFrom 0 8).flatMap fun n =>
    let r := tabAt {} s.rings n
    (if r.live then leBytes 4 r.per ++ leBytes 4 r.phase ++ leBytes 4 r.dlin ++ leBytes 4 r.slin
     else leBytes 4 (s.rd Reg.HST_RPER_PER n) ++ leBytes 4 (s.rd Reg.HST_RPHASE_PHASE n)
       ++ leBytes 4 (s.rd Reg.HST_RDLIN_DLIN n) ++ leBytes 4 (s.rd Reg.HST_RSEAL_SEAL n))
      ++ leBytes 4 (s.rd Reg.HST_RINGCTL_EN n)
  let ids := allTasks.flatMap fun t =>
    let x := s.task t
    if kindEnabled x.kind then leBytes 4 x.desc.imgid ++ leBytes 4 x.desc.retid else leBytes 8 0
  let (m, s1) := s.mirrorTable
  (s1.wr Reg.TRH_IDENT_ID (crc32c (rings ++ ids ++ m))).stepCheck

/-! ### RUN and STOP (R175, R181) -/

/-- CFGERR of a task follows its configuration (R161). -/
def State.cfgErr (s : State) (t : Nat) : State :=
  s.wrB Reg.TEX_TSTAT_CFGERR (s.rd Reg.TEX_TCFG_KIND t == 1 && decide (s.rd Reg.TEX_TCFG_DIVM1 t < s.rd Reg.TEX_TCFG_OFS t)) t

/-- The configuration registers of a task are taken into use. -/
def State.takeCfg (s : State) (t : Nat) (d : Desc) : State :=
  let x := s.task t
  ((s.setTask t { x with
    kind := s.rd Reg.TEX_TCFG_KIND t, ring := s.rd Reg.TEX_TCFG_RING t, prio := s.rd Reg.TEX_TCFG_PRIO t
    divm1 := s.rd Reg.TEX_TCFG_DIVM1 t, ofs := s.rd Reg.TEX_TCFG_OFS t, desc := d }).wrB Reg.TEX_TCFG_PEND false t).cfgErr t

/-- The state a task stands in by its KIND while no cycle is open (R189). -/
def State.restState (s : State) (t : Nat) : State :=
  s.setTstate t (if kindEnabled (s.task t).kind then stIdle else stUnused)

/-- A task as it enters RUN: first cycle, and WAIT for an event task (R172, R189, R196). A task that is not enabled has its
first cycle after this RUN still to come, should an online change enable it. -/
def State.enterRun (s : State) (warm : Bool) (t : Nat) : State :=
  let x := s.task t
  let s1 := (s.setTask t { x with
    cycle := 0, isFirst := true, isWarm := warm, isOcnew := false, latePrev := false, skipped := 0, isOpen := false
    toPublish := false, pubNext := 0, lateNow := false, prevLate := false, prevSkip := false, hasCtx := false }).restState t
  if x.kind = 2 then s1.awaitRelease t else s1

/-- A refused RUN (R175). -/
def State.runRefused (s : State) (cause : Nat) : State := (s.setSticky 7 Reg.TEX_PSTAT_RUNREJ).tally 0x0703 0 cause

/-- Take the configuration into use: checks, code load, init copies (R175, R222, R247); 0 or the cause. -/
def State.takeConfig (s : State) : Nat × State :=
  let (l, s1) := s.readDescs (s.enabledTasks.map fun t => (t, s.rd Reg.TEX_TCFG_BANK t))
  match s1.checkDescs l l false with
  | (0, s2) =>
    match s2.loadCode s2.pool l l with
    | (false, s3) => (ocFormat, s3)
    | (true, s3) =>
      let s4 := s3.over l fun td a => a.firstInit td.task (a.rd Reg.TEX_TCFG_BANK td.task) td.desc
      (0, s4.over allTasks fun t a =>
        match l.find? fun td => td.task == t with
        | some td => a.takeCfg t td.desc
        | none => a.takeCfg t {})
  | (c, s2) => (c, s2)

/-- CMD RUN (R175). [DESIGN CHOICE, log 51] -/
def State.programRun (s : State) : State :=
  if s.progState ≠ 0 then s
  else match s.takeConfig with
    | (0, s1) =>
      let s2 := { ((s1.wr Reg.TEX_PSTAT_STATE 1).wrB Reg.PWR_BSTAT_STARTPEND false) with tex := { s1.tex with stopping := false } }
      (s2.over allTasks fun t a => a.enterRun false t).identUpdate
    | (c, s1) => s1.runRefused c

/-- PROGRAM_RUN. -/
def execProgramRun (s : State) : Host.Outcome State Fault Refusal := .next s.programRun
/-- PROGRAM_STOP. -/
def execProgramStop (s : State) : Host.Outcome State Fault Refusal := .next s.programStop

/-- The program stands in STOP: no release condition waits (R189). -/
def State.enterStop (s : State) : State :=
  let s1 := { (s.wr Reg.TEX_PSTAT_STATE 0) with tex := { s.tex with stopping := false } }
  (s1.over allTasks fun t a => (a.setTask t { a.task t with wait := none }).restState t).stepCheck

/-- STOP_COMPLETE: the last running cycle has ended (R175). -/
def execStopComplete (s : State) : Host.Outcome State Fault Refusal :=
  if s.tex.stopping ∧ !(allTasks.any fun t => (s.task t).isOpen || (s.task t).toPublish) then .next s.enterStop else .next s

/-- PUBLISH: an ended cycle publishes at its publish instant (R164), `segs` output segments by now: a publish of which some
are still to come is in progress, and what comes between sees it so (R166). [DESIGN CHOICE, log 51] -/
def execPublish (t : Fin 256) (segs : Nat) (s : State) : Host.Outcome State Fault Refusal :=
  let x := s.task t
  if !x.toPublish then .next s
  else
    let s1 := s.advanceTo x.pubAt
    .next (if x.desc.nout ≤ x.pubNext + segs then s1.publish t else s1.publishPart t segs)

/-- The march test and the code load of a returning engine end (R209, R222). [DESIGN CHOICE, log 4 and 64] -/
def execEngineTestDone (e : Fin 8) (bad : Option (Bool × Nat)) (s : State) : Host.Outcome State Fault Refusal :=
  if !bitAt (s.rd Reg.TEX_EPOOL_TESTING) e then .next s
  else
    let s1 := s.clrBitOf Reg.TEX_EPOOL_TESTING e
    match bad with
    | some (isData, w) =>
      .next ((s1.setSummary 7 Reg.TEX_EPOOL_FAULT e).tallyLoc 0x070F (cwLocator (if isData then .data e else .code e) w none) e e)
    | none =>
      let (n, s2) := (s1.clrBitOf Reg.TEX_LOAD_DONE e).draw
      let fill := fun (k sz : Nat) =>
        { cells := (upFrom 0 sz).filterMap fun i =>
            let b := Config.freeByte n (k + i)
            if b = 0#8 then none else some (i, b) : Mem }
      let s3 := (s2.setMem (.code e) (fill 0 0x40000)).setMem (.data e) (fill 0x40000 0x20000)
      let (l, s4) := s3.readDescs ((allTasks.filter fun t => kindEnabled (s3.kindInUse t) && s3.inMask t e).map fun t => (t, s3.rd Reg.TEX_TCFG_BANK t))
      let l := l.filter fun td => td.poison || td.desc.loaded
      if l.any fun td => td.poison then .next ((s4.wrB Reg.TEX_LOAD_LDERR true).setSummary 7 Reg.TEX_EPOOL_FAULT e)
      else match s4.loadCode [e.val] l l with
        | (true, s5) => .next { s5 with tex := { s5.tex with joining := setIns s5.tex.joining e } }
        | (false, s5) => .next (s5.setSummary 7 Reg.TEX_EPOOL_FAULT e)

/-! ### Forces (R177, R180) -/

/-- The shadow of a force entry. -/
def State.forceShadow (s : State) (f : Nat) : ForceSt :=
  ⟨s.bit Reg.TEX_FCTL_ACT f, s.bit Reg.TEX_FCTL_DIR f, s.rd Reg.TEX_FADR_ADDR f * 8,
   BitVec.ofNat 64 (s.rd Reg.TEX_FMSKL_MASK f + s.rd Reg.TEX_FMSKH_MASK f * 2 ^ 32),
   BitVec.ofNat 64 (s.rd Reg.TEX_FVALL_VALUE f + s.rd Reg.TEX_FVALH_VALUE f * 2 ^ 32)⟩

/-- The force entry in use. -/
def State.force (s : State) (f : Nat) : ForceSt := tabAt {} s.tex.forces f

/-- NACT, FORCED, FSTAT.ORPHAN and FORCED_N follow the entries in use (R180). -/
def State.forceSummary (s : State) : State :=
  let n := (s.tex.forces.filter fun kf => kf.2.act).length
  let orphan := (s.tex.forces.any fun kf => kf.2.act && s.bit Reg.TEX_FCTL_ORPHAN kf.1)
  let s1 := ((s.wr Reg.TEX_FSTAT_NACT n).wrB Reg.TEX_PSTAT_FORCED (n ≠ 0)).wrB Reg.TEX_FSTAT_ORPHAN orphan
  { s1 with tex := { s1.tex with forcedPin := n ≠ 0 } }

/-- PEND of a force entry. -/
def State.forcePend (s : State) (f : Nat) : State := s.wrB Reg.TEX_FCTL_PEND (decide (s.forceShadow f ≠ s.force f)) f

/-- Take an entry into use and record it (R177, R180). -/
def State.forceUse (s : State) (f : Nat) (x : ForceSt) : State :=
  let old := s.force f
  let s1 := { s with tex := { s.tex with forces := tabPut {} s.tex.forces f x } }
  let s2 := ((s1.wrB Reg.TEX_FCTL_ORPHAN false f).forcePend f).forceSummary
  if old = x then s2 else s2.tally 0x0705 f (b2n x.act + 2 * b2n x.out) x.addr

/-- A write of 1 to COMMIT (R177). -/
def State.forceCommit (s : State) (f : Nat) : State :=
  let x := s.forceShadow f
  if x.act && s.tex.forces.any fun kf => kf.1 != f && kf.2.act && kf.2.out == x.out && kf.2.addr == x.addr then
    s.wrB Reg.TEX_FSTAT_DUPREJ true
  else s.forceUse f x
/-- FORCE_COMMIT. -/
def execForceCommit (f : Fin 1024) (s : State) : Host.Outcome State Fault Refusal := .next (s.forceCommit f)

/-- The ranges that the segments in use cover, by direction. -/
def State.forceRanges (s : State) (out : Bool) : List (Nat × Nat) × State :=
  (allTasks.filter fun t => kindEnabled (s.task t).kind).foldl
    (fun (acc : List (Nat × Nat) × State) t =>
      let d := (acc.2.task t).desc
      let ((g, _), s1) := acc.2.readSegs (s.texPort t) (if out then d.outA else d.inA) (if out then d.nout else d.nin)
      (acc.1 ++ g.map (fun x => (if out then x.dst else x.src, x.len)), s1)) ([], s)

/-- Check every active entry against the segments in use: orphans (after R182). -/
def State.orphanCheck (s : State) : State :=
  let (ri, s1) := s.forceRanges false
  let (ro, s2) := s1.forceRanges true
  (s2.over s2.tex.forces fun kf a =>
    if !kf.2.act then a
    else
      let covered := (if kf.2.out then ro else ri).any fun r => decide (r.1 ≤ kf.2.addr) && decide (kf.2.addr < r.1 + r.2)
      let was := a.bit Reg.TEX_FCTL_ORPHAN kf.1
      let b := a.wrB Reg.TEX_FCTL_ORPHAN (!covered) kf.1
      if !covered && !was then b.tally 0x0706 kf.1 0 kf.2.addr else b).forceSummary

/-! ### Checkpoints (R183, R184, R268, R269) -/

/-- MRAM offset of a slot (R266). -/
def slotBase (i : Nat) : Nat := if i = 0 then 0x600000 else 0xB00000

/-- A directory entry (R268). -/
structure CkEntry where
  task : Nat
  flags : Nat
  retid : Nat
  off : Nat
  len : Nat
deriving DecidableEq, Repr

/-- A complete slot as read. -/
structure CkSlot where
  base : Nat
  seq : Nat
  ht : Nat
  part : Bool
  dir : List CkEntry
deriving DecidableEq, Repr

/-- Read a slot; `none` unless it is complete (R269). -/
def State.readSlot (s : State) (i : Nat) : Option CkSlot × State :=
  let base := slotBase i
  let ((h, p), s1) := s.mramGet base 64
  let n := fieldAt h 0x10 2
  let db := fieldAt h 0x14 4
  if p || fieldAt h 0x3C 4 != 0x4B4F4E45 || fieldAt h 0 4 != 0x54504B43 || decide (256 < n) || decide (0x400000 < db) then (none, s1)
  else
    let ((d, p1), s2) := s1.mramGet (base + 0x40) (16 * n)
    let ((b, p2), s3) := s2.mramGet (base + 0x10000) (db / 8 * 8)
    if p1 || p2 || decide (crc32c (h.take 0x38 ++ d ++ b) ≠ fieldAt h 0x38 4) then (none, s3)
    else
      let dir := (upFrom 0 n).map fun k =>
        let e := d.drop (16 * k)
        ⟨fieldAt e 0 2, fieldAt e 2 2, fieldAt e 4 4, fieldAt e 8 4, fieldAt e 12 4⟩
      (some ⟨base, fieldAt h 4 4, fieldAt h 8 8, fieldAt h 0x12 2 % 2 == 1, dir⟩, s3)

/-- The newest complete slot (R269). [DEDUCED, log 55] -/
def State.newestSlot (s : State) : Option CkSlot × State :=
  let (a, s1) := s.readSlot 0
  let (b, s2) := s1.readSlot 1
  match a, b with
  | some x, some y => (some (if sInt 32 (x.seq + 2 ^ 32 - y.seq) > 0 then x else y), s2)
  | some x, none => (some x, s2)
  | none, y => (y, s2)

/-- The data of a directory entry: data offsets count from slot offset 0x1_0000. -/
def State.slotData (s : State) (k : CkSlot) (e : CkEntry) : List Byte × State :=
  let ((b, _), s1) := s.mramGet (k.base + 0x10000 + e.off) e.len
  (b, s1)

/-- Trigger a checkpoint, or merge the trigger into the one in progress (R183). -/
def State.ckTrigger (s : State) (powerFail : Bool) : State :=
  match s.tex.ck with
  | some ck =>
    if powerFail && !ck.powerFail then
      { s with tex := { s.tex with ck := some { ck with powerFail := true, startAt := s.time.edge } } }
    else s
  | none =>
    let ts := allTasks.filter fun t => kindEnabled (s.task t).kind && decide ((s.task t).desc.retLen ≠ 0)
    let s1 := { (s.wrB Reg.TEX_CKSTAT_BUSY true) with tex := { s.tex with ck := some ⟨ts, [], s.time.edge, powerFail, false⟩ } }
    s1.over ts fun t a => if (a.task t).isOpen || (a.task t).toPublish then a else a.gather t

/-- CMD CKPT (R175). -/
def State.checkpointCmd (s : State) : State := if s.progState = 2 then s else s.ckTrigger false
/-- CHECKPOINT. [DESIGN CHOICE, log 4] -/
def execCheckpoint (s : State) : Host.Outcome State Fault Refusal := .next s.checkpointCmd

/-- CHECKPOINT_TIMER: every CKPER × 100 ms (R183). [DEDUCED, log 56] -/
def execCheckpointTimer (s : State) : Host.Outcome State Fault Refusal :=
  let per := s.rd Reg.TEX_CKCFG_CKPER
  if per = 0 then .next s
  else
    let s1 := s.advanceEdge (s.tex.ckTimer + per * 100 * edgesPerMs)
    .next ({ s1 with tex := { s1.tex with ckTimer := s1.time.edge } }).checkpointCmd

/-- The area of a task that is not waited for: from the newest complete checkpoint, or absent (R184). -/
def State.oldArea (s : State) (t : Nat) : CkArea × State :=
  let d := (s.task t).desc
  let absent : CkArea := ⟨t, d.retid, 1, List.replicate d.retLen 0#8⟩
  match s.newestSlot with
  | (none, s1) => (absent, s1)
  | (some k, s1) =>
    match k.dir.find? fun e => e.task == t && e.retid == d.retid && e.len == d.retLen && e.flags % 2 == 0 with
    | none => (absent, s1)
    | some e =>
      let (b, s2) := s1.slotData k e
      (⟨t, d.retid, 2, b⟩, s2)

/-- CHECKPOINT_GATHER_TIMEOUT: 2 ms after a power-fail trigger (R184). -/
def execCheckpointGatherTimeout (s : State) : Host.Outcome State Fault Refusal :=
  match s.tex.ck with
  | none => .next s
  | some ck =>
    if !ck.powerFail || ck.need == [] then .next s
    else
      let s1 := s.advanceEdge (ck.startAt + 2 * edgesPerMs)
      let (areas, s2) := ck.need.foldl (fun (acc : List CkArea × State) t =>
        let (a, x) := acc.2.oldArea t
        (acc.1 ++ [a], x)) (ck.areas, s1)
      .next { s2 with tex := { s2.tex with ck := some { ck with need := [], areas := areas, part := true } } }

/-- Directory and data of gathered areas, in ascending task number. [DEDUCED, log 55] -/
def ckLayout (l : List CkArea) : List Byte × List Byte :=
  l.foldl (fun acc a =>
    (acc.1 ++ leBytes 2 a.task ++ leBytes 2 a.flags ++ leBytes 4 a.retid ++ leBytes 4 acc.2.length ++ leBytes 4 a.data.length,
     acc.2 ++ a.data)) ([], [])

/-- Areas in ascending task number. -/
def ckSorted (l : List CkArea) : List CkArea := allTasks.flatMap fun t => l.filter fun a => a.task == t

/-- Write the gathered areas to the slot that does not hold the newest checkpoint, and commit (R183, R268, R269). [DEDUCED, log 55] -/
def State.ckCommit (s : State) (ck : CkSt) : State :=
  let (nw, s1) := s.newestSlot
  let base := match nw with | some k => if k.base = slotBase 0 then slotBase 1 else slotBase 0 | none => slotBase 0
  let seq := match nw with | some k => (k.seq + 1) % 2 ^ 32 | none => 1
  let areas := ckSorted ck.areas
  let (dir, data) := ckLayout areas
  let hd := leBytes 4 0x54504B43 ++ leBytes 4 seq ++ leBytes 8 s1.htime ++ leBytes 2 areas.length ++ leBytes 2 (b2n ck.part)
    ++ leBytes 4 data.length ++ leBytes 32 0
  let crc := crc32c (hd ++ dir ++ data)
  let s2 := s1.writeCw .mram (base / 8 + 7) 7 0xF0#8 0#64 false
  let s3 := (s2.mramPut (base + 0x40) dir).mramPut (base + 0x10000) data
  let s4 := (s3.mramPut base hd).mramPut (base + 0x38) (leBytes 4 crc ++ leBytes 4 0)
  let s5 := s4.writeCw .mram (base / 8 + 7) 7 0xF0#8 (BitVec.ofNat 64 (0x4B4F4E45 * 2 ^ 32)) false
  let s6 := (((s5.wr Reg.TEX_CKSTAT_SEQ seq).wr Reg.TEX_CKTLO_HT s1.htime).wr Reg.TEX_CKTHI_HT (s1.htime / 2 ^ 32)).wrB
    Reg.TEX_CKSTAT_PARTIAL ck.part
  { (s6.wrB Reg.TEX_CKSTAT_BUSY false) with tex := { s6.tex with ck := none } }

/-- CHECKPOINT_COMMIT: once every area is gathered (R183). -/
def execCheckpointCommit (s : State) : Host.Outcome State Fault Refusal :=
  match s.tex.ck with
  | some ck => if ck.need = [] then .next (s.ckCommit ck) else .next s
  | none => .next s

/-! ### Online change (R181, R182) -/

/-- Tasks that TEX_OCMASK names. -/
def State.ocTasks (s : State) : List Nat := allTasks.filter fun t => bitAt (s.rd Reg.TEX_OCMASK_MASK (t / 32)) (t % 32)

/-- A write of 1 to ARM (R181, R182): checks and code load, then the wait for u. [DEDUCED, log 53] -/
def State.ocArm (s : State) : State :=
  if s.tex.oc.isSome then s
  else
    let aff := s.ocTasks
    let on_ := aff.filter fun t => kindEnabled (s.rd Reg.TEX_TCFG_KIND t)
    let (ad, s1) := (s.wrB Reg.TEX_OCCTL_ARM true).readDescs (aff.map fun t => (t, 1 - s.rd Reg.TEX_TCFG_BANK t))
    let new := ad.filter fun td => on_.contains td.task
    let kept := (allTasks.filter fun t => kindEnabled (s.task t).kind && !aff.contains t).map fun t => (⟨t, (s.task t).desc, false⟩ : TaskDesc)
    let present := (allTasks.filter fun t => kindEnabled (s.task t).kind).map fun t => (⟨t, (s.task t).desc, false⟩ : TaskDesc)
    -- a task that the change disables has its staged bank looked at for LOADED alone
    if ad.any fun td => !td.poison && !td.desc.loaded then s1.ocRefuse ocNotLoaded
    else if ad.any (·.poison) then s1.ocRefuse ocFormat
    else match s1.checkDescs (kept ++ new) new true with
    | (0, s2) =>
      match s2.loadCode s2.pool (present ++ new) new with
      | (false, s3) => s3.ocRefuse ocFormat
      | (true, s3) =>
        let tmo := s3.rd Reg.TEX_OCCTL_TMO
        let s4 := s3.over ad fun td a => a.setTask td.task { a.task td.task with staged := td.desc }
        { s4 with tex := { s4.tex with oc := some (aff, s4.time.edge + (if tmo = 0 then 1000 else tmo) * edgesPerMs) } }
    | (c, s2) => s2.ocRefuse c
/-- ONLINE_CHANGE_ARM. -/
def execOnlineChangeArm (s : State) : Host.Outcome State Fault Refusal := .next s.ocArm

/-- ONLINE_CHANGE_TIMEOUT (R182). -/
def execOnlineChangeTimeout (s : State) : Host.Outcome State Fault Refusal :=
  match s.tex.oc with
  | some (_, due) => .next ((s.advanceEdge due).ocRefuse ocTimeout)
  | none => .next s

/-- A write of 1 to ABORT (R182). -/
def State.ocAbort (s : State) : State := if s.tex.oc.isSome then s.ocRefuse 6 else s
/-- ONLINE_CHANGE_ABORT. -/
def execOnlineChangeAbort (s : State) : Host.Outcome State Fault Refusal := .next s.ocAbort

/-- Init copies and carry copies of a task's staged bank (R181, R247). -/
def State.carry (s : State) (t : Nat) : State :=
  let d := (s.task t).staged
  let port := s.texPort t
  let s1 := s.initCopies t d
  let bank := 1 - s1.rd Reg.TEX_TCFG_BANK t
  let x := s1.task t
  let s2 := s1.setTask t { x with inited := setIns x.inited bank }
  s2.over (upFrom 0 d.ncarry) fun i a =>
    let ((g, p), b) := a.readSeg port (d.carryA + 16 * i)
    if p then b
    else
      let (l, c) := b.lndRead port g.src (g.len / 8)
      c.lndWriteCws port g.dst l

/-- The switch at u (R181): carry copies of every affected task, then banks and configurations, then the orphan check. -/
def State.ocSwitch (s : State) (aff : List Nat) : State :=
  let on_ := aff.filter fun t => kindEnabled (s.rd Reg.TEX_TCFG_KIND t)
  let s1 := s.over on_ fun t a => a.carry t
  let s2 := s1.over aff fun t a =>
    let d := (a.task t).staged
    let b := (a.wr Reg.TEX_TCFG_BANK (1 - a.rd Reg.TEX_TCFG_BANK t) t).takeCfg t d
    let c := (b.setTask t { b.task t with isOcnew := true, wait := none }).restState t
    if (c.task t).kind = 2 ∧ c.releasing then c.awaitRelease t else c
  let s3 := ({ s2 with tex := { s2.tex with oc := none } }).wrB Reg.TEX_OCCTL_ARM false
  ((s3.setSticky 7 Reg.TEX_OCSTAT_DONE).orphanCheck).identUpdate

/-! ### What a restart does to the tasks (R185, R186) -/

/-- Every running cycle is abandoned without publishing. -/
def State.abandonAll (s : State) : State :=
  let s1 := s.over allEngines fun e a => if (a.eng e).busy then a.freeEngine e else a
  s1.over allTasks fun t a =>
    let x := a.task t
    (a.setTask t { x with isOpen := false, toPublish := false, pubNext := 0, hasCtx := false, retIn := [], retLast := false }).restState t

/-- Initial values from the images in use (R185, R186, R247). -/
def State.initAll (s : State) : State :=
  s.over (allTasks.filter fun t => kindEnabled (s.task t).kind) fun t a => a.initCopies t (a.task t).desc

/-- Deactivate every force entry, with a record for each (R186). -/
def State.dropForces (s : State) : State :=
  (s.over s.tex.forces fun kf a =>
    if kf.2.act then
      let s1 := a.tally 0x0705 kf.1 (2 * b2n kf.2.out) kf.2.addr
      { s1 with tex := { s1.tex with forces := tabDel s1.tex.forces kf.1 } }
    else { a with tex := { a.tex with forces := tabDel a.tex.forces kf.1 } }).forceSummary

/-- Restore the retained areas from a checkpoint; an absent area keeps its initial value and is recorded (R185). -/
def State.restoreRetained (s : State) (k : CkSlot) : State :=
  s.over (allTasks.filter fun t => kindEnabled (s.task t).kind && decide ((s.task t).desc.retLen ≠ 0)) fun t a =>
    let d := (a.task t).desc
    match k.dir.find? fun e => e.task == t && e.retid == d.retid with
    | none => a
    | some e =>
      if e.flags % 2 = 1 then a.tally 0x070E t
      else
        let (b, a1) := a.slotData k e
        a1.lndWrite (a1.texPort t) d.retA b

/-- Whether every task with retained data has its RETID in a checkpoint (R185). -/
def State.retMatch (s : State) (k : CkSlot) : Bool :=
  allTasks.all fun t =>
    let x := s.task t
    !kindEnabled x.kind || x.desc.retLen == 0 || k.dir.any fun e => e.task == t && e.retid == x.desc.retid

/-- Enter RUN after a restart with FIRST, and WARM after a warm one (R185, R186). -/
def State.restartRun (s : State) (warm : Bool) : State :=
  let s1 := { ((s.wr Reg.TEX_PSTAT_STATE 1).wrB Reg.PWR_BSTAT_STARTPEND false) with tex := { s.tex with stopping := false } }
  s1.over allTasks fun t a => a.enterRun warm t

end Sys2Proof.Machine
end

