-- ==== Sys2Proof/Machine/Operands.lean ====
section
/-! DEFINITION. What every JV32 instruction shares: issue and fetch (R215, R218, R236, R244), exceptions (R240 to R243),
register results (R216, R237), addresses and their checks (R218, R219, R225, R238). -/
namespace Sys2Proof.Machine

/-! ### Exceptions (R240 to R243) -/

/-- Codes of R241. -/
def xIllegal : Nat := 1
def xMisalign : Nat := 2
def xMprot : Nat := 3
def xPoison : Nat := 4
def xDivz : Nat := 5
def xDetwait : Nat := 6
def xDoneerr : Nat := 7
def xRetired : Nat := 8
def xTrap : Nat := 9

/-- Raise an exception with a given EVAL: the handler, or the cycle is abandoned (R242, R243). -/
def State.excAt (s : State) (e code role : Nat) (eval : Word) : State :=
  let x := s.eng e
  let c := x.ctx
  let d := (s.task x.task).desc
  if d.xhnd ≠ 0 ∧ !c.inHnd then
    s.setCtx e { c with epc := c.pc, ecause := BitVec.ofNat 16 (code + 256 * role), eval := eval, inHnd := true
                        pc := BitVec.ofNat 32 (d.xhnd * 4) }
  else s.abandon e x.task code role c.pc eval

/-- Raise an exception that has neither a faulting address nor a TRAP code: EVAL is not stated, a free value. [DESIGN CHOICE, log 61] -/
def State.exc (s : State) (e code role : Nat) : State :=
  let (n, s1) := s.draw
  s1.excAt e code role ((Config.freeWord n).setWidth 32)

/-! ### Issue (R215, R218, R236, R244) -/

/-- Whether a pending load will write one of the registers. -/
def LoadSt.hits (l : LoadSt) (uses : List Nat) : Bool := uses.contains l.rd || (l.pair && uses.contains (l.rd + 1))

/-- Stall until no pending load writes a register that is used (R215); `fuel` is the most loads there can be. [DEDUCED, log 63] -/
def State.settle : Nat → Nat → List Nat → State → State
  | 0, _, _, s => s
  | n + 1, e, uses, s =>
    if (s.eng e).loads.any fun l => l.hits uses then State.settle n e uses (s.returnLoad e) else s

/-- Read a codeword of code memory (R244): a correctable error is corrected, written back and counted; the flag says
uncorrectable. [DESIGN CHOICE, log 60] -/
def State.codeCw (s : State) (e w : Nat) : (Cw × Bool) × State :=
  match (s.mem (.code e)).decode w with
  | (c, .clean) => ((c, c.poison), s)
  | (c, .ue) => ((c, true), s)
  | (c, _) => ((c, c.poison), (s.writeBack (.code e) w c).countEngine (.code e))

/-- Read a codeword of data memory (R244): errors as in the Landing. -/
def State.dataCw (s : State) (e w : Nat) : Cw × State := s.readCw (.data e) w (engPort e)

/-- Whether pc lies in the code range of the task on an engine (R221, R236). -/
def State.pcInRange (s : State) (e : Nat) : Bool :=
  let x := s.eng e
  let d := (s.task x.task).desc
  decide (d.corg * 64 ≤ x.ctx.pc.toNat) && decide (x.ctx.pc.toNat < (d.corg + d.clen) * 64)

/-- The word of code memory at a pc: half of its codeword. [DESIGN CHOICE, log 60] -/
def codeWord (c : Cw) (pc : Word) : Word := BitVec.ofNat 32 (bitsOf c.data.toNat (32 * (pc.toNat / 4 % 2)) 32)

/-- Issue instruction `i` on an engine: nothing on an idle or fencing engine. The word at pc is fetched: a reserved
encoding raises ILLEGAL (R224), and if another instruction stands there the command is not the engine's next one and
nothing happens. Then a stall for the registers used, and the instruction's own effect on the settled state. [DESIGN CHOICE, log 60] -/
def State.issue (s : State) (e : Fin 8) (i : Instr) (uses : List Nat) (body : CtxSt → State → State) : State :=
  if !(s.eng e).busy || (s.eng e).fence then s
  else
    let pc := (s.eng e).ctx.pc
    if !s.pcInRange e then s.excAt e xMprot 0 pc
    else match s.codeCw e (pc.toNat / 8) with
      | ((_, true), s1) => s1.engineFault e 1 (pc.toNat / 8)
      | ((w, false), s1) =>
        match jvDecode e (codeWord w pc) with
        | none => s1.exc e xIllegal 0
        | some k =>
          if k = i then
            let s2 := State.settle 16 e uses s1
            body (s2.eng e).ctx s2
          else s

/-- The instruction after this one. [DESIGN CHOICE, log 60] -/
def CtxSt.step (c : CtxSt) : CtxSt := { c with pc := c.pc + 4#32 }

/-- Complete with a register result (R216, R237). -/
def State.put (s : State) (e : Nat) (c : CtxSt) (rd : Nat) (v : Word) (tag : Bool) : State :=
  s.setCtx e (c.step.setG rd v tag)

/-- Complete with a pair result (R216). -/
def State.putPair (s : State) (e : Nat) (c : CtxSt) (rd : Nat) (v : DWord) (tag : Bool) : State :=
  s.setCtx e ((c.step.setG rd (v.setWidth 32) tag).setG (rd + 1) (v.extractLsb' 32 32) tag)

/-! ### Operand forms -/

/-- Format A, two sources and a result; the tag is the OR of the sources' (R237). -/
def State.op2 (s : State) (e : Fin 8) (i : Instr) (rd rs1 rs2 : Nat) (f : Word → Word → Word) : State :=
  s.issue e i [rd, rs1, rs2] fun c a => a.put e c rd (f (c.greg rs1) (c.greg rs2)) (c.tag rs1 || c.tag rs2)

/-- One source and a constant. -/
def State.op1 (s : State) (e : Fin 8) (i : Instr) (rd rs1 : Nat) (f : Word → Word) : State :=
  s.issue e i [rd, rs1] fun c a => a.put e c rd (f (c.greg rs1)) (c.tag rs1)

/-- A division: DIVZ for a clean zero divisor; a poisoned zero divisor gives a poisoned value that is not stated
(R226, R237). [DESIGN CHOICE, log 61] -/
def State.opDiv (s : State) (e : Fin 8) (i : Instr) (rd rs1 rs2 : Nat) (f : Word → Word → Word) : State :=
  s.issue e i [rd, rs1, rs2] fun c a =>
    if c.greg rs2 = 0#32 then
      if c.tag rs2 then
        let (n, b) := a.draw
        b.put e c rd ((Config.freeWord n).setWidth 32) true
      else a.exc e xDivz 0
    else a.put e c rd (f (c.greg rs1) (c.greg rs2)) (c.tag rs1 || c.tag rs2)

/-- A floating-point operation on sources `rs`: result, tag and FSTICKY (R227, R228, R237). -/
def State.opF (s : State) (e : Fin 8) (i : Instr) (rd : Nat) (rs : List Nat) (f : List Nat → FRes) : State :=
  s.issue e i (rd :: rs) fun c a =>
    let p := rs.any c.tag
    let (v, fl) := f (rs.map fun r => (c.greg r).toNat)
    a.put e (c.stick p fl) rd (BitVec.ofNat 32 v) p

/-- Sign-extended immediate (R224). -/
def sx (imm : BitVec 16) : Word := imm.signExtend 32
/-- Zero-extended immediate (R224). -/
def zx (imm : BitVec 16) : Word := imm.setWidth 32
/-- 1 or 0 as a register value. -/
def wBool (b : Bool) : Word := if b then 1#32 else 0#32

/-- A branch (R225): both operands must be clean (R238). -/
def State.branch (s : State) (e : Fin 8) (i : Instr) (rs1 rs2 : Nat) (imm : BitVec 16) (p : Word → Word → Bool) : State :=
  s.issue e i [rs1, rs2] fun c a =>
    if c.tag rs1 || c.tag rs2 then a.exc e xPoison 2
    else
      let next := c.pc + 4#32
      a.setCtx e { c with pc := if p (c.greg rs1) (c.greg rs2) then next + sx imm * 4#32 else next }

/-! ### Addresses (R218, R219) -/

/-- The window of an address (R218). -/
inductive Window where
  | code (off : Nat)
  | data (off : Nat)
  | landing (off : Nat)
  | none
deriving DecidableEq, Repr

/-- The window an address lies in (R218). -/
def windowOf (a : Word) : Window :=
  let n := a.toNat
  if n < 0x40000 then .code n
  else if 0x10000000 ≤ n ∧ n < 0x10020000 then .data (n - 0x10000000)
  else if 0x80000000 ≤ n ∧ n < 0x83000000 then .landing (n - 0x80000000)
  else .none

/-- Whether a protection region permits an access of a class (R219). -/
def State.regionAllows (s : State) (r cls off : Nat) (rd wr : Bool) : Bool :=
  s.bit Reg.TEX_MPCTL_EN r && bitAt (s.rd Reg.TEX_MPCTL_CLASS r) cls
    && decide (s.rd Reg.TEX_MPFIR_PAGE r ≤ off / 4096) && decide (off / 4096 ≤ s.rd Reg.TEX_MPLAS_PAGE r)
    && (!rd || s.bit Reg.TEX_MPCTL_RD r) && (!wr || s.bit Reg.TEX_MPCTL_WR r)

/-- Whether the task on an engine may make a Landing access (R219). -/
def State.permitted (s : State) (e off : Nat) (rd wr : Bool) : Bool :=
  (upFrom 0 16).any fun r => s.regionAllows r (s.rd Reg.TEX_XCFG_PCLASS (s.eng e).task) off rd wr

/-- Whether a Landing access of an engine touches a retired page (R261). -/
def State.touchesRetired (s : State) (off : Nat) : Bool := (s.retEntry off).isSome

/-! ### Loads and stores (R225, R237 to R239) -/

/-- A load result: `n` bytes at byte `k` of a codeword, sign-extended with `sg`; eight bytes whole. -/
def loadValue (c : Cw) (k n : Nat) (sg : Bool) : DWord :=
  let v := bitsOf c.data.toNat (8 * k) (8 * n)
  if n = 8 then c.data
  else if sg ∧ n < 4 ∧ bitAt v (8 * n - 1) then BitVec.ofNat 64 (v + 2 ^ 32 - 2 ^ (8 * n)) else BitVec.ofNat 64 v

/-- Deliver a local load. -/
def State.putLoad (s : State) (e : Nat) (c : CtxSt) (rd n : Nat) (v : DWord) (tag : Bool) : State :=
  if n = 8 then s.putPair e c rd v tag else s.put e c rd (v.setWidth 32) tag

/-- An engine that holds its full share waits until a request of it completes (R24, R25): its oldest load returns, or its
oldest waiting access is granted. [DESIGN CHOICE, log 66] -/
def State.shareRoom (s : State) (e : Fin 8) : State :=
  let n := (s.eng e).loads.length
  match s.lnd.waiting.find? fun w => w.ofEngine e with
  | some x =>
    if n + (s.lnd.waiting.filter fun w => w.ofEngine e).length < 16 then s
    else if 0 < n then s.returnLoad e else s.lndServe fun w => w.seq == x.seq
  | none => if n < 16 then s else s.returnLoad e

/-- Put a Landing load among the outstanding ones (R215): with the share full it waits for one to complete (R25). -/
def State.putOutstanding (s : State) (e : Fin 8) (c : CtxSt) (l : LoadSt) : State :=
  let s1 := s.shareRoom e
  let c1 := (s1.eng e).ctx
  s1.setEng e { s1.eng e with ctx := { c1 with pc := c.pc + 4#32 }, loads := (s1.eng e).loads ++ [l] }

/-- A load of `n` bytes (R218, R225): poison of the base, alignment, window and protection in that order. [DEDUCED, log 63] -/
def State.load (s : State) (e : Fin 8) (i : Instr) (rd rs1 : Nat) (imm : BitVec 16) (n : Nat) (sg : Bool) : State :=
  s.issue e i ([rd, rs1] ++ if n = 8 then [rd + 1] else []) fun c a =>
    let ea := c.greg rs1 + sx imm
    if n = 8 ∧ rd % 2 = 1 then a.exc e xIllegal 0
    else if c.tag rs1 then a.exc e xPoison 1
    else if ea.toNat % n ≠ 0 then a.excAt e xMisalign 0 ea
    else match windowOf ea with
      | .none => a.excAt e xMprot 0 ea
      | .code off =>
        match a.codeCw e (off / 8) with
        | ((_, true), b) => b.engineFault e 1 (off / 8)
        | ((w, false), b) => b.putLoad e c rd n (loadValue w (off % 8) n sg) w.poison
      | .data off =>
        let (w, b) := a.dataCw e (off / 8)
        b.putLoad e c rd n (loadValue w (off % 8) n sg) w.poison
      | .landing off =>
        if !a.permitted e off true false then a.excAt e xMprot 0 ea
        else if a.touchesRetired off then (a.noteRetired (engPort e) off n).excAt e xRetired 0 ea
        else
          let (w, b) := a.lndCwRead (engPort e) (off / 8 * 8)
          b.putOutstanding e c ⟨rd, n == 8, loadValue w (off % 8) n sg, w.poison⟩

/-- A store of `n` bytes (R218, R225, R239): the value is a word, or a pair for eight bytes. -/
def State.store (s : State) (e : Fin 8) (i : Instr) (rs2 rs1 : Nat) (imm : BitVec 16) (n : Nat) : State :=
  s.issue e i ([rs2, rs1] ++ if n = 8 then [rs2 + 1] else []) fun c a =>
    let ea := c.greg rs1 + sx imm
    let v := if n = 8 then pairWord (c.greg rs2) (c.greg (rs2 + 1)) else (c.greg rs2).setWidth 64
    let p := c.tag rs2 || (n == 8 && c.tag (rs2 + 1))
    if n = 8 ∧ rs2 % 2 = 1 then a.exc e xIllegal 0
    else if c.tag rs1 then a.exc e xPoison 1
    else if ea.toNat % n ≠ 0 then a.excAt e xMisalign 0 ea
    else
      let mask := fun (off : Nat) => BitVec.ofNat 8 ((2 ^ n - 1) * 2 ^ (off % 8))
      let d := fun (off : Nat) => v <<< (8 * (off % 8))
      match windowOf ea with
      | .none => a.excAt e xMprot 0 ea
      | .code _ => a.excAt e xMprot 0 ea
      | .data off => (a.writeCw (.data e) (off / 8) (engPort e) (mask off) (d off) p).setCtx e c.step
      | .landing off =>
        if !a.permitted e off false true then a.excAt e xMprot 0 ea
        else if a.touchesRetired off then (a.noteRetired (engPort e) off n).excAt e xRetired 0 ea
        else (a.lndCwWrite (engPort e) (off / 8 * 8) (mask off) (d off) p).setCtx e c.step

/-- An atomic (R28, R229, R238): the fence, then one read-modify-write; `f` gives the new word, `none` for no change;
`cas` says that a poisoned old word or expected value bites. The result is tagged by the old word and rs2 (R237). -/
def State.atomic (s : State) (e : Fin 8) (i : Instr) (rd rs1 rs2 : Nat) (cas : Bool) (f : Word → Word → Word → Option Word) : State :=
  s.issue e i [rd, rs1, rs2] fun c0 a0 =>
    let a := a0.fenced e
    let c := { (a.eng e).ctx with pc := c0.pc }
    let ea := c.greg rs1
    if c.tag rs1 then a.exc e xPoison 1
    else if ea.toNat % 4 ≠ 0 then a.excAt e xMisalign 0 ea
    else match windowOf ea with
      | .landing off =>
        if !a.permitted e off true true then a.excAt e xMprot 0 ea
        else if a.touchesRetired off then (a.noteRetired (engPort e) off 4).excAt e xRetired 0 ea
        else
          let b := a.inOrder (engPort e) off
          let old := (b.landing.decode (b.lndCw off)).1
          let ow : Word := old.data.extractLsb' (8 * (off % 8)) 32
          if cas && (c.tag rd || old.poison) then (b.lndCwRead (engPort e) (off / 8 * 8)).2.exc e xPoison 7
          else match f ow (c.greg rs2) (c.greg rd) with
            | some nw =>
              (b.lndCwWrite (engPort e) (off / 8 * 8) (BitVec.ofNat 8 (15 * 2 ^ (off % 8)))
                ((nw.setWidth 64) <<< (8 * (off % 8))) (c.tag rs2)).put e c rd ow (old.poison || c.tag rs2)
            | none => (b.lndCwRead (engPort e) (off / 8 * 8)).2.put e c rd ow (old.poison || c.tag rs2)
      | _ => a.excAt e xMprot 0 ea

/-- Issue an instruction that acts as a FENCE first (R220). -/
def State.issueFenced (s : State) (e : Fin 8) (i : Instr) (body : CtxSt → State → State) : State :=
  s.issue e i [] fun c a =>
    let b := a.fenced e
    body { (b.eng e).ctx with pc := c.pc } b

end Sys2Proof.Machine
end

