-- ==== Sys2Proof/Machine/Alu.lean ====
section
/-! DEFINITION. JV32 integer instructions (R225, R226). -/
namespace Sys2Proof.Machine

/-- Signed values. -/
def Word.quoS (x y : Word) : Word := BitVec.ofInt 32 (x.toInt.tdiv y.toInt)
def Word.modS (x y : Word) : Word := BitVec.ofInt 32 (x.toInt.tmod y.toInt)
/-- Shift amount: bits [4:0] (R226). -/
def shAmt (y : Word) : Nat := y.toNat % 32
/-- The bit that rs2[4:0] names. -/
def bitMask (y : Word) : Word := 1#32 <<< shAmt y

/-- ADD (R226). -/
def execAdd (e : Fin 8) (rd rs1 rs2 : Fin 32) (s : State) : Host.Outcome State Fault Refusal :=
  .next (s.op2 e (.add e rd rs1 rs2) rd rs1 rs2 fun x y => x + y)

/-- SUB (R226). -/
def execSub (e : Fin 8) (rd rs1 rs2 : Fin 32) (s : State) : Host.Outcome State Fault Refusal :=
  .next (s.op2 e (.sub e rd rs1 rs2) rd rs1 rs2 fun x y => x - y)

/-- AND (R226). -/
def execAnd (e : Fin 8) (rd rs1 rs2 : Fin 32) (s : State) : Host.Outcome State Fault Refusal :=
  .next (s.op2 e (.and e rd rs1 rs2) rd rs1 rs2 fun x y => x &&& y)

/-- OR (R226). -/
def execOr (e : Fin 8) (rd rs1 rs2 : Fin 32) (s : State) : Host.Outcome State Fault Refusal :=
  .next (s.op2 e (.or e rd rs1 rs2) rd rs1 rs2 fun x y => x ||| y)

/-- XOR (R226). -/
def execXor (e : Fin 8) (rd rs1 rs2 : Fin 32) (s : State) : Host.Outcome State Fault Refusal :=
  .next (s.op2 e (.xor e rd rs1 rs2) rd rs1 rs2 fun x y => x ^^^ y)

/-- SHL (R226). -/
def execShl (e : Fin 8) (rd rs1 rs2 : Fin 32) (s : State) : Host.Outcome State Fault Refusal :=
  .next (s.op2 e (.shl e rd rs1 rs2) rd rs1 rs2 fun x y => x <<< shAmt y)

/-- SHR (R226). -/
def execShr (e : Fin 8) (rd rs1 rs2 : Fin 32) (s : State) : Host.Outcome State Fault Refusal :=
  .next (s.op2 e (.shr e rd rs1 rs2) rd rs1 rs2 fun x y => x >>> shAmt y)

/-- SHRA (R226). -/
def execShra (e : Fin 8) (rd rs1 rs2 : Fin 32) (s : State) : Host.Outcome State Fault Refusal :=
  .next (s.op2 e (.shra e rd rs1 rs2) rd rs1 rs2 fun x y => x.sshiftRight (shAmt y))

/-- CMPLT (R226). -/
def execCmplt (e : Fin 8) (rd rs1 rs2 : Fin 32) (s : State) : Host.Outcome State Fault Refusal :=
  .next (s.op2 e (.cmplt e rd rs1 rs2) rd rs1 rs2 fun x y => wBool (x.slt y))

/-- CMPLTU (R226). -/
def execCmpltu (e : Fin 8) (rd rs1 rs2 : Fin 32) (s : State) : Host.Outcome State Fault Refusal :=
  .next (s.op2 e (.cmpltu e rd rs1 rs2) rd rs1 rs2 fun x y => wBool (x.ult y))

/-- MUL (R226). -/
def execMul (e : Fin 8) (rd rs1 rs2 : Fin 32) (s : State) : Host.Outcome State Fault Refusal :=
  .next (s.op2 e (.mul e rd rs1 rs2) rd rs1 rs2 fun x y => x * y)

/-- MULHS (R226). -/
def execMulhs (e : Fin 8) (rd rs1 rs2 : Fin 32) (s : State) : Host.Outcome State Fault Refusal :=
  .next (s.op2 e (.mulhs e rd rs1 rs2) rd rs1 rs2 fun x y => BitVec.ofInt 32 (x.toInt * y.toInt / 2 ^ 32))

/-- MULHU (R226). -/
def execMulhu (e : Fin 8) (rd rs1 rs2 : Fin 32) (s : State) : Host.Outcome State Fault Refusal :=
  .next (s.op2 e (.mulhu e rd rs1 rs2) rd rs1 rs2 fun x y => BitVec.ofNat 32 (x.toNat * y.toNat / 2 ^ 32))

/-- MIN (R226). -/
def execMin (e : Fin 8) (rd rs1 rs2 : Fin 32) (s : State) : Host.Outcome State Fault Refusal :=
  .next (s.op2 e (.min e rd rs1 rs2) rd rs1 rs2 fun x y => if x.slt y then x else y)

/-- MAX (R226). -/
def execMax (e : Fin 8) (rd rs1 rs2 : Fin 32) (s : State) : Host.Outcome State Fault Refusal :=
  .next (s.op2 e (.max e rd rs1 rs2) rd rs1 rs2 fun x y => if x.slt y then y else x)

/-- MINU (R226). -/
def execMinu (e : Fin 8) (rd rs1 rs2 : Fin 32) (s : State) : Host.Outcome State Fault Refusal :=
  .next (s.op2 e (.minu e rd rs1 rs2) rd rs1 rs2 fun x y => if x.ult y then x else y)

/-- MAXU (R226). -/
def execMaxu (e : Fin 8) (rd rs1 rs2 : Fin 32) (s : State) : Host.Outcome State Fault Refusal :=
  .next (s.op2 e (.maxu e rd rs1 rs2) rd rs1 rs2 fun x y => if x.ult y then y else x)

/-- BTST (R226). -/
def execBtst (e : Fin 8) (rd rs1 rs2 : Fin 32) (s : State) : Host.Outcome State Fault Refusal :=
  .next (s.op2 e (.btst e rd rs1 rs2) rd rs1 rs2 fun x y => wBool (x.getLsbD (shAmt y)))

/-- BSET (R226). -/
def execBset (e : Fin 8) (rd rs1 rs2 : Fin 32) (s : State) : Host.Outcome State Fault Refusal :=
  .next (s.op2 e (.bset e rd rs1 rs2) rd rs1 rs2 fun x y => x ||| bitMask y)

/-- BCLR (R226). -/
def execBclr (e : Fin 8) (rd rs1 rs2 : Fin 32) (s : State) : Host.Outcome State Fault Refusal :=
  .next (s.op2 e (.bclr e rd rs1 rs2) rd rs1 rs2 fun x y => x &&& ~~~bitMask y)

/-- BFLIP (R226). -/
def execBflip (e : Fin 8) (rd rs1 rs2 : Fin 32) (s : State) : Host.Outcome State Fault Refusal :=
  .next (s.op2 e (.bflip e rd rs1 rs2) rd rs1 rs2 fun x y => x ^^^ bitMask y)

/-- QUO (R226): truncated toward zero; the remainder has the sign of rs1. -/
def execQuo (e : Fin 8) (rd rs1 rs2 : Fin 32) (s : State) : Host.Outcome State Fault Refusal :=
  .next (s.opDiv e (.quo e rd rs1 rs2) rd rs1 rs2 fun x y => Word.quoS x y)

/-- QUOU (R226): truncated toward zero; the remainder has the sign of rs1. -/
def execQuou (e : Fin 8) (rd rs1 rs2 : Fin 32) (s : State) : Host.Outcome State Fault Refusal :=
  .next (s.opDiv e (.quou e rd rs1 rs2) rd rs1 rs2 fun x y => x / y)

/-- MOD (R226): truncated toward zero; the remainder has the sign of rs1. -/
def execMod (e : Fin 8) (rd rs1 rs2 : Fin 32) (s : State) : Host.Outcome State Fault Refusal :=
  .next (s.opDiv e (.mod e rd rs1 rs2) rd rs1 rs2 fun x y => Word.modS x y)

/-- MODU (R226): truncated toward zero; the remainder has the sign of rs1. -/
def execModu (e : Fin 8) (rd rs1 rs2 : Fin 32) (s : State) : Host.Outcome State Fault Refusal :=
  .next (s.opDiv e (.modu e rd rs1 rs2) rd rs1 rs2 fun x y => x % y)

/-- PTST (R226): the poison tag as a clean value. -/
def execPtst (e : Fin 8) (rd rs1 : Fin 32) (s : State) : Host.Outcome State Fault Refusal :=
  .next (s.issue e (.ptst e rd rs1) [rd.val, rs1.val] fun c a => a.put e c rd (wBool (c.tag rs1)) false)

/-- ADDK (R225). -/
def execAddk (e : Fin 8) (rd rs1 : Fin 32) (imm : BitVec 16) (s : State) : Host.Outcome State Fault Refusal :=
  .next (s.op1 e (.addk e rd rs1 imm) rd rs1 fun x => x + sx imm)

/-- ANDK (R225). -/
def execAndk (e : Fin 8) (rd rs1 : Fin 32) (imm : BitVec 16) (s : State) : Host.Outcome State Fault Refusal :=
  .next (s.op1 e (.andk e rd rs1 imm) rd rs1 fun x => x &&& zx imm)

/-- ORK (R225). -/
def execOrk (e : Fin 8) (rd rs1 : Fin 32) (imm : BitVec 16) (s : State) : Host.Outcome State Fault Refusal :=
  .next (s.op1 e (.ork e rd rs1 imm) rd rs1 fun x => x ||| zx imm)

/-- XORK (R225). -/
def execXork (e : Fin 8) (rd rs1 : Fin 32) (imm : BitVec 16) (s : State) : Host.Outcome State Fault Refusal :=
  .next (s.op1 e (.xork e rd rs1 imm) rd rs1 fun x => x ^^^ zx imm)

/-- CMPLTK (R225). -/
def execCmpltk (e : Fin 8) (rd rs1 : Fin 32) (imm : BitVec 16) (s : State) : Host.Outcome State Fault Refusal :=
  .next (s.op1 e (.cmpltk e rd rs1 imm) rd rs1 fun x => wBool (x.slt (sx imm)))

/-- CMPLTUK (R225). -/
def execCmpltuk (e : Fin 8) (rd rs1 : Fin 32) (imm : BitVec 16) (s : State) : Host.Outcome State Fault Refusal :=
  .next (s.op1 e (.cmpltuk e rd rs1 imm) rd rs1 fun x => wBool (x.ult (sx imm)))

/-- SHK with imm[6:5] of this form (R225). -/
def execShkShl (e : Fin 8) (rd rs1 : Fin 32) (sh : BitVec 5) (s : State) : Host.Outcome State Fault Refusal :=
  .next (s.op1 e (.shkShl e rd rs1 sh) rd rs1 fun x => x <<< sh.toNat)

/-- SHK with imm[6:5] of this form (R225). -/
def execShkShr (e : Fin 8) (rd rs1 : Fin 32) (sh : BitVec 5) (s : State) : Host.Outcome State Fault Refusal :=
  .next (s.op1 e (.shkShr e rd rs1 sh) rd rs1 fun x => x >>> sh.toNat)

/-- SHK with imm[6:5] of this form (R225). -/
def execShkShra (e : Fin 8) (rd rs1 : Fin 32) (sh : BitVec 5) (s : State) : Host.Outcome State Fault Refusal :=
  .next (s.op1 e (.shkShra e rd rs1 sh) rd rs1 fun x => x.sshiftRight sh.toNat)

/-- HIK (R225): rd := imm << 16. -/
def execHik (e : Fin 8) (rd : Fin 32) (imm : BitVec 16) (s : State) : Host.Outcome State Fault Refusal :=
  .next (s.issue e (.hik e rd imm) [rd.val] fun c a => a.put e c rd (zx imm <<< 16) false)

end Sys2Proof.Machine
end

