-- ==== Sys2Proof/Machine/Rings.lean ====
section
/-! DEFINITION. Device time commands (R32 to R35) and the hoist rings: grid, enable, disable, reload, period (R36 to R43). -/
namespace Sys2Proof.Machine

/-! ### Device time (R33 to R35) -/

/-- A write to HST_SLEW (R33): the amount is counted from zero at the write. -/
def State.slewWrite (s : State) (v : Nat) : State :=
  let s1 := (s.wr Reg.HST_SLEW_SLEW v).wrB Reg.HST_TSTAT_SLEWBUSY (v % 2 ^ 32 ≠ 0)
  { s1 with time := { s1.time with share := 0 } }
/-- SLEW_WRITE. -/
def execSlewWrite (v : Word) (s : State) : Host.Outcome State Fault Refusal := .next (s.slewWrite v.toNat)

/-- SLEW_END: the edges pass after which HST_SLEW is 0 (R33); a slew without room stays pending. -/
def execSlewEnd (s : State) : Host.Outcome State Fault Refusal :=
  match s.slewEdges with
  | some k => .next (s.edgesFlat k)
  | none => .next s

/-- Whether any ring is enabled or running (R34). -/
def State.anyRing (s : State) : Bool := (upFrom 0 8).any fun n => s.bit Reg.HST_RINGCTL_EN n || s.bit Reg.HST_RSTAT_RUN n

/-- A refused time step (R34). -/
def State.stepRefused (s : State) (cause : Nat) : State := (s.wrB Reg.HST_TSTAT_STEPREJ true).tally 0x0201 0 cause

/-- Load device time on the next edge (R34). -/
def State.loadTime (s : State) (sec ns : Nat) : State :=
  { s with time := { s.time with sec := sec % 2 ^ 48, ns := ns, acc := 0, edge := s.time.edge + 1 } }

/-- A write of 1 to HST_TCTL.STEP (R34). -/
def State.timeStep (s : State) : State :=
  if s.anyRing then s.stepRefused 1
  else if 999999999 < s.rd Reg.HST_TSET_NS_NS then s.stepRefused 2
  else s.loadTime (s.rd Reg.HST_TSET_SLO_SEC + s.rd Reg.HST_TSET_SHI_SEC * 2 ^ 32) (s.rd Reg.HST_TSET_NS_NS)
/-- TIME_STEP. -/
def execTimeStep (s : State) : Host.Outcome State Fault Refusal := .next s.timeStep

/-- A write of 1 to HST_TCTL.SNAP (R35). -/
def State.timeSnap (s : State) : State :=
  ((((s.wr Reg.HST_TSEC_LO_SEC s.time.sec).wr Reg.HST_TSEC_HI_SEC (s.time.sec / 2 ^ 32)).wr Reg.HST_TNS_NS s.time.ns).wr
    Reg.HST_HTIME_LO_HT s.htime).wr Reg.HST_HTIME_HI_HT (s.htime / 2 ^ 32)
/-- TIME_SNAP. -/
def execTimeSnap (s : State) : Host.Outcome State Fault Refusal := .next s.timeSnap

/-! ### Rings (R36 to R43) -/

/-- The ring. -/
def State.ring (s : State) (n : Nat) : RingSt := tabAt {} s.rings n
/-- Replace the ring. -/
def State.setRing (s : State) (n : Nat) (r : RingSt) : State := { s with rings := tabPut {} s.rings n r }

/-- Period in nanoseconds (R36). -/
def RingSt.perNs (r : RingSt) : Nat := r.per * 125
/-- The full quotient K of an instant (R162). -/
def RingSt.quot (r : RingSt) (t : Nat) : Int := ((t : Int) - (r.phase * 5 : Nat)) / (r.perNs : Int)
/-- The hoist number of an instant (R37). -/
def RingSt.hnum (r : RingSt) (t : Nat) : Nat := uOf 32 (r.quot t)
/-- The first instant of the grid at or after `t` (R36). -/
def RingSt.firstAfter (r : RingSt) (t : Nat) : Nat :=
  let p : Int := (r.perNs : Int)
  let x : Int := (t : Int) - (r.phase * 5 : Nat)
  (((x + p - 1) / p) * p + (r.phase * 5 : Nat)).toNat

/-- The present run of ring `n`, as one number over all rings. [DEDUCED, log 20] -/
def RingSt.era (r : RingSt) (n : Nat) : Nat := 8 * r.anchor + n

/-- Hoist number of the present period. -/
def RingSt.now (r : RingSt) : Nat := r.hnum r.tk
/-- T of the input deadline and of the seal of the present period (R38). -/
def RingSt.deadline (r : RingSt) : Nat := r.tk + r.dlin * 5
def RingSt.seal_ (r : RingSt) : Nat := r.tk + r.slin * 5

/-- The configuration in the registers of a ring. -/
def State.ringShadow (s : State) (n : Nat) : RingSt :=
  { per := s.rd Reg.HST_RPER_PER n, phase := s.rd Reg.HST_RPHASE_PHASE n, dlin := s.rd Reg.HST_RDLIN_DLIN n, slin := s.rd Reg.HST_RSEAL_SEAL n }

/-- The configuration of a ring: the one in use, or the registers' while the ring has no grid. -/
def State.ringCfg (s : State) (n : Nat) : RingSt := if (s.ring n).live then s.ring n else s.ringShadow n

/-- Whether a configuration is valid (R39). -/
def RingSt.valid (r : RingSt) : Bool :=
  decide (160 ≤ r.per) && decide (r.per ≤ 524280) && decide (r.phase < r.per * 25) && decide (200 ≤ r.dlin)
    && decide (r.dlin + 200 ≤ r.slin) && decide (r.slin + 200 ≤ r.per * 25)

/-- CFGERR and PEND follow the registers (R40, R43). [DEDUCED, log 15] -/
def State.ringFlags (s : State) (n : Nat) : State :=
  let sh := s.ringShadow n
  let r := s.ring n
  let pend := r.live && !(sh.per == r.per && sh.phase == r.phase && sh.dlin == r.dlin && sh.slin == r.slin)
  (s.wrB Reg.HST_RSTAT_CFGERR (!sh.valid) n).wrB Reg.HST_RSTAT_PEND pend n

/-- A ring with the grid of its registers, to fire first at least 2 µs after T (R41). -/
def State.ringGrid (s : State) (n at_ : Nat) : RingSt :=
  let sh := s.ringShadow n
  { sh with live := true, next := sh.firstAfter (at_ + 2000), blank := true, anchor := (s.ring n).anchor + 1 }

/-- EN is written 1 (R40 to R42). [DEDUCED, log 15] -/
def State.ringEnable (s : State) (n : Nat) : State :=
  if s.bit Reg.HST_RINGCTL_EN n then s
  else if s.bit Reg.HST_RSTAT_RUN n then s.wrB Reg.HST_RINGCTL_EN true n
  else if !(s.ringShadow n).valid then s.ringFlags n
  else ((s.setRing n (s.ringGrid n s.T)).wrB Reg.HST_RINGCTL_EN true n).ringFlags n

/-- EN is written 0 (R42): a ring that has not reached its first instant has no period to complete. -/
def State.ringDisable (s : State) (n : Nat) : State :=
  let s1 := s.wrB Reg.HST_RINGCTL_EN false n
  if (s.ring n).live && !s.bit Reg.HST_RSTAT_RUN n then
    ((s1.setRing n { s.ring n with live := false }).wrB Reg.HST_RINGCTL_RELOAD false n).ringFlags n
  else s1

/-- A write of 1 to RELOAD (R43): a ring without a grid has nothing to take. [DEDUCED, log 14] -/
def State.ringReload (s : State) (n : Nat) : State :=
  if (s.ring n).live then s.wrB Reg.HST_RINGCTL_RELOAD true n else s
/-- RING_RELOAD. -/
def execRingReload (n : Fin 8) (s : State) : Host.Outcome State Fault Refusal := .next (s.ringReload n)

/-- What the end of a period finds. -/
inductive PeriodEnd where
  /-- the ring goes on: a new period begins and samples unless `blank` -/
  | go (blank : Bool)
  /-- the ring stops after this apply (R42) -/
  | stop
  /-- the ring re-anchors: no sample, and a gap until u_0 -/
  | gap
deriving DecidableEq, Repr

/-- Take a reload at the end of a period (R40, "When a ring is reprogrammed while it runs"): ignored with CFGERR when
invalid; with an unchanged grid only D and S change; otherwise the ring re-anchors. [DEDUCED, log 14 and 15] -/
def State.takeReload (s : State) (n : Nat) : Bool × State :=
  let r := s.ring n
  let sh := s.ringShadow n
  let s1 := s.wrB Reg.HST_RINGCTL_RELOAD false n
  if !sh.valid then (false, s1.ringFlags n)
  else if sh.per = r.per ∧ sh.phase = r.phase then
    (false, ((s1.setRing n { r with dlin := sh.dlin, slin := sh.slin }).ringFlags n).identUpdate)
  else
    let g := s1.ringGrid n r.next
    let s2 := ((s1.setRing n { g with begun := true, tk := r.next, dDone := true, sDone := true }).wrB Reg.HST_RSTAT_REPH true n).tally 0x0202 n 0 (g.hnum g.next)
    (true, (s2.ringFlags n).identUpdate)

/-- A ring at its next instant: what begins there, with the ring's own state moved on. The outputs of the period that
ends apply unless the ring was in its first instant or a gap (`r.blank`). [DESIGN CHOICE, log 138] -/
def State.ringTurn (s : State) (n : Nat) : PeriodEnd × State :=
  let r := s.ring n
  if r.begun && !s.bit Reg.HST_RINGCTL_EN n then
    let s1 := (s.setRing n { r with live := false, begun := false, sampled := false }).wrB Reg.HST_RSTAT_RUN false n
    (.stop, (s1.wrB Reg.HST_RINGCTL_RELOAD false n).ringFlags n)
  else
    let (gap, s1) := if s.bit Reg.HST_RINGCTL_RELOAD n then s.takeReload n else (false, s)
    if gap then (.gap, s1)
    else
      let r1 := s1.ring n
      let s2 := s1.setRing n { r1 with
        tk := r.next, next := r.next + r1.perNs, begun := true, blank := false, sampled := !r.blank, dDone := false, sDone := false,
        cut := false }
      let s3 := s2.wrB Reg.HST_RSTAT_RUN true n
      (.go r.blank, if r.blank then s3 else s3.wr Reg.HST_RHNUM_HNUM (r1.hnum r.next) n)

/-! ### Late producers (R48) -/

/-- A seal with at least one late producer. -/
def State.ringLate (s : State) (n : Nat) : State := (s.wrB Reg.HST_RSTAT_LATE true n).inc Reg.HST_RLATECNT_CNT n

end Sys2Proof.Machine
end

