-- ==== Sys2Proof/Machine/Lists.lean ====
section
/-! DEFINITION. Timed step lists (R52 to R63): control, steps, actions, evaluation at the input deadline. -/
namespace Sys2Proof.Machine

/-- State codes of R53. -/
def lsIdle : Nat := 0
def lsArmed : Nat := 1
def lsRun : Nat := 2
def lsHeld : Nat := 3
def lsDone : Nat := 4
def lsFault : Nat := 5

/-- Causes of R63. -/
def lcTimeout : Nat := 1
def lcPoisonStep : Nat := 2
def lcPoisonCond : Nat := 3
def lcFormat : Nat := 4

/-- Landing port of the HST island. -/
def hstPort : Nat := 3

/-- A step record (R59). -/
structure Step where
  fin : Bool
  jmp : Bool
  adv : Nat
  toact : Nat
  n : Nat
  tostep : Nat
  next : Nat
  caddr : Nat
  cmask : Nat
  cval : Nat
  cop : Nat
  acnt : Nat
  aaddr : Nat
deriving DecidableEq, Repr

/-- The 32-bit word at byte `o` of a record. -/
def wordAt (b : List Byte) (o : Nat) : Nat := leNat ((b.drop o).take 4)

/-- A step record from its 32 bytes (R59). -/
def parseStep (b : List Byte) : Step :=
  let w0 := wordAt b 0
  let w1 := wordAt b 4
  let w5 := wordAt b 20
  { fin := bitAt w0 31, jmp := bitAt w0 30, adv := bitsOf w0 28 2, toact := bitsOf w0 26 2, n := bitsOf w0 0 24
    tostep := bitsOf w1 16 12, next := bitsOf w1 0 12
    caddr := wordAt b 8, cmask := wordAt b 12, cval := wordAt b 16, cop := bitsOf w5 0 4, acnt := bitsOf w5 16 5
    aaddr := wordAt b 24 }

/-- An action (R61). -/
structure StepAct where
  taddr : Nat
  amask : Nat
  aval : Nat
  type : Nat
deriving DecidableEq, Repr

/-- An action from its 16 bytes (R61). -/
def parseAct (b : List Byte) : StepAct :=
  { taddr := wordAt b 0, amask := wordAt b 4, aval := wordAt b 8, type := bitsOf (wordAt b 12) 28 4 }

/-- The actions of a block. -/
def parseActs : Nat → List Byte → List StepAct
  | 0, _ => []
  | k + 1, b => parseAct (b.take 16) :: parseActs k (b.drop 16)

/-- A Landing word address: aligned and inside. -/
def wordAddrOk (a : Nat) : Bool := decide (a % 4 = 0) && inLanding a 4

/-- The step record part of the FORMAT check (R63). [DEDUCED, log 18] -/
def Step.formatOk (p : Step) (last : Nat) : Bool :=
  decide (p.adv ≤ 1) && decide (p.toact ≤ 2) && decide (p.cop ≤ 7) && decide (p.acnt ≤ 16)
    && (!p.jmp || decide (p.next ≤ last)) && (decide (p.toact ≠ 1) || decide (p.tostep ≤ last))
    && (decide (p.adv = 0) || wordAddrOk p.caddr)
    && (decide (p.acnt = 0) || (decide (p.aaddr % 16 = 0) && inLanding p.aaddr (16 * p.acnt)))

/-- The action part of the FORMAT check (R63). -/
def StepAct.formatOk (a : StepAct) : Bool := decide (a.type = 1) || (decide (a.type = 0) && wordAddrOk a.taddr)

/-- The condition of a step on its word (R60). -/
def Step.holds (p : Step) (w : Nat) : Bool :=
  let m := Nat.land w p.cmask
  match p.cop with
  | 0 => m == p.cval
  | 1 => m != p.cval
  | 2 => m == p.cmask
  | 3 => m != 0
  | 4 => decide (sInt 32 p.cval ≤ sInt 32 w)
  | 5 => decide (sInt 32 w ≤ sInt 32 p.cval)
  | 6 => !fIsNan b32 w && !fIsNan b32 p.cval && !valLt (fDec b32 w) (fDec b32 p.cval)
  | _ => !fIsNan b32 w && !fIsNan b32 p.cval && !valLt (fDec b32 p.cval) (fDec b32 w)

/-- What a list holds beside its registers. -/
def State.lst (s : State) (m : Nat) : ListSt := tabAt {} s.lists m
/-- Replace it. -/
def State.setLst (s : State) (m : Nat) (x : ListSt) : State := { s with lists := tabPut {} s.lists m x }
/-- State code of a list. -/
def State.lstState (s : State) (m : Nat) : Nat := s.rd Reg.HST_LSTAT_STATE m
/-- Set the state code; the cause is 0 outside FAULT. -/
def State.lstTo (s : State) (m c : Nat) : State := (s.wr Reg.HST_LSTAT_STATE c m).wr Reg.HST_LSTAT_CAUSE 0 m

/-- A list enters FAULT (R53, R63). -/
def State.lstFault (s : State) (m cause step : Nat) : State :=
  let s1 := ((s.wr Reg.HST_LSTAT_STATE lsFault m).wr Reg.HST_LSTAT_CAUSE cause m).wr Reg.HST_LSTAT_STEP step m
  (s1.setSummary 2 Reg.HST_LFLT_FLT (m % 32) (m / 32)).tally 0x0203 m cause step

/-- A list enters DONE (R53). -/
def State.lstDone (s : State) (m : Nat) : State := (s.lstTo m lsDone).setSummary 2 Reg.HST_LDONE_DONE (m % 32) (m / 32)

/-- Landing offset of the REQ word of a loop's descriptor (R64, R70). -/
def State.reqAddr (s : State) (l : Nat) : Nat := s.rd Reg.CLE_DBASE_BASE * 4096 + 128 * l + 4

/-- LMODE: a mode request in the loop's descriptor, with MSET = 0 and REQV = 1 (R62). [DEDUCED, log 19] -/
def State.lmode (s : State) (l mode : Nat) : State := s.lndMerge32 hstPort (s.reqAddr l) 0x8000000F (0x80000000 + mode % 8)

/-- Perform one action (R61, R62). [DEDUCED, log 19] -/
def State.stepAct (s : State) (a : StepAct) : State :=
  if a.type = 0 then s.lndMerge32 hstPort a.taddr a.amask a.aval else s.lmode (a.taddr % 4096) a.amask

/-- Enter a step: read record and actions once, check all of it, then perform the actions in order (R54, R58, R63). [DEDUCED, log 17 and 18] -/
def State.lstEnter (s : State) (m step : Nat) : State :=
  let x := s.lst m
  let ((b, bad), s1) := s.lndBytes hstPort (x.base + 32 * step) 32
  let p := parseStep b
  if bad then s1.lstFault m lcPoisonStep step
  else if !p.formatOk x.last then s1.lstFault m lcFormat step
  else
    let ((ab, abad), s2) := if p.acnt = 0 then (([], false), s1) else s1.lndBytes hstPort p.aaddr (16 * p.acnt)
    let acts := parseActs p.acnt ab
    if abad then s2.lstFault m lcPoisonStep step
    else if !(acts.all StepAct.formatOk) then s2.lstFault m lcFormat step
    else
      let s3 := (((s2.setLst m { x with step := b, acts := ab }).lstTo m lsRun).wr Reg.HST_LSTAT_STEP step m).wr Reg.HST_LCNT_CNT 0 m
      s3.over acts fun (a : StepAct) s => s.stepAct a

/-- Advance from the active step (R57). Steps are numbered in 12 bits. [DEDUCED, log 18] -/
def State.lstAdvance (s : State) (m : Nat) (p : Step) : State :=
  if p.fin then s.lstDone m
  else s.lstEnter m (if p.jmp then p.next else (s.rd Reg.HST_LSTAT_STEP m + 1) % 4096)

/-- A timeout of the active step (R57). -/
def State.lstTimeout (s : State) (m : Nat) (p : Step) : State :=
  if p.toact = 0 then s.lstFault m lcTimeout (s.rd Reg.HST_LSTAT_STEP m)
  else if p.toact = 1 then s.lstEnter m p.tostep
  else s.lstAdvance m p

/-- Evaluate a list in RUN once (R54 to R57). -/
def State.lstEval (s : State) (m : Nat) : State :=
  let p := parseStep (s.lst m).step
  let s1 := s.inc Reg.HST_LCNT_CNT m
  let cnt := s1.rd Reg.HST_LCNT_CNT m
  if p.adv = 0 then
    if cnt < max 1 p.n then s1 else s1.lstAdvance m p
  else
    let ((w, bad), s2) := s1.lndWord hstPort p.caddr
    if bad then s2.lstFault m lcPoisonCond (s2.rd Reg.HST_LSTAT_STEP m)
    else if p.holds w then s2.lstAdvance m p
    else if p.n ≠ 0 ∧ p.n ≤ cnt then s2.lstTimeout m p
    else s2

/-- One list at the input deadline of its ring (R53, R54): at most once per deadline. [DEDUCED, log 16] -/
def State.lstDeadline (s : State) (n m : Nat) : State :=
  let x := s.lst m
  let mark := (s.ring n).tk + 1
  let c := s.lstState m
  if x.ring ≠ n ∨ x.evalAt = mark then s
  else if c = lsArmed then
    if s.bit Reg.HST_LCTL_HOLD m then s
    else (s.setLst m { x with evalAt := mark }).lstEnter m (s.rd Reg.HST_LCTL_FIRST m)
  else if c = lsHeld ∧ x.ringHeld then
    let s1 := s.setLst m { x with ringHeld := false, evalAt := mark }
    if s.bit Reg.HST_LCTL_HOLD m then s1 else (s1.lstTo m lsRun).lstEval m
  else if c = lsRun then (s.setLst m { x with evalAt := mark }).lstEval m
  else s

/-- The step lists of a ring at its deadline, in ascending list number (R49, R58). An instant that sampled nothing
releases none (R53). -/
def State.listsDeadline (s : State) (n : Nat) : State :=
  if (s.ring n).sampled then s.over (upFrom 0 256) fun m s => s.lstDeadline n m else s

/-- The ring of a list stops (R53): a list in RUN is held, and the deadlines of the ring's next run are all new to its lists. -/
def State.listsRingStop (s : State) (n : Nat) : State :=
  s.over (upFrom 0 256) fun m s =>
    let x := s.lst m
    if x.ring ≠ n then s
    else if s.lstState m = lsRun then (s.lstTo m lsHeld).setLst m { x with ringHeld := true, evalAt := 0 }
    else if x.evalAt = 0 then s
    else s.setLst m { x with evalAt := 0 }

/-- HOLD written (R53). A list that its ring holds waits for the ring. [DEDUCED, log 16] -/
def State.listHold (s : State) (m : Nat) (h : Bool) : State :=
  let s1 := s.wrB Reg.HST_LCTL_HOLD h m
  if h then if s.lstState m = lsRun then s1.lstTo m lsHeld else s1
  else if s.lstState m = lsHeld ∧ !(s.lst m).ringHeld then s1.lstTo m lsRun
  else s1

/-- STOP (R53). [DEDUCED, log 17] -/
def State.listStop (s : State) (m : Nat) : State := (s.lstTo m lsIdle).setLst m { s.lst m with ringHeld := false }

/-- START (R52, R53): RING, LBASE and LAST are taken for this run. [DEDUCED, log 17] -/
def State.listStart (s : State) (m : Nat) : State :=
  let c := s.lstState m
  if c = lsIdle ∨ c = lsDone ∨ c = lsFault then
    (s.lstTo m lsArmed).setLst m { s.lst m with
      ring := s.rd Reg.HST_LCTL_RING m, base := s.rd Reg.HST_LBASE_BASE m / 32 * 32, last := s.rd Reg.HST_LCTL_LAST m, ringHeld := false
      evalAt := 0 }
  else s

/-- A write to HST_LCTLm (R53): HOLD and the fields, then STOP, then START. -/
def State.listControl (s : State) (m v : Nat) : State :=
  let s1 := ((s.wr Reg.HST_LCTL_RING (bitsOf v 24 3) m).wr Reg.HST_LCTL_LAST (bitsOf v 12 12) m).wr Reg.HST_LCTL_FIRST (bitsOf v 0 12) m
  let s2 := s1.listHold m (bitAt v 29)
  let s3 := if bitAt v 30 then s2.listStop m else s2
  if bitAt v 31 then s3.listStart m else s3
/-- LIST_CONTROL. -/
def execListControl (m : Fin 256) (v : Word) (s : State) : Host.Outcome State Fault Refusal := .next (s.listControl m v.toNat)

/-- The deadline at which a list is evaluated next, if its ring has one to come in this period. -/
def State.lstDue (s : State) (m : Nat) : Option Nat :=
  let r := s.ring (s.lst m).ring
  if r.sampled && !r.dDone && decide (s.lstState m = lsRun) && decide ((s.lst m).evalAt ≠ r.tk + 1) then some r.deadline else none

/-- STEP_TIME_ADVANCE: a TIME step at its N-th evaluation (R55). -/
def execStepTimeAdvance (m : Fin 256) (s : State) : Host.Outcome State Fault Refusal :=
  let p := parseStep (s.lst m).step
  match s.lstDue m with
  | some d =>
    if p.adv = 0 ∧ max 1 p.n ≤ s.rd Reg.HST_LCNT_CNT m + 1 then .next ((s.advanceTo d).lstDeadline (s.lst m).ring m) else .next s
  | none => .next s

/-- STEP_TIMEOUT: a COND step whose condition is false at its N-th evaluation (R56, R57). -/
def execStepTimeout (m : Fin 256) (s : State) : Host.Outcome State Fault Refusal :=
  let p := parseStep (s.lst m).step
  match s.lstDue m with
  | some d =>
    let w := (s.lndWord hstPort p.caddr).1
    if p.adv = 1 ∧ p.n ≠ 0 ∧ p.n ≤ s.rd Reg.HST_LCNT_CNT m + 1 ∧ !w.2 ∧ !p.holds w.1 then
      .next ((s.advanceTo d).lstDeadline (s.lst m).ring m)
    else .next s
  | none => .next s

/-- Events C and H (R53): every list IDLE. -/
def State.listsClear (s : State) : State := { s with lists := [] }

end Sys2Proof.Machine
end

