-- ==== Sys2Proof/Machine/Cle.lean ====
section
/-! DEFINITION. The control-law engine (R64 to R89, R461): filter sets, one loop evaluation, passes. -/
namespace Sys2Proof.Machine

/-- Landing port of the CLE. -/
def clePort : Nat := 2

/-! ### Filter sets (R76) -/

/-- A filter set in use. -/
def State.fset (s : State) (f : Nat) : FiltSet := tabAt {} s.cle.fsets f
/-- The shadow of a filter set. -/
def State.fsetShadow (s : State) (f : Nat) : FiltSet :=
  { b0 := s.rd Reg.CLE_FSET_B0 f, b1 := s.rd Reg.CLE_FSET_B1 f, b2 := s.rd Reg.CLE_FSET_B2 f
    a1 := s.rd Reg.CLE_FSET_A1 f, a2 := s.rd Reg.CLE_FSET_A2 f }
/-- PEND follows the shadow. -/
def State.fsetPend (s : State) (f : Nat) : State := s.wrB Reg.CLE_FSET_PEND (decide (s.fsetShadow f ≠ s.fset f)) f
/-- COMMIT takes the shadow into use, between two evaluations. -/
def State.fsetCommit (s : State) (f : Nat) : State :=
  ({ s with cle := { s.cle with fsets := tabPut {} s.cle.fsets f (s.fsetShadow f) } }).fsetPend f
/-- FILTER_COMMIT. -/
def execFilterCommit (f : Fin 512) (s : State) : Host.Outcome State Fault Refusal := .next (s.fsetCommit f)

/-- A biquad step (R75): output (binary32) and new states. -/
def bqStep (c : FiltSet) (s1 s2 x32 : Nat) : Nat × Nat × Nat :=
  let x := to64 x32
  let yd := add64 (mul64 (to64 c.b0) x) s1
  (to32 yd, add64 (sub64 (mul64 (to64 c.b1) x) (mul64 (to64 c.a1) yd)) s2, sub64 (mul64 (to64 c.b2) x) (mul64 (to64 c.a2) yd))

/-- Binary64 one. -/
def one64 : Nat := 0x3FF0000000000000

/-- The preset of a biquad to the steady state for an input (R75). [DEDUCED, log 22] -/
def bqPreset (c : FiltSet) (x32 : Nat) : Nat × Nat :=
  let x := to64 x32
  let den := add64 (add64 one64 (to64 c.a1)) (to64 c.a2)
  if fEq b64 den 0 then (0, 0)
  else
    let yss := mul64 (div64 (add64 (add64 (to64 c.b0) (to64 c.b1)) (to64 c.b2)) den) x
    let s2 := sub64 (mul64 (to64 c.b2) x) (mul64 (to64 c.a2) yss)
    (add64 (sub64 (mul64 (to64 c.b1) x) (mul64 (to64 c.a1) yss)) s2, s2)

/-! ### Descriptors (R64, R70) -/

/-- Landing offset of a loop's descriptor. -/
def State.loopAt (s : State) (l : Nat) : Nat := s.rd Reg.CLE_DBASE_BASE * 4096 + 128 * l

/-- Low and high 32-bit words of codeword `i` of a descriptor. -/
def loOf (d : List Cw) (i : Nat) : Nat := bitsOf ((d.getD i Cw.lost).data.toNat) 0 32
def hiOf (d : List Cw) (i : Nat) : Nat := bitsOf ((d.getD i Cw.lost).data.toNat) 32 32
/-- Codeword `i` reads poisoned. -/
def psnOf (d : List Cw) (i : Nat) : Bool := (d.getD i Cw.lost).poison

/-- Modes. -/
def mdOff : Nat := 0
def mdMan : Nat := 1
def mdAuto : Nat := 2

/-- Bits of STAT (R70). -/
def stSatHi : Nat := 2 ^ 0
def stSatLo : Nat := 2 ^ 1
def stRateLim : Nat := 2 ^ 2
def stAwAct : Nat := 2 ^ 3
def stSsAct : Nat := 2 ^ 4
def stTracking : Nat := 2 ^ 5
def stPoison : Nat := 2 ^ 6
def stQBad : Nat := 2 ^ 7
def stNonFin : Nat := 2 ^ 8
def stLate : Nat := 2 ^ 9
def stModeErr : Nat := 2 ^ 10
def stCfgErr : Nat := 2 ^ 11
def stStatePsn : Nat := 2 ^ 12
def stXfer : Nat := 2 ^ 13
/-- The flags that CLE_EVSUM collects. -/
def stEvents : Nat := stPoison + stQBad + stNonFin + stLate + stModeErr + stCfgErr + stStatePsn

/-- A flag if it holds. -/
def flagIf (b : Bool) (v : Nat) : Nat := if b then v else 0

/-- A binary32 parameter that is negative or NaN (R71). -/
def negOrNan (x : Nat) : Bool := fIsNan b32 x || fLt b32 x 0

/-- Whether a descriptor's configuration is invalid (R71). -/
def loopInvalid (n l : Nat) (d : List Cw) : Bool :=
  let cfg := loOf d 0
  let spsrc := bitsOf cfg 19 2
  let spref := hiOf d 2
  let link := hiOf d 5
  let filt := loOf d 6
  let ohi := loOf d 8
  let olo := hiOf d 8
  decide (bitsOf cfg 28 3 ≠ n) || decide (spsrc = 3) || (decide (spsrc = 2) && decide (spref % 4096 = l))
    || fIsNan b32 ohi || fIsNan b32 olo || fLt b32 ohi olo
    || negOrNan (loOf d 9) || negOrNan (hiOf d 9) || negOrNan (loOf d 11) || negOrNan (hiOf d 11)
    || bitAt cfg 31 || decide (bitsOf cfg 12 4 ≠ 0)
    || decide (bitsOf link 25 7 ≠ 0) || decide (bitsOf link 12 4 ≠ 0)
    || decide (bitsOf filt 25 7 ≠ 0) || decide (bitsOf filt 9 7 ≠ 0)
    || !wordAddrOk (loOf d 2) || !wordAddrOk (loOf d 3)
    || (decide (spsrc = 1) && !wordAddrOk spref) || (bitAt cfg 16 && !wordAddrOk (hiOf d 3))

/-- Write STAT and HNUM, and collect the events (R70). -/
def State.loopStat (s : State) (l stat hnum : Nat) : State :=
  let s1 := s.lndWriteCws clePort (s.loopAt l + 8) [⟨BitVec.ofNat 64 (stat % 2 ^ 32 + hnum % 2 ^ 32 * 2 ^ 32), false⟩]
  if Nat.land stat stEvents = 0 then s1 else s1.setSummary 3 Reg.CLE_EVSUM_EV (l % 32) (l / 32)

/-- A hold for a bad input (R84): STAT and HNUM, and a Tally record on the change to bad. [DEDUCED, log 25] -/
def State.loopBad (s : State) (l stat hnum : Nat) : State :=
  let s1 := s.loopStat l stat hnum
  if s1.cle.bad.contains l then s1
  else ({ s1 with cle := { s1.cle with bad := setIns s1.cle.bad l } }).tally 0x0303 l (stat % 65536) hnum

/-- REQV is cleared (R80). -/
def State.clearReq (s : State) (l : Nat) : State := s.lndMerge32 clePort (s.reqAddr l) 0x80000000 0

/-! ### Feedback records (R114, R116) -/

/-- Landing offset of a feedback record. -/
def State.fbAt (s : State) (rem : Bool) (n : Nat) : Nat :=
  if rem then s.rd Reg.FBK_RBASE_BASE * 16384 + 32 * n else s.rd Reg.FBK_FBASE_BASE * 4096 + 32 * n

/-- The ring of a feedback record (R116). -/
def State.fbRing (s : State) (rem : Bool) (n : Nat) : Option Nat :=
  if rem then (match tabAt 0 s.fbk.remRing n with | 0 => none | k + 1 => some k)
  else some (s.rd Reg.FBK_CFG_RING n)

/-- The rule of R116 for the STAT and HNUM of a record. -/
def State.fbValid (s : State) (rem : Bool) (n stat hnum : Nat) : Bool :=
  bitAt stat 31 && !bitAt stat 29 && (match s.fbRing rem n with | some r => decide (hnum = s.rd Reg.HST_RHNUM_HNUM r) | none => false)

/-- The feedback record in use that a Landing offset lies in: of an enabled channel, or of a mapped remote record. [DEDUCED, log 136] -/
def State.fbRecordOf (s : State) (off : Nat) : Option (Bool × Nat) :=
  let c := (off - s.fbAt false 0) / 32
  let r := (off - s.fbAt true 0) / 32
  if s.fbAt false 0 ≤ off ∧ c < 24 ∧ s.bit Reg.FBK_CFG_EN c then some (false, c)
  else if s.fbAt true 0 ≤ off ∧ r < 512 ∧ (s.fbRing true r).isSome then some (true, r)
  else none

/-- What R116 makes of a loop input at an offset: QBAD where its feedback record is not valid. [DEDUCED, log 136] -/
def State.fbQualify (s : State) (off : Nat) : Nat × State :=
  match s.fbRecordOf off with
  | none => (0, s)
  | some (rem, n) =>
    let (d, s1) := s.lndRead clePort (s.fbAt rem n + 16) 1
    (if psnOf d 0 then stPoison else flagIf (!s.fbValid rem n (loOf d 0) (hiOf d 0)) stQBad, s1)

/-! ### Inputs (R78, R84) -/

/-- An input value with the flags it raises: POISON, or NONFIN if `num` and not finite. -/
structure LoopIn where
  v : Nat
  flags : Nat
deriving DecidableEq, Repr

/-- An input as read. -/
def loopIn (r : Nat × Bool) : LoopIn :=
  ⟨r.1, if r.2 then stPoison else flagIf (!fIsFin b32 r.1) stNonFin⟩

/-- Everything an evaluation reads beyond its descriptor. -/
structure LoopInputs where
  pv : Nat := 0
  ts : Nat := 0
  vel : Nat := 0
  acc : Nat := 0
  /-- MODE and PVLAST of the tracked loop -/
  tmode : Nat := 2
  tpv : Nat := 0
  flags : Nat := 0
deriving DecidableEq, Repr

/-- Read the inputs (R77 to R79, R84); PV and set-point may lie in feedback records (R116). [DEDUCED, log 22 and 136] -/
def State.loopInputs (s : State) (d : List Cw) : LoopInputs × State :=
  let cfg := loOf d 0
  let spsrc := bitsOf cfg 19 2
  let (pv, s1) := s.lndWord clePort (loOf d 2)
  let pvI := loopIn pv
  let (q, s2) := if bitAt cfg 16 then s1.lndWord clePort (hiOf d 3) else ((0, false), s1)
  let qF := if q.2 then stPoison else flagIf (decide (Nat.land q.1 (loOf d 4) ≠ 0)) stQBad
  let (ts, s3) := if spsrc = 0 then ((hiOf d 4, psnOf d 4), s2)
    else if spsrc = 1 then s2.lndWord clePort (hiOf d 2)
    else s2.lndWord clePort (s2.loopAt (hiOf d 2 % 4096) + 0x78)
  let tsI := loopIn ts
  let link := hiOf d 5
  let rec_ := s3.rd Reg.AXS_ABASE_BASE * 65536 + 128 * bitsOf link 16 9
  let (vel, s4) := if bitAt cfg 21 then s3.lndWord clePort (rec_ + 0x70) else ((0, false), s3)
  let (acc, s5) := if bitAt cfg 21 then s4.lndWord clePort (rec_ + 0x74) else ((0, false), s4)
  let velI := loopIn vel
  let accI := loopIn acc
  let trk := s5.loopAt (bitsOf link 0 12)
  let (tst, s6) := if bitAt cfg 18 then s5.lndWord clePort (trk + 8) else ((mdAuto * 2 ^ 24, false), s5)
  let (tpv, s7) := if bitAt cfg 18 then s6.lndWord clePort (trk + 0x7C) else ((0, false), s6)
  let tpvI := loopIn tpv
  let (pvF, s8) := s7.fbQualify (loOf d 2)
  let (tsF, s9) := if spsrc = 1 then s8.fbQualify (hiOf d 2) else (0, s8)
  ({ pv := pvI.v, ts := tsI.v, vel := velI.v, acc := accI.v, tmode := bitsOf tst.1 24 3, tpv := tpvI.v
     flags := Nat.lor (Nat.lor (Nat.lor (Nat.lor pvI.flags qF) (Nat.lor tsI.flags velI.flags))
      (Nat.lor (Nat.lor accI.flags (flagIf tst.2 stPoison)) tpvI.flags)) (Nat.lor pvF tsF) }, s9)

/-! ### Arithmetic (R72, R73) -/

/-- The period in seconds, binary64 (R72): to64(PER) × 125 × 10^−9. -/
def loopPeriod (per : Nat) : Nat :=
  mul64 (mul64 (fOfInt b64 .nearestEven per).1 (fOfInt b64 .nearestEven 125).1) 0x3E112E0BE826D695

/-- `min(max(v, OLO), OHI)` with the limit that acted. -/
def clampF (v olo ohi : Nat) : Nat × Nat :=
  let a := if fLt b32 v olo then olo else v
  let y := if fLt b32 ohi a then ohi else a
  (y, flagIf (fLt b32 ohi v) stSatHi + flagIf (fLt b32 v olo) stSatLo)

/-- The rate limit (R73). -/
def rateF (y yprev orate p : Nat) : Nat × Nat :=
  if fGt b32 orate 0 then
    let r := to32 (mul64 (to64 orate) p)
    let lo := sub32 yprev r
    let hi := add32 yprev r
    let a := if fLt b32 y lo then lo else y
    let b := if fLt b32 hi a then hi else a
    (b, flagIf (fLt b32 y lo || fLt b32 hi y) stRateLim)
  else (y, 0)

/-- Engine state of a loop, as codes. -/
structure LoopState where
  i : Nat
  spw : Nat
  df : Nat
  xprev : Nat
  yprev : Nat
  pvlast : Nat
  a1 : Nat
  a2 : Nat
  b1 : Nat
  b2 : Nat
deriving DecidableEq, Repr

/-- What an evaluation fixes before it computes. -/
structure LoopRun where
  d : List Cw
  inp : LoopInputs
  st : LoopState
  /-- mode before, mode of this evaluation, and whether a transfer is performed -/
  mode : Nat
  nm : Nat
  xfer : Bool
  /-- a state field was poisoned (R86); YPREV among them -/
  spsn : Bool
  ypsn : Bool
  late : Bool
  ssact : Bool
  p : Nat
  ca : FiltSet
  cb : FiltSet
deriving DecidableEq, Repr

/-- The result of an evaluation in MAN or AUTO. -/
structure LoopRes where
  st : LoopState
  y : Nat
  flags : Nat
  ssact : Bool
  /-- a new MANOUT (R82) -/
  manout : Option Nat
  ok : Bool
deriving DecidableEq, Repr

/-- The working set-point of a soft start moves towards ts (R83): SPW and SSACT after. -/
def softStep (ts spw step : Nat) : Nat × Bool :=
  let df := sub64 (to64 ts) spw
  if fLe b64 (fAbs b64 df) step then (to64 ts, false)
  else (if fLt b64 df 0 then sub64 spw step else add64 spw step, true)

/-- The arithmetic of one evaluation in MAN or AUTO (R73, R79, R81 to R83, R86). [DEDUCED, log 139; DESIGN CHOICE, log 140] -/
def LoopRun.compute (r : LoopRun) : LoopRes :=
  let cfg := loOf r.d 0
  let kp := hiOf r.d 6
  let ki := loOf r.d 7
  let kd := hiOf r.d 7
  let ohi := loOf r.d 8
  let olo := hiOf r.d 8
  let tf := loOf r.d 9
  let orate := hiOf r.d 9
  let manout0 := loOf r.d 5
  let toAuto := r.xfer && decide (r.nm = mdAuto)
  let auto := decide (r.nm = mdAuto)
  let yprev := if r.ypsn then (clampF manout0 olo ohi).1 else r.st.yprev
  -- x and biquad A
  let (x, a1, a2) :=
    if bitAt cfg 23 && !r.spsn then bqStep r.ca r.st.a1 r.st.a2 r.inp.pv
    else (r.inp.pv, bqPreset r.ca r.inp.pv)
  -- soft start
  let startSs := toAuto && bitAt cfg 17 && fGt b32 (hiOf r.d 11) 0
  let (spw, ss) :=
    if toAuto then (if startSs || r.spsn then to64 x else r.st.spw, startSs)
    else if r.spsn then (to64 x, false)
    else if auto && r.ssact then softStep r.inp.ts r.st.spw (mul64 (to64 (hiOf r.d 11)) r.p)
    else (r.st.spw, false)
  let sp := if ss then to32 spw else r.inp.ts
  let e := sub32 sp x
  let xd := if bitAt cfg 24 then fNeg b32 x else e
  let fresh := r.spsn || (toAuto && decide (r.mode = mdOff))
  let xprev := if fresh then xd else r.st.xprev
  let df := if fresh then 0 else r.st.df
  let dterm :=
    if r.late || fresh then df
    else to32 (div64 (add64 (mul64 (to64 tf) (to64 df)) (mul64 (to64 kd) (sub64 (to64 xd) (to64 xprev)))) (add64 (to64 tf) r.p))
  let ff := if bitAt cfg 21 then fma32 (hiOf r.d 10) r.inp.acc (mul32 (loOf r.d 10) r.inp.vel) else 0
  let sTerm := add32 (add32 (mul32 kp e) dterm) ff
  let fin (v y i f : Nat) (b : Nat × Nat) (m : Option Nat) : LoopRes :=
    { st := { i := i, spw := spw, df := dterm, xprev := xd, yprev := y, pvlast := x, a1 := a1, a2 := a2, b1 := b.1, b2 := b.2 }
      y := y, flags := f, ssact := ss, manout := m
      ok := fIsFin b32 v && fIsFin b32 y && fIsFin b64 i }
  if !auto then
    let copy := r.xfer && decide (r.mode = mdAuto) && !bitAt (hiOf r.d 0) 3 && !r.ypsn
    let man := if copy then yprev else manout0
    let (y0, f0) := clampF man olo ohi
    let (y, f1) := if r.spsn then (y0, 0) else rateF y0 yprev orate r.p
    let i := if r.spsn then sub64 (to64 y) (to64 sTerm) else r.st.i
    fin y y i (f0 + f1) (bqPreset r.cb y) (if copy then some yprev else none)
  else if toAuto || (bitAt cfg 18 && decide (r.inp.tmode ≠ mdAuto)) then
    let v := if toAuto then yprev else r.inp.tpv
    let (y, f0) := clampF v olo ohi
    fin y y (sub64 (to64 y) (to64 sTerm)) (f0 + flagIf (!toAuto) stTracking) (bqPreset r.cb y) none
  else
    let i1 := fma64 (mul64 (to64 ki) r.p) (to64 e) r.st.i
    let u := to32 (add64 i1 (to64 sTerm))
    let (v, bb) := if bitAt cfg 22 then bqStep r.cb r.st.b1 r.st.b2 u else (u, (0, 0))
    let (y0, f0) := clampF v olo ohi
    let (y, f1) := rateF y0 yprev orate r.p
    let b := if bitAt cfg 22 then bb else bqPreset r.cb y
    if bitAt cfg 25 then
      let term := mul64 (mul64 (to64 (loOf r.d 11)) r.p) (sub64 (to64 y) (to64 v))
      fin v y (add64 i1 term) (f0 + f1 + flagIf (!fEq b64 term 0) stAwAct) b none
    else
      let kie := mul32 ki e
      let held := (fLt b32 y v && fGt b32 kie 0) || (fGt b32 y v && fLt b32 kie 0)
      fin v y (if held then r.st.i else i1) (f0 + f1 + flagIf held stAwAct) b none

/-! ### One evaluation (R80, R84 to R87) -/

/-- Read the biquad states of a loop from the engine's own memory: values and whether one is poisoned. -/
def State.loopBq (s : State) (l : Nat) : (List Cw) × State :=
  (upFrom 0 4).foldl
    (fun (acc : List Cw × State) k => let (c, s1) := acc.2.readCw .cle (4 * l + k) clePort; (acc.1 ++ [c], s1)) ([], s)

/-- Write the biquad states. -/
def State.putBq (s : State) (l : Nat) (v : List Nat) : State :=
  ((upFrom 0 4).zip v).foldl
    (fun a kv => a.writeCw .cle (4 * l + kv.1) clePort 0xFF#8 (BitVec.ofNat 64 kv.2) false) s

/-- The engine state of a loop as read. -/
def loopState (d q : List Cw) : LoopState :=
  { i := (d.getD 12 Cw.lost).data.toNat, spw := (d.getD 13 Cw.lost).data.toNat, df := loOf d 14, xprev := hiOf d 14
    yprev := loOf d 15, pvlast := hiOf d 15
    a1 := (q.getD 0 Cw.lost).data.toNat, a2 := (q.getD 1 Cw.lost).data.toNat
    b1 := (q.getD 2 Cw.lost).data.toNat, b2 := (q.getD 3 Cw.lost).data.toNat }

/-- Issue the output and state writes of an evaluation (R87). -/
def State.loopCommit (s : State) (l outaddr : Nat) (x : LoopRes) : State :=
  let s1 := match x.manout with
    | some m => s.lndWrite clePort (s.loopAt l + 0x28) (leBytes 4 m)
    | none => s
  let t := x.st
  let s2 := s1.lndWriteCws clePort (s1.loopAt l + 0x60)
    [⟨BitVec.ofNat 64 t.i, false⟩, ⟨BitVec.ofNat 64 t.spw, false⟩, ⟨BitVec.ofNat 64 (t.df + t.xprev * 2 ^ 32), false⟩,
     ⟨BitVec.ofNat 64 (t.yprev + t.pvlast * 2 ^ 32), false⟩]
  (s2.putBq l [t.a1, t.a2, t.b1, t.b2]).lndWrite clePort outaddr (leBytes 4 x.y)

/-- What the request of an evaluation asks for (R80): nothing, a transfer, or a rejection; `spsn` widens the transfers. -/
inductive LoopReq where
  | none | served | reject | transfer (m : Nat)
deriving DecidableEq, Repr

/-- Judge REQ. -/
def loopReq (req mode : Nat) (spsn : Bool) : LoopReq :=
  let m := req % 8
  if !bitAt req 31 then .none
  else if m > 2 then .reject
  else if m ≠ mode ∨ (spsn ∧ m ≠ mdOff) then .transfer m
  else .served

/-- An evaluation of loop `l` in the pass of ring `n` whose CFG is clean (R73 to R88). [DEDUCED, log 20 and 22; DESIGN CHOICE, log 21 and 141 and 142] -/
def State.loopEvalAt (s : State) (n l : Nat) (d : List Cw) : State :=
  let r := s.ring n
  let h := r.now
  let cfg := loOf d 0
  -- a poisoned STAT word leaves MODE and SSACT unknown
  let (k, s0) := if psnOf d 1 then s.draw else (0, s)
  let mode := if psnOf d 1 then (Config.freeWord k).toNat % 3 else Nat.min (bitsOf (loOf d 1) 24 3) 2
  let ssact := !psnOf d 1 && bitAt (loOf d 1) 4
  let hprev := hiOf d 1
  let late := !psnOf d 1 && decide (hprev ≠ (h + 0xFFFFFFFF) % 2 ^ 32) && tabAt 0 s0.cle.evals l == r.era n
  let s0 := { s0 with cle := { s0.cle with evals := tabPut 0 s0.cle.evals l (r.era n) } }
  let keep := mode * 2 ^ 24 + flagIf ssact stSsAct
  let lf := flagIf late stLate
  let parm := psnOf d 1 || psnOf d 2 || psnOf d 3 || psnOf d 5 || psnOf d 6 || psnOf d 7 || psnOf d 8 || psnOf d 9 || psnOf d 10
    || psnOf d 11 || (psnOf d 4 && (decide (bitsOf cfg 19 2 = 0) || bitAt cfg 16))
  if !parm && loopInvalid n l d then
    -- no reads beyond the descriptor, so no bad input either
    ({ s0 with cle := { s0.cle with bad := setDel s0.cle.bad l } }).loopStat l (keep + lf + stCfgErr) h
  else
  let (q, s1) := s0.loopBq l
  let spsn := psnOf d 12 || psnOf d 13 || psnOf d 14 || psnOf d 15 || q.any Cw.poison
  let sf := flagIf spsn stStatePsn
  if parm then s1.loopBad l (keep + lf + sf + stPoison) h
  else
    let (inp, s2) := s1.loopInputs d
    if inp.flags ≠ 0 then s2.loopBad l (keep + lf + sf + inp.flags) h
    else
      let s3 := { s2 with cle := { s2.cle with bad := setDel s2.cle.bad l } }
      let rq := loopReq (hiOf d 0) mode spsn
      let served := fun (a : State) => if rq = .none then a else a.clearReq l
      let ef := lf + flagIf (rq = .reject) stModeErr
      let nm := match rq with | .transfer m => m | _ => mode
      let xfer := match rq with | .transfer _ => true | _ => false
      let xf := flagIf xfer stXfer
      if spsn && (!xfer || nm == mdOff) then
        -- the hold for a poisoned state field serves the request (R80, R86)
        (served s3).loopStat l (nm * 2 ^ 24 + flagIf (ssact && !xfer) stSsAct + ef + xf + stStatePsn) h
      else if nm = mdOff then
        let st := loopState d q
        let ca := s3.fset (bitsOf (loOf d 6) 0 9)
        let cb := s3.fset (bitsOf (loOf d 6) 16 9)
        let pa := if bitAt cfg 23 then (st.a1, st.a2) else bqPreset ca inp.pv
        let pb := if bitAt cfg 22 then (st.b1, st.b2) else bqPreset cb st.yprev
        ((served s3).putBq l [pa.1, pa.2, pb.1, pb.2]).loopStat l (ef + xf) h
      else
        let run : LoopRun :=
          { d := d, inp := inp, st := loopState d q, mode := mode, nm := nm, xfer := xfer, spsn := spsn, ypsn := psnOf d 15
            late := late, ssact := ssact, p := loopPeriod r.per
            ca := s3.fset (bitsOf (loOf d 6) 0 9), cb := s3.fset (bitsOf (loOf d 6) 16 9) }
        let x := run.compute
        if !x.ok then s3.loopStat l (keep + lf + sf + stNonFin) h
        else
          ((served s3).loopCommit l (loOf d 3) x).loopStat l
            (nm * 2 ^ 24 + flagIf x.ssact stSsAct + ef + xf + sf + x.flags) h

/-! ### Passes (R65, R66, R51, R461) -/

/-- The pass of a ring. -/
def State.pass_ (s : State) (n : Nat) : PassSt := tabAt {} s.cle.passes n
/-- Replace it; PBUSY follows. -/
def State.setPass (s : State) (n : Nat) (p : PassSt) : State :=
  let s1 := { s with cle := { s.cle with passes := tabPut {} s.cle.passes n p } }
  if p.phase = .running ∨ p.phase = .preempted then s1.setBitOf Reg.CLE_STAT_PBUSY n else s1.clrBitOf Reg.CLE_STAT_PBUSY n

/-- The ring's deadline releases its pass (R49): not without EN, and not in a period that events C or H cut (R89). -/
def State.passReady (s : State) (n : Nat) : State :=
  if s.bit Reg.CLE_CTL_EN && !(s.ring n).cut then s.setPass n { phase := .ready } else s

/-- A pass is over: NEVAL and its duration in ticks. [DEDUCED, log 23] -/
def State.passEnd (s : State) (n : Nat) : State :=
  let p := s.pass_ n
  let t := Nat.min (s.time.edge - p.began) 0xFFFF
  let s1 := (s.setPass n {}).wr Reg.CLE_PSTAT_NEVAL p.count n
  if p.phase = .ready then s1
  else (s1.wr Reg.CLE_PTIME_LAST t n).wr Reg.CLE_PTIME_MAX (max t (s1.rd Reg.CLE_PTIME_MAX n)) n

/-- A chain error at a loop (R65, R85). -/
def State.chainErr (s : State) (n l : Nat) : State :=
  let s1 := (s.wr Reg.CLE_PSTAT_STOP l n).setSticky 3 Reg.CLE_PSTAT_CHAINERR n
  ((s1.tally 0x0301 n 0 l).passEnd n).dip 8

/-- The generators and lists of the ring have completed (R49). -/
def State.gensDone (s : State) (n : Nat) : Bool := (s.ring n).dDone && !(s.axs.waiting.contains n)

/-- Whether the pass of a ring is to be served: begun, or ready (R49), with LEN not 0 (R65). -/
def State.passDue (s : State) (n : Nat) : Bool :=
  match (s.pass_ n).phase with
  | .none => false
  | .ready => s.gensDone n && decide (s.rd Reg.CLE_PCH_LEN n ≠ 0)
  | _ => true

/-- Whether a lower ring's pass is ready or running (R51). -/
def State.lowerPass (s : State) (n : Nat) : Bool := (upFrom 0 n).any fun m => s.passDue m

/-- The running pass of a ring is preempted. [DEDUCED, log 23] -/
def State.passPreempt (s : State) (n : Nat) : State :=
  let p := s.pass_ n
  if p.phase = .running then s.setPass n { p with phase := .preempted } else s

/-- A ready or preempted pass runs. HEAD and LEN are read at the start (R66); with LEN 0 there is no pass (R65). -/
def State.passRun (s : State) (n : Nat) : State :=
  let p := s.pass_ n
  match p.phase with
  | .ready => if s.rd Reg.CLE_PCH_LEN n = 0 then s.setPass n {} else s.setPass n
      { phase := .running, loop := s.rd Reg.CLE_PCH_HEAD n, len := Nat.min 4096 (s.rd Reg.CLE_PCH_LEN n), began := s.time.edge, seg := s.time.edge }
  | .preempted => s.setPass n { p with phase := .running, seg := s.time.edge, segCount := 0 }
  | _ => s

/-- CLK_TB edges of `k` evaluation slots of 15.625 ns (R68). [DEDUCED, log 23] -/
def slotEdges (k : Nat) : Nat := (25 * k + 7) / 8

/-- One evaluation slot of the running pass (R65, R68, R87): the flag says that the pass still runs. [DEDUCED, log 20] -/
def State.passStep (s : State) (n : Nat) : Bool × State :=
  let p := s.pass_ n
  let s1 := s.advanceEdge (p.seg + slotEdges (p.segCount + 1))
  if (s1.ring n).seal_ ≤ s1.T then (false, s1)
  else
    let (d, s2) := s1.lndRead clePort (s1.loopAt p.loop) 16
    if psnOf d 0 then (false, s2.chainErr n p.loop)
    else
      let s3 := s2.loopEvalAt n p.loop d
      let nx := loOf d 0 % 4096
      let s4 := s3.setPass n { p with loop := nx, count := p.count + 1, segCount := p.segCount + 1 }
      if bitAt (loOf d 0) 27 then (false, s4.passEnd n)
      else if p.len ≤ p.count + 1 then (false, s4.chainErr n nx)
      else (true, s4)

/-- Up to `k` slots of the running pass. -/
def State.passSteps (n : Nat) : Nat → State → State
  | 0, s => s
  | k + 1, s =>
    let (go, s1) := s.passStep n
    if go then State.passSteps n k s1 else s1

/-- CLE_PASS: up to `loops` evaluations of the ring's pass, unless a lower ring's pass is to be served (R51). -/
def State.clePass (s : State) (n loops : Nat) : State :=
  if !s.passDue n ∨ s.lowerPass n then s
  else
    let s1 := s.over (upFrom (n + 1) (7 - n)) fun m s => s.passPreempt m
    State.passSteps n loops (s1.passRun n)
/-- CLE_PASS. -/
def execClePass (n : Fin 8) (loops : Nat) (s : State) : Host.Outcome State Fault Refusal := .next (s.clePass n loops)

/-- PASS_PREEMPT: a lower ring's pass is ready at a loop boundary (R51). -/
def execPassPreempt (n : Fin 8) (s : State) : Host.Outcome State Fault Refusal :=
  if s.lowerPass n then .next (s.passPreempt n) else .next s
/-- PASS_RESUME (R51). -/
def execPassResume (n : Fin 8) (s : State) : Host.Outcome State Fault Refusal :=
  if (s.pass_ n).phase = .preempted ∧ !s.lowerPass n then .next (s.passRun n) else .next s

/-- The pass of a ring at its seal (R48): the flag says that it was late. -/
def State.passSeal (s : State) (n : Nat) : Bool × State :=
  let p := s.pass_ n
  if p.phase = .none then (false, s)
  else if p.phase = .ready ∧ s.rd Reg.CLE_PCH_LEN n = 0 then (false, s.setPass n {})
  else
    let stop := if p.phase = .ready then s.rd Reg.CLE_PCH_HEAD n else p.loop
    let s1 := (s.wr Reg.CLE_PSTAT_STOP stop n).setSticky 3 Reg.CLE_PSTAT_LATE n
    (true, (s1.tally 0x0302 n p.count stop).passEnd n)

/-- EN is cleared (R461): the evaluation in progress is complete between two commands; every pass ends. [DEDUCED, log 24] -/
def State.cleDisable (s : State) : State :=
  (s.wrB Reg.CLE_CTL_EN false).over (upFrom 0 8) fun n s =>
    match (s.pass_ n).phase with
    | .none => s
    | .ready => s.setPass n {}
    | _ => (s.wr Reg.CLE_PSTAT_STOP (s.pass_ n).loop n).passEnd n
/-- CLE_DISABLE. -/
def execCleDisable (s : State) : Host.Outcome State Fault Refusal := .next s.cleDisable

/-- CLRMAX. -/
def State.cleClrmax (s : State) : State := s.over (upFrom 0 8) fun n s => s.wr Reg.CLE_PTIME_MAX 0 n
/-- CLE_CLRMAX. -/
def execCleClrmax (s : State) : Host.Outcome State Fault Refusal := .next s.cleClrmax

/-- A write to CLE_DBASE (R64). -/
def State.cleDbase (s : State) (v : Nat) : State :=
  if s.bit Reg.CLE_CTL_EN then s else s.wr Reg.CLE_DBASE_BASE (v / 4096)

/-! ### Events C and H (R89) -/

/-- The logical bank a physical bank serves. -/
def State.logOf (s : State) (p : Nat) : Option Nat := (upFrom 0 32).find? fun b => s.rd Reg.LND_BMAP_PHYS b == p

/-- The Landing offset of a physical codeword in service. -/
def State.offOf (s : State) (w : Nat) : Option Nat :=
  match s.logOf (w / bankWords) with
  | some b => let i := w % bankWords; some ((i / 8 * 32 + b) * 64 + i % 8 * 8)
  | none => none

/-- The offsets in a range of codewords that hold anything but a clean zero. -/
def State.offsUsed (s : State) (lo len : Nat) : List Nat :=
  let m := s.landing
  let ws := (m.cells.map fun c => c.1 / 8) ++ m.poison ++ m.flips.map (fun f => f.1)
  ws.foldl (fun (a : List Nat) w =>
    match s.offOf w with
    | some o => if lo ≤ o ∧ o < lo + len then setIns a o else a
    | none => a) []

/-- One loop at a restart; STAT and HNUM are written whole, so a poisoned word becomes clean. [DEDUCED, log 26] -/
def State.loopClear (s : State) (l : Nat) : State :=
  let a := s.loopAt l
  let (c, s0) := (s.clearReq l).lndCwRead clePort (a + 8)
  let s1 := s0.lndWriteCws clePort (a + 8) [⟨c.data &&& BitVec.ofNat 64 (2 ^ 64 - 1 - (7 * 2 ^ 24 + stSsAct)), false⟩]
  (s1.lndWriteCws clePort (a + 0x60) [Cw.zero, Cw.zero, Cw.zero]).lndWrite clePort (a + 0x7C) (leBytes 4 0)

/-- Events C and H: passes stop until the next instant that samples, every loop goes OFF with its state cleared. A
descriptor that holds nothing stays so. [DEDUCED, log 26] -/
def State.cleClear (s : State) : State :=
  let ls := (s.offsUsed (s.loopAt 0) (4096 * 128)).foldl (fun a o => setIns a ((o - s.loopAt 0) / 128)) []
  let s1 := (s.wr Reg.CLE_STAT_PBUSY 0).over ls fun l s => s.loopClear l
  ({ s1 with cleMem := {}, cle := { s1.cle with passes := [], bad := [] } }).over (upFrom 0 8) fun n a =>
    if (a.ring n).live then a.setRing n { a.ring n with cut := true } else a

end Sys2Proof.Machine
end

