-- ==== Sys2Proof/Machine/Plan.lean ====
section
/-! DEFINITION. Time-optimal jerk-limited plans (R100 to R103) as pure arithmetic on rationals: the exact plan up to a
relative error far below the 2^−44 and 2^−40 that R102 allows. -/
namespace Sys2Proof.Machine.Plan

/-- The four limits of R100. -/
structure Lims where
  v : Rat
  a : Rat
  d : Rat
  j : Rat

/-- Position, velocity, acceleration. -/
structure Kin where
  x : Rat
  v : Rat
  a : Rat

/-- A stretch of constant jerk `s × JMAX`. -/
structure Seg where
  dur : Rat
  s : Int

/-- `x × 2^e`. -/
def scale2 (x : Rat) (e : Int) : Rat := if 0 ≤ e then x * ((2 : Int) ^ e.toNat : Int) else x / ((2 : Int) ^ (-e).toNat : Int)

/-- A rational with about 160 significant bits. -/
def short (x : Rat) : Rat :=
  if x = 0 then 0
  else
    let k : Int := 160 - ((Nat.log2 x.num.natAbs : Int) - (Nat.log2 x.den : Int))
    scale2 ((scale2 x k).floor : Int) (-k)

/-- Square root with about 120 significant bits; 0 below 0. -/
def sqrt (x : Rat) : Rat :=
  if x ≤ 0 then 0
  else
    let k : Int := (240 - ((Nat.log2 x.num.natAbs : Int) - (Nat.log2 x.den : Int))) / 2
    scale2 ((isqrt (scale2 x (2 * k)).floor.toNat : Nat) : Int) (-k)

/-- The state after time `t` at jerk `j`. -/
def Kin.after (k : Kin) (j t : Rat) : Kin :=
  { x := k.x + k.v * t + k.a * t * t / 2 + j * t * t * t / 6, v := k.v + k.a * t + j * t * t / 2, a := k.a + j * t }

/-- The velocity at which the acceleration, brought to zero at JMAX, ends. -/
def vStop (l : Lims) (v a : Rat) : Rat := v + a * (if a < 0 then -a else a) / (2 * l.j)

/-- What ends a stretch of rising or held acceleration. -/
inductive Ev where
  /-- the acceleration reaches its limit -/
  | limit
  /-- the velocity that the acceleration still leads to is the target -/
  | target
  /-- zero velocity -/
  | zero
  /-- the acceleration must fall to AMAX before zero velocity -/
  | fall
deriving DecidableEq, Repr

/-- The earliest of some events; a negative time counts as now. -/
def earliest : List (Rat × Ev) → Rat × Ev
  | [] => (0, .target)
  | [p] => (if p.1 < 0 then 0 else p.1, p.2)
  | p :: l => let q := earliest l; if p.1 < q.1 then ((if p.1 < 0 then 0 else p.1), p.2) else q

/-- From a velocity that leads to at most `vt`, rise to `vt` as fast as R100 allows and end with zero acceleration. An
acceleration beyond its limit, or one that cannot fall to AMAX before zero velocity, is first reduced at JMAX (R103). -/
def rise (l : Lims) (vt : Rat) : Nat → Rat → Rat → List Seg
  | 0, _, _ => []
  | n + 1, v, a =>
    if a < 0 then
      let t := short (-a / l.j)
      ⟨t, 1⟩ :: rise l vt n (v - a * a / (2 * l.j)) 0
    else
      let vs := vStop l v a
      if vt ≤ vs then (if a = 0 then [] else [⟨a / l.j, -1⟩])
      else
        let z := v + (a * a - l.a * l.a) / (2 * l.j)
        let falls : Bool := decide (v < 0) && decide (l.a < l.d)
        let lim := if v < 0 then l.d else l.a
        if falls && decide (l.a < a) && decide (0 ≤ z) then
          ⟨short ((a - l.a) / l.j), -1⟩ :: rise l vt n (if z = 0 then 0 else z) l.a
        else if lim < a then
          let t := (a - lim) / l.j
          -- a velocity that reaches zero first meets the other limit
          let q := a * a + 2 * l.j * v
          let t0 := short ((a - sqrt q) / l.j)
          if decide (v < 0) && decide (0 ≤ q) && decide (t0 < t) then
            let k := Kin.after ⟨0, v, a⟩ (-l.j) t0
            ⟨t0, -1⟩ :: rise l vt n 0 k.a
          else
            let k := Kin.after ⟨0, v, a⟩ (-l.j) t
            ⟨t, -1⟩ :: rise l vt n k.v lim
        else if a = lim then
          let c : List (Rat × Ev) := [((vt - vs) / a, Ev.target)]
            ++ (if falls then [(-z / a, Ev.fall)] else if v < 0 then [(-v / a, Ev.zero)] else [])
          let (t0, e) := earliest c
          let t := short t0
          match e with
          | .target => [⟨t, 0⟩, ⟨a / l.j, -1⟩]
          | .fall => ⟨t, 0⟩ :: ⟨(a - l.a) / l.j, -1⟩ :: rise l vt n 0 l.a
          | _ => ⟨t, 0⟩ :: rise l vt n 0 a
        else
          let root := fun (sq : Rat) => (sqrt sq - a) / l.j
          let c : List (Rat × Ev) := [((lim - a) / l.j, Ev.limit), (root (a * a + l.j * (vt - vs)), Ev.target)]
            ++ (if v < 0 then [(root (a * a + 2 * l.j * (-v)), Ev.zero)] else [])
            ++ (if falls then [(root (a * a + l.j * (-z)), Ev.fall)] else [])
          let (t0, e) := earliest c
          let t := short t0
          let k := Kin.after ⟨0, v, a⟩ l.j t
          match e with
          | .target => [⟨t, 1⟩, ⟨k.a / l.j, -1⟩]
          | .limit => ⟨t, 1⟩ :: rise l vt n (short k.v) lim
          | .fall => ⟨t, 1⟩ :: ⟨(k.a - l.a) / l.j, -1⟩ :: rise l vt n 0 l.a
          | .zero => ⟨t, 1⟩ :: rise l vt n 0 (short k.a)

/-- The velocity plan to `vt` from velocity `v` and acceleration `a` (R101). [DESIGN CHOICE, log 30] -/
def toVel (l : Lims) (vt v a : Rat) : List Seg :=
  if vStop l v a ≤ vt then rise l vt 16 v a
  else (rise l (-vt) 16 (-v) (-a)).map fun s => { s with s := -s.s }

/-- The state after stretches. -/
def runSegs (l : Lims) (k : Kin) : List Seg → Kin
  | [] => k
  | s :: r => runSegs l (k.after (s.s * l.j) s.dur) r

/-- The state after time `t` of the stretches; past their end the velocity stays. -/
def atTime (l : Lims) (k : Kin) : List Seg → Rat → Kin
  | [], t => { k with x := k.x + k.v * t, a := 0 }
  | s :: r, t => if t < s.dur then k.after (s.s * l.j) t else atTime l (k.after (s.s * l.j) s.dur) r (t - s.dur)

/-- Time of stretches. -/
def total (p : List Seg) : Rat := p.foldl (fun a s => a + s.dur) 0

/-- Where the shortest stop from a state ends. -/
def stopAt (l : Lims) (k : Kin) : Rat := (runSegs l k (toVel l 0 k.v k.a)).x

/-- The latest time within `[lo, hi]` of one stretch from `k` at jerk `j` from which the stop does not pass `d` in
direction `up`; `n` halvings. -/
def bisect (l : Lims) (k : Kin) (j d : Rat) (up : Bool) : Nat → Rat → Rat → Rat
  | 0, lo, _ => lo
  | n + 1, lo, hi =>
    let m := short ((lo + hi) / 2)
    let e := stopAt l (k.after j m)
    if (if up then e ≤ d else d ≤ e) then bisect l k j d up n m hi else bisect l k j d up n lo m

/-- Push towards a velocity limit along `segs` until the stop from there ends at `d`, then stop (R101). -/
def pushThenStop (l : Lims) (d : Rat) (up : Bool) : Kin → List Seg → List Seg
  | k, [] =>
    -- at the velocity limit: the rest is cruise
    let t := if k.v = 0 then 0 else short ((d - stopAt l k) / k.v)
    ⟨if t < 0 then 0 else t, 0⟩ :: toVel l 0 k.v 0
  | k, s :: r =>
    let j := s.s * l.j
    let e := k.after j s.dur
    let se := stopAt l e
    if (if up then se ≤ d else d ≤ se) then s :: pushThenStop l d up { x := short e.x, v := short e.v, a := short e.a } r
    else
      let t := bisect l k j d up 130 0 s.dur
      let m := k.after j t
      ⟨t, s.s⟩ :: toVel l 0 m.v m.a

/-- The position plan over distance `d` (R101). [DESIGN CHOICE, log 30] -/
def toPos (l : Lims) (d v a : Rat) : List Seg :=
  let k : Kin := ⟨0, v, a⟩
  let d0 := stopAt l k
  if d = d0 then toVel l 0 v a
  else
    let up : Bool := decide (d0 < d)
    pushThenStop l d up k (toVel l (if up then l.v else -l.v) v a)

/-- Slack of the excess test, for the rounding of the plan. -/
def slack : Rat := 1 + 1 / ((2 : Int) ^ 60 : Int)

/-- Whether no motion from the state meets R100 from its first instant on (R103). -/
def excess (l : Lims) (v a : Rat) : Bool :=
  let av := if v < 0 then -v else v
  let aa := if a < 0 then -a else a
  let vs := vStop l v a
  let avs := if vs < 0 then -vs else vs
  let same : Bool := decide (0 ≤ v * a)
  decide (l.v * slack < av) || decide (l.v * slack < avs) || (same && decide (l.a * slack < aa))
    || (!same && decide (l.d * slack < aa))
    || (!same && decide (l.a * slack < aa) && decide (av * slack < (aa * aa - l.a * l.a) / (2 * l.j)))

end Sys2Proof.Machine.Plan
end

