-- ==== Sys2Proof/Machine/Axes.lean ====
section
/-! DEFINITION. Axes and set-point generators (R90 to R108, R462, R464 to R466). -/
namespace Sys2Proof.Machine

/-- Landing port of AXS and FBK. -/
def axsPort : Nat := 3

/-- Modes of an axis. -/
def amOff : Nat := 0
def amPos : Nat := 1
def amVel : Nat := 2
def amGear : Nat := 3
def amCam : Nat := 4
def amTrack : Nat := 5

/-- Flags of STAT (R94). -/
def asMoving : Nat := 2 ^ 0
def asInpos : Nat := 2 ^ 1
def asLimited : Nat := 2 ^ 2
def asEngaged : Nat := 2 ^ 3
def asEngaging : Nat := 2 ^ 4
def asReversing : Nat := 2 ^ 5
def asXfer : Nat := 2 ^ 6
def asFbInit : Nat := 2 ^ 7
def asDstale : Nat := 2 ^ 8
def asPoison : Nat := 2 ^ 9
def asNonFin : Nat := 2 ^ 10
def asLate : Nat := 2 ^ 11
def asCamErr : Nat := 2 ^ 12
def asModeErr : Nat := 2 ^ 13
def asCfgErr : Nat := 2 ^ 14
def asStatePsn : Nat := 2 ^ 15
/-- The flags that AXS_EVSUM collects. -/
def asEvents : Nat :=
  asStatePsn + asCfgErr + asModeErr + asCamErr + asLate + asNonFin + asPoison + asDstale

/-! ### Numbers -/

/-- The rational a finite code stands for; 0 for a NaN or an infinity. -/
def ratOf (f : Fmt) (x : Nat) : Rat := let (m, e) := fToScaled f x; Plan.scale2 (m : Rat) e
/-- The binary64 code of a rational. -/
def code64 (x : Rat) : Nat := fOfRatio b64 x.num x.den
/-- The binary64 code of a position in units of 2^−48 count, in counts. -/
def posCode (x : Int) : Nat := fOfScaled b64 x (-48)
/-- A binary64 number of counts in units of 2^−48 count. -/
def posOf (c : Nat) : Int := fRoundScaled b64 c 48
/-- Wrap an internal position modulo 2^96 (R94). -/
def wrap96 (x : Int) : Int := sInt 96 (uOf 96 x)
/-- The published position: nearest, ties towards +∞, modulo 2^64 (R94). -/
def pubPos (x : Int) : Nat := uOf 64 ((x + 2 ^ 31) / 2 ^ 32)
/-- The difference taken the shorter way round a modulus, a tie going positive (R101). -/
def shortWay (x m : Int) : Int := if m ≤ 0 then x else let r := x % m; if m < 2 * r then r - m else r
/-- A binary64 code held between two others. -/
def clamp64 (lo hi x : Nat) : Nat := if fLt b64 x lo then lo else if fLt b64 hi x then hi else x
/-- Negative of a binary64 code. -/
def neg64 (x : Nat) : Nat := fNeg b64 x
/-- Binary64 code of a small integer. -/
def int64 (x : Int) : Nat := (fOfInt b64 .nearestEven x).1
/-- A binary64 code is finite. -/
def fin64 (x : Nat) : Bool := fIsFin b64 x

/-! ### Feedback records (R114, R116) -/

/-- What a consumer takes from a feedback record. -/
structure FbIn where
  pos : Int := 0
  vel : Nat := 0
  acc : Nat := 0
  ok : Bool := false
  velok : Bool := false
  poison : Bool := false
deriving DecidableEq, Repr

/-- Read a feedback record under the rule of R116. -/
def State.fbRead (s : State) (rem : Bool) (n : Nat) : FbIn × State :=
  let (d, s1) := s.lndRead axsPort (s.fbAt rem n) 4
  let st := loOf d 2
  let psn := psnOf d 0 || psnOf d 1 || psnOf d 2
  let ok := !psn && s.fbValid rem n st (hiOf d 2)
  let num := fIsFin b32 (loOf d 1) && fIsFin b32 (hiOf d 1)
  ({ pos := sInt 64 (d.getD 0 Cw.lost).data.toNat, vel := to64 (loOf d 1), acc := to64 (hiOf d 1)
     ok := ok, velok := ok && bitAt st 30 && !bitAt st 25 && num, poison := psn }, s1)

/-! ### Private state -/

/-- The private state of an axis. -/
def State.axis (s : State) (a : Nat) : AxisSt := tabAt {} s.axs.axes a
/-- Replace it: a full write of its codewords. -/
def State.setAxis (s : State) (a : Nat) (x : AxisSt) : State :=
  let s1 := (upFrom 0 16).foldl (fun (t : State) k =>
    { t with axsMem := t.axsMem.put (16 * a + k) Cw.zero }) s
  { s1 with axs := { s1.axs with axes := tabPut {} s1.axs.axes a x } }
/-- Read the codewords of an axis's private state; the flag says that one is poisoned. -/
def State.axisPoison (s : State) (a : Nat) : Bool × State :=
  (upFrom 0 16).foldl
    (fun (acc : Bool × State) k => let (c, s1) := acc.2.readCw .axs (16 * a + k) axsPort; (acc.1 || c.poison, s1)) (false, s)

/-- Everything an evaluation knows before it computes: descriptor codewords, held configuration, ring and period. -/
structure AxRun where
  ring : Nat
  hnum : Nat
  d : List Cw
  x : AxisSt
  /-- period: binary64 seconds, and nanoseconds -/
  p : Nat
  pns : Nat
deriving DecidableEq, Repr

/-- Signed 48.16 field at codeword `i`, in units of 2^−48 count. -/
def AxRun.fix (r : AxRun) (i : Nat) : Int := sInt 64 (r.d.getD i Cw.lost).data.toNat * 2 ^ 32
/-- The four limits as binary64 codes. -/
def AxRun.vmax (r : AxRun) : Nat := to64 r.x.vmax
def AxRun.amax (r : AxRun) : Nat := to64 r.x.amax
def AxRun.dmax (r : AxRun) : Nat := to64 r.x.dmax
def AxRun.jmax (r : AxRun) : Nat := to64 r.x.jmax
/-- The modulus in units of 2^−48 count; 0 without MODULO. -/
def AxRun.mod (r : AxRun) : Int := if bitAt r.x.cfg 15 && !psnOf r.d 12 then r.fix 12 else 0
/-- The limits as rationals. -/
def AxisSt.lims (x : AxisSt) : Plan.Lims := ⟨ratOf b32 x.vmax, ratOf b32 x.amax, ratOf b32 x.dmax, ratOf b32 x.jmax⟩

/-- A flag word with a state. -/
abbrev AxOut := AxisSt × Nat

/-! ### POSITION and VELOCITY (R101 to R103) -/

/-- The segments of a plan. -/
def PlanSt.segs (p : PlanSt) : List Plan.Seg :=
  let l : Plan.Lims := ⟨ratOf b32 p.vmax, ratOf b32 p.amax, ratOf b32 p.dmax, ratOf b32 p.jmax⟩
  let v := ratOf b64 p.v0
  let a := ratOf b64 p.a0
  if p.vel then
    let t := if fLt b32 p.vmax p.target then l.v else if fLt b32 p.target (fNeg b32 p.vmax) then -l.v else ratOf b32 p.target
    Plan.toVel l t v a
  else Plan.toPos l ((p.dist : Rat) / ((2 : Int) ^ 48 : Int)) v a

/-- A relative error that R102 allows, from a free value: at most 2^−40 − 2^−52 either way, which the rounding to binary64
keeps within 2^−40. [DESIGN CHOICE, log 30] -/
def relErr (w : BitVec 64) : Rat := (sInt 64 w.toNat : Rat) * 4095 / ((2 : Int) ^ 115 : Int)

/-- A quantity of a sample within its tolerance (R102); `bound` is a limit that it keeps if the exact one does. [DESIGN CHOICE, log 30] -/
def sample (exact bound : Rat) (w : BitVec 64) : Rat :=
  let y := exact * (1 + relErr w)
  let ae := if exact < 0 then -exact else exact
  if ae ≤ bound then (if bound < y then bound else if y < -bound then -bound else y) else y

/-- Whether a request or a change asks for a new plan (R102). -/
def AxRun.replans (r : AxRun) (vel : Bool) (target : Nat) : Bool :=
  match r.x.plan with
  | none => true
  | some p => !(p.vel == vel && p.target == target && p.vmax == r.x.vmax && p.amax == r.x.amax && p.dmax == r.x.dmax && p.jmax == r.x.jmax)

/-- The plan in force, new or going on, with its time moved on by one period. -/
def AxRun.planNow (r : AxRun) (vel : Bool) : PlanSt :=
  let target := if vel then loOf r.d 3 else (r.d.getD 2 Cw.lost).data.toNat
  if r.replans vel target then
    let dist := shortWay (r.fix 2 - r.x.pos) r.mod
    let cut := (match r.x.plan with | some p => p.cut || !r.x.inpos | none => false)
    { vel := vel, target := target, start := r.x.pos, dist := dist, v0 := r.x.vi, a0 := r.x.ai
      vmax := r.x.vmax, amax := r.x.amax, dmax := r.x.dmax, jmax := r.x.jmax, tau := r.pns, cut := cut && !r.x.inpos }
  else
    match r.x.plan with
    | some p => { p with tau := p.tau + r.pns }
    | none => default_
where
  default_ : PlanSt := ⟨vel, 0, 0, 0, 0, 0, 0, 0, 0, 0, 0, false⟩

/-- Whether VI points away from where the plan leads (R103, "When the target reverses in mid-ramp"). [DESIGN CHOICE, log 145] -/
def PlanSt.reverses (p : PlanSt) (segs : List Plan.Seg) (v : Rat) : Bool :=
  let v0 := ratOf b64 p.v0
  let l : Plan.Lims := ⟨ratOf b32 p.vmax, ratOf b32 p.amax, ratOf b32 p.dmax, ratOf b32 p.jmax⟩
  let toward : Rat :=
    if p.vel then ratOf b32 p.target
    else (p.dist : Rat) / ((2 : Int) ^ 48 : Int) - Plan.stopAt l ⟨0, v0, ratOf b64 p.a0⟩
  (segs ≠ []) && decide (v0 * toward < 0) && decide (0 < v0 * v)

/-- One evaluation in POSITION or VELOCITY. `w` are three free values for the tolerance of R102. [DESIGN CHOICE, log 30] -/
def AxRun.planned (r : AxRun) (vel : Bool) (w : Nat → BitVec 64) : AxOut :=
  let p := r.planNow vel
  let segs := p.segs
  let k0 : Plan.Kin := ⟨0, ratOf b64 p.v0, ratOf b64 p.a0⟩
  let l := r.x.lims
  let tau : Rat := (p.tau : Rat) / 1000000000
  let tot := Plan.total segs
  let tooFast : Bool := vel && (fLt b32 r.x.vmax (fAbs b32 (loOf r.d 3)))
  let done : Bool := decide (tot ≤ tau)
  if done && !vel then
    ({ r.x with pos := p.start + p.dist, vi := 0, ai := 0, inpos := true, plan := some { p with cut := false } }, asInpos)
  else if done && vel && r.x.inpos && !(r.replans vel (loOf r.d 3)) then
    ({ r.x with pos := r.x.pos + posOf (mul64 r.x.vi r.p), plan := some p }, asInpos + flagIf tooFast asLimited)
  else
    let k := Plan.atTime l k0 segs tau
    let kx := sample k.x (-1) (w 0)
    let bnd := if 0 ≤ k.v * k.a then l.a else l.d
    let vi := if done then code64 k.v else code64 (sample k.v l.v (w 1))
    let ai := if done then 0 else code64 (sample k.a bnd (w 2))
    let pos := p.start + ((kx * ((2 : Int) ^ 48 : Int) + 1 / 2).floor)
    let lim := (p.cut && !done) || tooFast || Plan.excess l k.v k.a
    ({ r.x with pos := pos, vi := vi, ai := ai, inpos := done, plan := some { p with cut := p.cut && !done } },
      flagIf done asInpos + flagIf lim asLimited + flagIf (p.reverses segs k.v) asReversing)

/-! ### Following (R104 to R108) -/

/-- A demand: position in units of 2^−48 count, velocity and acceleration as binary64 codes. -/
structure Demand where
  q : Int
  wd : Nat
  ad : Nat
deriving DecidableEq, Repr

/-- Follow a demand or catch up within the limits (R105); `stop` sets vg := 0 (R106), and a poisoned FTOL allows no lock-on
(R464). Differences are taken modulo 2^96 (R94). The new state, LIMITED, FERR. -/
def AxRun.follow (r : AxRun) (x : AxisSt) (g : Demand) (stop : Bool) : AxisSt × Nat × Nat :=
  let dqi := if r.mod > 0 then shortWay (g.q - x.pos) r.mod else wrap96 (g.q - x.pos)
  let x := { x with q := x.pos + dqi }
  let dq := posCode dqi
  let vi := x.vi
  let ai := x.ai
  let bound := if fGe b64 (mul64 g.wd g.ad) 0 then r.amax else r.dmax
  let half := div64 (mul64 r.p (add64 vi g.wd)) (int64 2)
  if !psnOf r.d 5 && fLe b64 (fAbs b64 (sub64 dq half)) (to64 (hiOf r.d 5)) && fLe b64 (fAbs b64 g.wd) r.vmax && fLe b64 (fAbs b64 g.ad) bound
      && fLe b64 (fAbs b64 (sub64 g.ad ai)) (mul64 r.jmax r.p) then
    ({ x with pos := x.pos + dqi, vi := g.wd, ai := g.ad }, 0, dq)
  else
    let e := sub64 dq (mul64 r.p g.wd)
    let ae := fAbs b64 e
    let least := if fLt b64 r.dmax r.amax then r.dmax else r.amax
    let c1 := sqrt64 (mul64 least ae)
    let c2 := div64 ae (mul64 (int64 2) r.p)
    let c := if fLt b64 c2 c1 then c2 else c1
    let sc := if fLt b64 e 0 then neg64 c else if fGt b64 e 0 then c else 0
    let vg := if stop then 0 else clamp64 (neg64 r.vmax) r.vmax (add64 g.wd sc)
    let up := if fGe b64 vi 0 then r.amax else r.dmax
    let dn := if fLe b64 vi 0 then r.amax else r.dmax
    let vr := add64 vi (div64 (mul64 ai (fAbs b64 ai)) (mul64 (int64 2) r.jmax))
    let band := mul64 (mul64 r.jmax r.p) r.p
    let at_ := if fLt b64 vr (sub64 vg band) then up else if fGt b64 vr (add64 vg band) then neg64 dn else 0
    let dj := clamp64 (neg64 r.jmax) r.jmax (div64 (sub64 at_ ai) r.p)
    let ai1 := clamp64 (neg64 dn) up (add64 ai (mul64 dj r.p))
    let vi1 := clamp64 (neg64 r.vmax) r.vmax (add64 vi (mul64 ai1 r.p))
    ({ x with pos := x.pos + posOf (mul64 vi1 r.p), vi := vi1, ai := ai1 }, asLimited, dq)

/-- What reading a demand gives: a demand with its state, or the flags that make it bad (R106). -/
inductive DemandRes where
  | good (g : Demand) (x : AxisSt)
  | bad (flags : Nat) (x : AxisSt)
deriving DecidableEq, Repr

/-- Master values (R104): position, vm, am, the master's modulus. -/
structure Master where
  m : Int
  vm : Nat
  am : Nat
  mod : Int
deriving DecidableEq, Repr

/-- Read the master of an axis; a failure gives the flags of R106. -/
def State.master (s : State) (r : AxRun) : (Master ⊕ Nat) × State :=
  let a := bitsOf r.x.cfg 0 9
  let at_ := s.rd Reg.AXS_ABASE_BASE * 65536 + 128 * a
  let (c0, s1) := s.lndRead axsPort at_ 1
  let (c12, s2) := s1.lndRead axsPort (at_ + 0x60) 1
  let y := s2.axis a
  let cfg := if psnOf c0 0 then y.cfg else loOf c0 0
  let mod : Int := if bitAt cfg 15 then sInt 64 (c12.getD 0 Cw.lost).data.toNat * 2 ^ 32 else 0
  if bitAt cfg 15 && psnOf c12 0 then (.inr asPoison, s2)
  else if !bitAt r.x.cfg 16 then
    let (bad, s3) := s2.axisPoison a
    if bad then (.inr asPoison, s3) else (.inl ⟨y.pos, y.vi, y.ai, mod⟩, s3)
  else if psnOf c0 0 && !y.seenCfg then (.inr asPoison, s2)
  else if !bitAt cfg 27 then (.inr 0, s2)
  else
    let (f, s3) := s2.fbRead (bitAt cfg 26) (bitsOf cfg 17 9)
    if f.poison then (.inr asPoison, s3)
    else if !f.ok then (.inr 0, s3)
    else
      let lead := mul64 f.vel (to64 (hiOf r.d 11))
      if !fin64 lead then (.inr asNonFin, s3)
      else (.inl ⟨(f.pos + fRoundScaled b64 lead 16) * 2 ^ 32, f.vel, f.acc, mod⟩, s3)

/-- The master difference δ and the master increment of the period (R104): m − MSYNC, but unfolded from the engagement on for
a master with MODULO. [DEDUCED, log 28] -/
def AxRun.delta (r : AxRun) (x : AxisSt) (m : Master) : Int × Int :=
  let d := m.m - r.fix 8
  if m.mod > 0 then
    match x.mPrev with
    | none => (shortWay d m.mod, 0)
    | some p => let inc := shortWay (m.m - p) m.mod; (x.delta + inc, inc)
  else (wrap96 d, match x.mPrev with | none => 0 | some p => wrap96 (m.m - p))

/-- RATIO as binary64. [DEDUCED, log 28] -/
def AxRun.ratio (r : AxRun) : Nat := fOfScaled b64 (sInt 64 (r.d.getD 6 Cw.lost).data.toNat) (-32)

/-- The gear demand (R104): accumulated exactly in units of 2^−80 count, modulo 2^48 counts (R94). [DEDUCED, log 28] -/
def AxRun.gear (r : AxRun) (x : AxisSt) (m : Master) : Demand × AxisSt :=
  let (dl, inc) := r.delta x m
  let k := sInt 64 (r.d.getD 6 Cw.lost).data.toNat
  let sum : Int := match x.mPrev with
    | none => r.fix 7 * 2 ^ 32 + k * dl
    | some _ => x.gear + k * inc + (r.fix 7 - x.gofs) * 2 ^ 32
  let acc := sInt 128 (uOf 128 sum)
  ({ q := acc / 2 ^ 32, wd := mul64 r.ratio m.vm, ad := mul64 r.ratio m.am },
    { x with mPrev := some m.m, delta := dl, gear := acc, gofs := r.fix 7 })

/-! #### Cams (R107) -/

/-- A point of a cam table. -/
structure CamPt where
  x : Nat
  y : Nat
  s : Nat
deriving DecidableEq, Repr

/-- Read a point: the point, and CAMERR or POISON. -/
def State.camPt (s : State) (tab i : Nat) : (CamPt × Nat) × State :=
  let (d, s1) := s.lndRead axsPort (tab + 0x20 + 24 * i) 3
  let w := fun (k : Nat) => (d.getD k Cw.lost).data.toNat
  let ok := fin64 (w 0) && fin64 (w 1) && fin64 (w 2)
  ((⟨w 0, w 1, w 2⟩, if anyPoison d then asPoison else flagIf (!ok) asCamErr), s1)

/-- The segment that holds a phase: the lower point's number, by halving, and the flags met. -/
def State.camFind (tab phi : Nat) : Nat → Nat → Nat → Nat → State → (Nat × Nat) × State
  | 0, lo, _, f, s => ((lo, f), s)
  | k + 1, lo, hi, f, s =>
    if hi ≤ lo + 1 then ((lo, f), s)
    else
      let mid := (lo + hi) / 2
      let ((p, g), s1) := s.camPt tab mid
      if fLe b64 p.x phi then State.camFind tab phi k mid hi (Nat.lor f g) s1 else State.camFind tab phi k lo mid (Nat.lor f g) s1

/-- A value of a cam: offset, first and second derivative, the cycle and whether it is cyclic; or flags. -/
structure CamVal where
  y : Nat
  y1 : Nat
  y2 : Nat
  c : Int
  cyc : Bool
  flags : Nat
deriving DecidableEq, Repr

/-- Evaluate a cam table at a master difference (R107). [DEDUCED, log 29] -/
def State.camEval (s : State) (tab delta : Nat) : CamVal × State :=
  let bad := fun (f : Nat) => CamVal.mk 0 0 0 0 false f
  let (h, s1) := s.lndRead axsPort tab 1
  let n := loOf h 0
  let cyc := bitAt (hiOf h 0) 0
  if psnOf h 0 then (bad asPoison, s1)
  else if n < 2 ∨ 4096 < n then (bad asCamErr, s1)
  else
    let ((pl, fl), s2) := s1.camPt tab (n - 1)
    let ((p0, f0), s3) := if cyc then s2.camPt tab 0 else ((⟨0, 0, 0⟩, 0), s2)
    if Nat.lor fl f0 ≠ 0 then (bad (Nat.lor fl f0), s3)
    else if !fGt b64 pl.x 0 then (bad asCamErr, s3)
    else
      let quo := div64 delta pl.x
      let c : Int := if cyc then (ratOf b64 quo).floor else 0
      let cc := int64 c
      let phi := if cyc then sub64 delta (mul64 cc pl.x) else clamp64 0 pl.x delta
      let off := if cyc then mul64 cc (sub64 pl.y p0.y) else 0
      let ((i, fs), s4) := State.camFind tab phi 13 0 (n - 1) 0 s3
      let ((a, fa), s5) := s4.camPt tab i
      let ((b, fb), s6) := s5.camPt tab (i + 1)
      let f := Nat.lor fs (Nat.lor fa fb)
      let hh := sub64 b.x a.x
      if f ≠ 0 then (bad f, s6)
      else if !fGt b64 hh 0 then (bad asCamErr, s6)
      else
        let k := fun (x : Int) => int64 x
        let t := div64 (sub64 phi a.x) hh
        let t2 := mul64 t t
        let t3 := mul64 t2 t
        let hs0 := mul64 hh a.s
        let hs1 := mul64 hh b.s
        let cub := fun (w0 w1 w2 w3 : Nat) =>
          add64 (add64 (add64 (mul64 w0 a.y) (mul64 w1 hs0)) (mul64 w2 b.y)) (mul64 w3 hs1)
        let y := cub (add64 (sub64 (mul64 (k 2) t3) (mul64 (k 3) t2)) (k 1))
          (add64 (sub64 t3 (mul64 (k 2) t2)) t)
          (add64 (mul64 (k (-2)) t3) (mul64 (k 3) t2)) (sub64 t3 t2)
        let d1 := cub (sub64 (mul64 (k 6) t2) (mul64 (k 6) t))
          (add64 (sub64 (mul64 (k 3) t2) (mul64 (k 4) t)) (k 1))
          (add64 (mul64 (k (-6)) t2) (mul64 (k 6) t)) (sub64 (mul64 (k 3) t2) (mul64 (k 2) t))
        let d2 := cub (sub64 (mul64 (k 12) t) (k 6)) (sub64 (mul64 (k 6) t) (k 4))
          (add64 (mul64 (k (-12)) t) (k 6)) (sub64 (mul64 (k 6) t) (k 2))
        let out := !cyc && (fLt b64 delta 0 || fGt b64 delta pl.x)
        (⟨add64 y off, if out then 0 else div64 d1 hh, if out then 0 else div64 d2 (mul64 hh hh), c, cyc, 0⟩, s6)

/-- The cam demand (R104, R107). -/
def State.camDemand (s : State) (r : AxRun) (x : AxisSt) (m : Master) : DemandRes × State :=
  let (dl, _) := r.delta x m
  let dc := posCode dl
  let new := loOf r.d 10
  let x0 := { x with mPrev := some m.m, delta := dl }
  let hold := x0.engaged && x0.camCyc && decide (new ≠ x0.ctab)
  let x1 := if hold then x0 else { x0 with ctab := new }
  let (v, s1) := s.camEval x1.ctab dc
  let turn := hold && decide (v.flags = 0) && decide (x1.camC ≠ some v.c)
  let (v1, s2) := if turn then s1.camEval new dc else (v, s1)
  let x2 := if turn then { x1 with ctab := new } else x1
  if v1.flags ≠ 0 then (.bad v1.flags x2, s2)
  else if !fin64 v1.y then (.bad asNonFin x2, s2)
  else
    (.good { q := wrap96 (r.fix 7 + posOf v1.y), wd := mul64 v1.y1 m.vm
             ad := add64 (mul64 v1.y2 (mul64 m.vm m.vm)) (mul64 v1.y1 m.am) }
      { x2 with camC := some v1.c, camCyc := v1.cyc }, s2)

/-- The TRACK demand (R104, R465). The first difference is taken from the axis's own motion; one after bad periods runs over
the periods in which the demand did not move. [DEDUCED, log 29] -/
def State.trackDemand (s : State) (r : AxRun) (x : AxisSt) : DemandRes × State :=
  let (d, s1) := s.lndRead axsPort (hiOf r.d 10) 4
  if anyPoison d then (.bad asPoison x, s1)
  else if !bitAt (loOf d 2) 0 || decide (loOf d 3 ≠ r.hnum) then (.bad 0 x, s1)
  else
    let q := sInt 64 (d.getD 0 Cw.lost).data.toNat * 2 ^ 32
    let (qp, wp) := match x.trkPrev with | some p => p | none => (x.pos, x.vi)
    let dt := mul64 (int64 ((x.badN - bitsOf x.cfg 11 4 + 1 : Nat) : Int)) r.p
    let wd := if bitAt (loOf d 2) 1 then to64 (loOf d 1) else div64 (posCode (wrap96 (q - qp))) dt
    let ad := if bitAt (loOf d 2) 1 then to64 (hiOf d 1) else div64 (sub64 wd wp) dt
    (.good ⟨q, wd, ad⟩ { x with trkPrev := some (q, wd) }, s1)

/-- Blend an engagement (R108). -/
def AxRun.blend (r : AxRun) (x : AxisSt) (m : Master) (g : Demand) : Demand × AxisSt :=
  if !x.engaging then (g, x)
  else
    let mr := posCode (r.fix 9)
    let ended := ({ x with engaging := false, engaged := true } : AxisSt)
    if r.fix 9 = 0 then (g, ended)
    else
      let ur := div64 (add64 (posCode x.delta) mr) mr
      if fGe b64 ur one64 then (g, ended)
      else
        let k := fun (n : Int) => int64 n
        let inside := fGt b64 ur 0
        let u := if inside then ur else 0
        let du := if inside then div64 m.vm mr else 0
        let ddu := if inside then div64 m.am mr else 0
        let u2 := mul64 u u
        let w := mul64 (mul64 u2 u) (add64 (sub64 (k 10) (mul64 (k 15) u)) (mul64 (k 6) u2))
        let omu := sub64 one64 u
        let w1 := mul64 (mul64 (k 30) u2) (mul64 omu omu)
        let w2 := mul64 (mul64 (mul64 (k 60) u) omu) (sub64 one64 (mul64 (k 2) u))
        let ts := code64 ((x.t : Rat) / 1000000000)
        let qf := x.p0 + posOf (mul64 x.v0 ts)
        let dd := posCode (wrap96 (g.q - qf))
        let rel := sub64 g.wd x.v0
        ({ q := wrap96 (qf + posOf (mul64 w dd))
           wd := add64 (add64 x.v0 (mul64 w rel)) (mul64 (mul64 w1 du) dd)
           ad := add64 (add64 (mul64 w g.ad) (mul64 (mul64 (k 2) (mul64 w1 du)) rel))
             (mul64 (add64 (mul64 w2 (mul64 du du)) (mul64 w1 ddu)) dd) }, x)

/-- The demand of a following mode in this period, with its finiteness (R106). -/
def State.axDemand (s : State) (r : AxRun) (x : AxisSt) : DemandRes × State :=
  let check := fun (g : Demand) (y : AxisSt) =>
    if fin64 g.wd && fin64 g.ad then DemandRes.good g y else DemandRes.bad asNonFin x
  if x.mode = amTrack then
    match s.trackDemand r x with
    | (.good g y, s1) => (check g y, s1)
    | o => o
  else
    match s.master r with
    | (.inr f, s1) => (.bad f x, s1)
    | (.inl m, s1) =>
      if x.mode = amGear then
        let (g, y) := r.gear x m
        let (g1, y1) := r.blend y m g
        (check g1 y1, s1)
      else
        match s1.camDemand r x m with
        | (.good g y, s2) => let (g1, y1) := r.blend y m g; (check g1 y1, s2)
        | (.bad f y, s2) => (.bad f y, s2)

/-- A period with a bad demand (R106): extrapolate for TXTRAP periods, then brake. -/
def AxRun.badDemand (r : AxRun) (x : AxisSt) : AxisSt × Nat × Nat :=
  let n := x.badN + 1
  if bitsOf x.cfg 11 4 < n then
    r.follow { x with badN := n, wd := 0, trkPrev := x.trkPrev.map fun p => (p.1, 0) } ⟨x.q, 0, 0⟩ true
  else
    let q := wrap96 (x.q + posOf (mul64 r.p x.wd))
    r.follow { x with badN := n, trkPrev := x.trkPrev.map fun p => (wrap96 (p.1 + posOf (mul64 r.p x.wd)), p.2) } ⟨q, x.wd, 0⟩ false

/-- One evaluation in a following mode: state, flags, FERR. -/
def State.following (s : State) (r : AxRun) (wordBad : Bool) : (AxisSt × Nat × Nat) × State :=
  -- the time of an engagement advances in every period (R108)
  let x := if r.x.engaging then { r.x with t := r.x.t + r.pns } else r.x
  let (dr, s1) := if wordBad then (DemandRes.bad asPoison x, s) else s.axDemand r x
  match dr with
  | .good g y =>
    let (z, f, e) := r.follow { y with wd := g.wd, badN := 0 } g false
    ((z, f, e), s1)
  | .bad f y =>
    let (z, f2, e) := r.badDemand y
    ((z, Nat.lor (Nat.lor f asDstale) f2, e), s1)

/-! ### Configuration and requests (R95 to R98) -/

/-- A binary32 code is positive and finite. -/
def posFin (x : Nat) : Bool := fIsFin b32 x && fGt b32 x 0

/-- Whether a configuration is invalid for a mode (R95). Poisoned words are left out. [DEDUCED, log 29] -/
def AxRun.invalid (r : AxRun) (self mode : Nat) : Bool :=
  let c := r.x.cfg
  decide (bitsOf c 28 3 ≠ r.ring) || bitAt c 31 || decide (bitsOf c 9 2 ≠ 0)
    || !(posFin r.x.vmax && posFin r.x.amax && posFin r.x.dmax && posFin r.x.jmax)
    || (!psnOf r.d 5 && negOrNan (hiOf r.d 5)) || (!psnOf r.d 11 && negOrNan (hiOf r.d 11))
    || (bitAt c 15 && !psnOf r.d 12 && decide (r.fix 12 ≤ 0))
    || (bitAt c 27 && !bitAt c 26 && decide (23 < bitsOf c 17 9))
    || ((decide (mode = amGear) || decide (mode = amCam)) && decide (bitsOf c 0 9 = self))
    || (!psnOf r.d 11 && decide (loOf r.d 11 ≠ 0) && !(decide (loOf r.d 11 % 8 = 0) && inLanding (loOf r.d 11) 8))
    || (!psnOf r.d 10 && decide (mode = amCam) && !(decide (loOf r.d 10 % 32 = 0) && inLanding (loOf r.d 10) 32))
    || (!psnOf r.d 10 && decide (mode = amTrack) && !(decide (hiOf r.d 10 % 32 = 0) && inLanding (hiOf r.d 10) 32))

/-- What a request asks for. -/
inductive AxReq where
  | none
  /-- it stays pending: it could not be judged (R464, R466) -/
  | pending
  | same
  | engage
  | reject (cfg : Bool)
  | transfer (m : Nat)
deriving DecidableEq, Repr

/-- Judge the request of an evaluation (R95, R96, R108); `spsn`: the private state is poisoned, and a transfer is performed
even to the present mode (R80). A poisoned POS holds back a transfer out of OFF (R466). -/
def AxRun.request (r : AxRun) (self : Nat) (spsn : Bool) : AxReq :=
  let req := hiOf r.d 0
  let m := req % 8
  let ramp := bitAt req 4
  let following := decide (m = amGear) || decide (m = amCam)
  if psnOf r.d 0 || !bitAt req 31 then .none
  else if m > amTrack then .reject false
  else if following && ramp && psnOf r.d 9 then .pending
  else if r.invalid self m then .reject true
  else if following && ramp && decide (r.fix 9 = 0) then .reject false
  else if m = r.x.mode ∧ !spsn then (if following && ramp then .engage else .same)
  else if (r.x.mode = amOff ∨ spsn) ∧ m ≠ amOff ∧ !bitAt r.x.cfg 27 ∧ psnOf r.d 13 then .pending
  else .transfer m

/-- Start an engagement (R108). -/
def AxisSt.engage (x : AxisSt) : AxisSt :=
  { x with engaging := true, engaged := false, p0 := x.pos, v0 := x.vi, t := 0, mPrev := none }

/-- A transfer out of OFF starts from the measured state (R97); with FBEN = 0 from POS, which each evaluation in OFF loads (R466; a poisoned
POS has held the request back). -/
def State.fromOff (s : State) (r : AxRun) (x : AxisSt) : AxOut × State :=
  if !bitAt x.cfg 27 then (({ x with pos := r.fix 13, vi := 0, ai := 0 }, asFbInit), s)
  else
    let (f, s1) := s.fbRead (bitAt x.cfg 26) (bitsOf x.cfg 17 9)
    let x1 := if f.ok then { x with pos := f.pos * 2 ^ 32 } else x
    if f.velok then
      (({ x1 with vi := clamp64 (neg64 r.vmax) r.vmax f.vel, ai := clamp64 (neg64 r.amax) r.amax f.acc }, 0), s1)
    else (({ x1 with vi := 0, ai := 0 }, asFbInit + flagIf f.poison asPoison), s1)

/-- A transfer to a mode (R97, R98); with the private state lost it starts from the measured state, as one out of OFF. [DESIGN CHOICE, log 143] -/
def State.axTransfer (s : State) (r : AxRun) (m : Nat) (spsn : Bool) : AxOut × State :=
  let ((x, f), s1) := if r.x.mode = amOff ∨ spsn then s.fromOff r r.x else ((r.x, 0), s)
  let keepCut := !spsn && (decide (x.mode = amPos) || decide (x.mode = amVel)) && (decide (m = amPos) || decide (m = amVel)) && x.plan.isSome
  let x1 := { x with mode := m, engaging := false, engaged := false
                     plan := if keepCut then x.plan else none, inpos := keepCut && x.inpos
                     mPrev := none, trkPrev := none, camC := none, badN := 0, q := x.pos, wd := x.vi }
  let ramp := bitAt (hiOf r.d 0) 4 && (decide (m = amGear) || decide (m = amCam))
  ((if ramp then x1.engage else x1, Nat.lor f asXfer), s1)

/-! ### One evaluation -/

/-- STAT of an axis: mode, the flags that persist, and MOVING, which shows VI. [DEDUCED, log 27] -/
def AxisSt.keep (x : AxisSt) : Nat :=
  x.mode * 2 ^ 24 + flagIf x.engaging asEngaging + flagIf x.engaged asEngaged + flagIf x.inpos asInpos
    + flagIf (!fEq b64 x.vi 0) asMoving

/-- Landing offset of an axis descriptor (R90). -/
def State.axisAt (s : State) (a : Nat) : Nat := s.rd Reg.AXS_ABASE_BASE * 65536 + 128 * a

/-- Write STAT and HNUM, and collect the events. -/
def State.axStat (s : State) (a stat hnum : Nat) : State :=
  let s1 := s.lndWriteCws axsPort (s.axisAt a + 8) [⟨BitVec.ofNat 64 (stat % 2 ^ 32 + hnum % 2 ^ 32 * 2 ^ 32), false⟩]
  if Nat.land stat asEvents = 0 then s1 else s1.setSummary 4 Reg.AXS_EVSUM_EV (a % 32) (a / 32)

/-- REQV is cleared (R96). -/
def State.axClearReq (s : State) (a : Nat) : State := s.lndMerge32 axsPort (s.axisAt a + 4) 0x80000000 0

/-- Take the clean words of the configuration into the private state (R464): bits of `seenLim` are VMAX, AMAX and DMAX, JMAX. [DEDUCED, log 27] -/
def AxisSt.takeWords (x : AxisSt) (d : List Cw) : AxisSt :=
  let x1 := if psnOf d 0 then x else { x with cfg := loOf d 0, seenCfg := true }
  let x2 := if psnOf d 3 then x1 else { x1 with vmax := hiOf d 3, seenLim := Nat.lor x1.seenLim 1 }
  let x3 := if psnOf d 4 then x2 else { x2 with amax := loOf d 4, dmax := hiOf d 4, seenLim := Nat.lor x2.seenLim 2 }
  if psnOf d 5 then x3 else { x3 with jmax := loOf d 5, seenLim := Nat.lor x3.seenLim 4 }

/-- Words of R464 that read poisoned. -/
def wordsBad (d : List Cw) : Bool :=
  psnOf d 0 || psnOf d 2 || psnOf d 3 || psnOf d 4 || psnOf d 5 || psnOf d 6 || psnOf d 7 || psnOf d 8 || psnOf d 9 || psnOf d 10
    || psnOf d 11 || psnOf d 12

/-- OFF (modes table, R466): the axis follows its feedback, or takes POS. -/
def State.axOff (s : State) (r : AxRun) (x : AxisSt) : AxOut × State :=
  if bitAt x.cfg 27 then
    let (f, s1) := s.fbRead (bitAt x.cfg 26) (bitsOf x.cfg 17 9)
    (({ x with pos := if f.ok then f.pos * 2 ^ 32 else x.pos, vi := if f.velok then f.vel else 0, ai := if f.velok then f.acc else 0 },
      flagIf f.poison asPoison), s1)
  else if psnOf r.d 13 then (({ x with vi := 0, ai := 0 }, asStatePsn), s)
  else (({ x with pos := r.fix 13, vi := 0, ai := 0 }, 0), s)

/-- Compute the set-point of the mode: state, flags and FERR. [DEDUCED, log 27; DESIGN CHOICE, log 30] -/
def State.axCompute (s : State) (r : AxRun) : (AxisSt × Nat × Option Nat) × State :=
  let bad := wordsBad r.d
  let m := r.x.mode
  if m = amOff then
    let ((x, f), s1) := s.axOff r r.x
    ((x, Nat.lor f (flagIf bad asPoison), none), s1)
  else if m = amPos ∨ m = amVel then
    if bad then
      -- no demand of its own: the sequence starts from the axis's own motion (R464)
      let x0 := { (if r.x.wordBad then r.x else { r.x with q := r.x.pos, wd := r.x.vi, badN := 0 }) with plan := none, inpos := false }
      let (x, f, e) := { r with x := x0 }.badDemand x0
      ((x, Nat.lor f (asPoison + asDstale), some e), s)
    else
      let vel := decide (m = amVel)
      if vel && fIsNan b32 (loOf r.d 3) then ((r.x, asNonFin, none), s)
      else
        let (k, s1) := s.draw
        let (_, s2) := s1.draw
        let (_, s3) := s2.draw
        let (x, f) := r.planned vel fun i => Config.freeWord (k + i)
        ((x, f, none), s3)
  else
    let ((x, f, e), s1) := s.following r bad
    ((x, Nat.lor f (flagIf bad asPoison), some e), s1)

/-- Position, demand and plan after an evaluation: modulo the axis's modulus and 2^96 (R94). -/
def AxRun.place (r : AxRun) (x : AxisSt) : AxisSt :=
  let w := if r.mod > 0 then x.pos % r.mod else wrap96 x.pos
  let sh := w - x.pos
  { x with pos := w, q := wrap96 (x.q + sh), plan := x.plan.map fun (p : PlanSt) => { p with start := p.start + sh } }

/-- Write what an evaluation publishes: POS, VEL, ACC, FERR and the stage (R94, R466). -/
def State.axPublish (s : State) (r : AxRun) (a : Nat) (x : AxisSt) (ferr : Option Nat) : AxisSt × State :=
  let p := pubPos x.pos
  let at_ := s.axisAt a
  let offKeep := decide (x.mode = amOff) && !bitAt x.cfg 27
  let vel := if x.mode = amOff then 0 else to32 x.vi
  let acc := if x.mode = amOff then 0 else to32 x.ai
  let va : Cw := ⟨BitVec.ofNat 64 (vel + acc * 2 ^ 32), false⟩
  let s1 := if offKeep then s else s.lndWriteCws axsPort (at_ + 0x68) [⟨BitVec.ofNat 64 p, false⟩]
  let s2 := if offKeep && x.offPub then s1 else s1.lndWriteCws axsPort (at_ + 0x70) [va]
  let s3 := match ferr with
    | some e => s2.lndWriteCws axsPort (at_ + 0x78) [⟨BitVec.ofNat 64 e, false⟩]
    | none => s2
  let s4 := if x.mode ≠ amOff ∧ !psnOf r.d 11 ∧ loOf r.d 11 ≠ 0 then
      s3.lndWriteCws axsPort (loOf r.d 11) [⟨BitVec.ofNat 64 p, false⟩] else s3
  ({ x with offPub := offKeep }, s4)

/-- One axis at the deadline of its ring (R91 to R98, R464 to R466). [DESIGN CHOICE, log 143; DEDUCED, log 144] -/
def State.axisEval (s : State) (n a : Nat) : State :=
  let rg := s.ring n
  let h := rg.now
  let (d, s1) := s.lndRead axsPort (s.axisAt a) 16
  let (spsn, s2) := s1.axisPoison a
  -- with the private state lost, so are the held configuration and limits
  let x0 := (if spsn then { s2.axis a with seenCfg := false, seenLim := 0 } else s2.axis a).takeWords d
  let late := !psnOf d 1 && decide (hiOf d 1 ≠ (h + 0xFFFFFFFF) % 2 ^ 32) && tabAt 0 s2.axs.evals a == rg.era n
  let lf := flagIf late asLate + flagIf spsn asStatePsn
  let s2 := { s2 with axs := { s2.axs with evals := tabPut 0 s2.axs.evals a (rg.era n) } }
  let r : AxRun := { ring := n, hnum := h, d := d, x := x0, p := loopPeriod rg.per, pns := rg.perNs }
  if !x0.seenCfg || decide (x0.seenLim ≠ 7) then s2.axStat a (x0.keep + lf + asPoison) h
  else
    let rq := r.request a spsn
    let served := fun (t : State) => if rq = .none ∨ rq = .pending then t else t.axClearReq a
    let ef := match rq with
      | .reject c => asModeErr + flagIf c asCfgErr
      | _ => 0
    let leaves := match rq with | .transfer _ => true | _ => false
    if spsn && !leaves && decide (x0.mode ≠ amOff) then
      -- the private state is lost: the axis holds until a transfer takes it anew (R80)
      (served s2).axStat a (Nat.lor (x0.keep + lf) ef) h
    else if !leaves && r.invalid a x0.mode then
      ((served s2).setAxis a x0).axStat a (Nat.lor (x0.keep + lf + asCfgErr) ef) h
    else
      let ((x1, f1), s3) := match rq with
        | .transfer m => s2.axTransfer r m spsn
        | .engage => ((x0.engage, 0), s2)
        | _ => ((x0, 0), s2)
      let r1 := { r with x := x1 }
      let ((x2, f2, ferr), s4) := s3.axCompute r1
      if !(fin64 x2.vi && fin64 x2.ai) || bitAt f2 10 && !bitAt f2 8 then
        -- a value computed from clean, finite inputs is not finite (R464)
        (s2.setAxis a x0).axStat a (x0.keep + lf + asNonFin) h
      else
        let (x3, s5) := s4.axPublish r1 a { (r1.place x2) with wordBad := wordsBad d } ferr
        ((served s5).setAxis a x3).axStat a
          (Nat.lor (Nat.lor (Nat.lor x3.keep lf) (Nat.lor ef f1)) f2) h

/-! ### Passes (R91, R92, R462) -/

/-- The members of a ring in ascending axis number (R91). -/
def State.axMembers (s : State) (n : Nat) : List Nat :=
  (upFrom 0 512).filter fun a => s.bit Reg.AXS_AMAP_EN (a / 8) (a % 8) && s.rd Reg.AXS_AMAP_RING (a / 8) (a % 8) == n

/-- The ticks of a pass of `k` axes: a free value within the bound of R92. [DESIGN CHOICE, log 31] -/
def State.axPassTime (s : State) (n k : Nat) : State :=
  let (i, s1) := s.draw
  let t := Nat.min ((Config.freeWord i).toNat % ((2000 + 195 * k) / 50 + 1)) 0xFFFF
  (s1.wr Reg.AXS_PTIME_LAST t n).wr Reg.AXS_PTIME_MAX (max t (s1.rd Reg.AXS_PTIME_MAX n)) n

/-- The generator pass at a deadline (R49, R91): it gets to evaluate `k` axes before the seal. -/
def State.axPass (s : State) (n k : Nat) : State :=
  let ms := s.axMembers n
  if !s.bit Reg.AXS_CTL_EN || decide (ms = []) then s
  else
    let now := ms.take k
    let s1 := s.over now fun a s => s.axisEval n a
    let s2 := s1.wr Reg.AXS_PSTAT_NEVAL now.length n
    if now.length = ms.length then s2.axPassTime n now.length
    else { s2 with axs := { s2.axs with waiting := setIns s2.axs.waiting n, next := tabPut 0 s2.axs.next n (ms.getD k 0 + 1) } }

/-- Drop the pass of a ring. -/
def State.axPassDrop (s : State) (n : Nat) : State :=
  { s with axs := { s.axs with waiting := setDel s.axs.waiting n, next := tabDel s.axs.next n } }

/-- The pass of a ring at its seal (R48): the flag says that it was late. -/
def State.axPassSeal (s : State) (n : Nat) : Bool × State :=
  if !s.axs.waiting.contains n then (false, s)
  else
    let s1 := (s.wr Reg.AXS_PSTAT_STOP (tabAt 1 s.axs.next n - 1) n).setSticky 4 Reg.AXS_PSTAT_LATE n
    (true, s1.axPassDrop n)

/-- EN is cleared (R462). -/
def State.axisDisable (s : State) : State :=
  (s.wrB Reg.AXS_CTL_EN false).over s.axs.waiting fun n s =>
    (s.wr Reg.AXS_PSTAT_STOP (tabAt 1 s.axs.next n - 1) n).axPassDrop n
/-- AXIS_DISABLE. -/
def execAxisDisable (s : State) : Host.Outcome State Fault Refusal := .next s.axisDisable

/-- CLRMAX. -/
def State.axisClrmax (s : State) : State := s.over (upFrom 0 8) fun n s => s.wr Reg.AXS_PTIME_MAX 0 n
/-- AXIS_CLRMAX. -/
def execAxisClrmax (s : State) : Host.Outcome State Fault Refusal := .next s.axisClrmax

/-- A write to AXS_ABASE (R90). -/
def State.axsAbase (s : State) (v : Nat) : State :=
  if s.bit Reg.AXS_CTL_EN then s else s.wr Reg.AXS_ABASE_BASE (v / 65536)

/-- A member newly enabled has no clean read of its words yet (R464), and no evaluation that a pass could have missed (R94). -/
def State.axisEnabled (s : State) (a : Nat) : State :=
  let x := s.axis a
  { s with axs := { s.axs with axes := tabPut {} s.axs.axes a { x with seenCfg := false, seenLim := 0 }, evals := tabDel s.axs.evals a } }

/-- One axis at event C or H (R99); STAT and HNUM are written whole, so a poisoned word becomes clean. -/
def State.axisClear (s : State) (a : Nat) : State :=
  let (c, s0) := (s.axClearReq a).lndCwRead axsPort (s.axisAt a + 8)
  let s1 := s0.lndWriteCws axsPort (s.axisAt a + 8)
    [⟨c.data &&& BitVec.ofNat 64 (2 ^ 64 - 1 - (7 * 2 ^ 24 + asEngaging + asEngaged + asInpos)), false⟩]
  let x := s1.axis a
  let y : AxisSt := { x with mode := amOff, engaging := false, engaged := false, inpos := false, plan := none }
  { s1 with axs := { s1.axs with axes := tabPut {} s1.axs.axes a y } }

/-- Events C and H (R99): passes end and every axis goes OFF. -/
def State.axsClear (s : State) : State :=
  let base := s.axisAt 0
  let used := (s.offsUsed base (512 * 128)).foldl (fun a o => setIns a ((o - base) / 128)) []
  let all := s.axs.axes.foldl (fun l kx => setIns l kx.1) used
  let s1 := s.over all fun a s => s.axisClear a
  { s1 with axs := { s1.axs with waiting := [], next := [] } }

end Sys2Proof.Machine
end

