-- ==== Sys2Proof/Machine/Can.lean ====
section
/-! DEFINITION. The CAN FD controllers (R318 to R334). -/
namespace Sys2Proof.Machine

/-- A controller. -/
def State.canC (s : State) (c : Nat) : CanSt := tabAt {} s.can c
/-- Replace it. -/
def State.setCan (s : State) (c : Nat) (x : CanSt) : State := { s with can := tabPut {} s.can c x }

/-- Landing port of the controllers (R24). -/
def canPort : Nat := 5
/-- The area of a controller (R321). -/
def State.canAt (s : State) (c : Nat) : Nat := s.rd Reg.CAN_ABASE_BASE * 32768 + 32768 * c
/-- Message object `o` of a controller (R321). -/
def State.canObj (s : State) (c o : Nat) : Nat := s.canAt c + 0x1800 + 96 * o

/-- A sticky bit of a controller; `j` is its place in the summary (CAN_EVSUM). [DEDUCED, log 84] -/
def State.canSticky (s : State) (f : Field) (c j : Nat) : State :=
  if s.bit f c then s else (s.wrB f true c).setSummary 10 Reg.CAN_EVSUM_EV (4 * c + j)

/-- Write bytes of the area as source CAN with a tick stamp (R404). -/
def State.canWrite (s : State) (c off : Nat) (l : List Byte) : State :=
  s.srcWriteBytes canPort 7 (.tick s.dtick) (s.canAt c + off) l

/-- HTIME of a start of frame as the controller sees it at RX, `ago` ticks back (R333): in steps of 5 ns, within one nominal
tq and 20 ns. [DESIGN CHOICE, log 85] -/
def State.canSof (s : State) (c : Nat) (ago err : Int) : Nat :=
  let lim : Int := s.rd Reg.CAN_NBT_NBRP c + 5
  uOf 64 ((s.htime : Int) - 5 * ago + 5 * clampI (-lim) lim err)

/-- Set a flag of the controller's task (R327, R330, R331). -/
def State.canFlag (s : State) (c : Nat) (en fl : Field) : State :=
  if s.bit en c then s.flagSet 1 c (s.rd Reg.CAN_FLAG_TASK c) (2 ^ s.rd fl c) else s

/-! ### Enabling (R320, R332) -/

/-- Whether the bit timing is valid (R320). [DEDUCED, log 82] -/
def State.canValid (s : State) (c : Nat) : Bool :=
  let n2 := s.rd Reg.CAN_NBT_NTSEG2 c + 1
  let d1 := s.rd Reg.CAN_DBT_DTSEG1 c + 1
  let d2 := s.rd Reg.CAN_DBT_DTSEG2 c + 1
  decide (1 ≤ s.rd Reg.CAN_NBT_NTSEG1 c) && decide (2 ≤ n2) && decide (s.rd Reg.CAN_NBT_NSJW c + 1 ≤ n2)
    && decide (s.rd Reg.CAN_DBT_DSJW c + 1 ≤ d2) && decide (200 ≤ (s.rd Reg.CAN_DBT_DBRP c + 1) * 5 * (1 + d1 + d2))

/-- CAN_LISTEN_END: 200 ms after EN (R332). -/
def execCanListenEnd (c : Fin 4) (s : State) : Host.Outcome State Fault Refusal :=
  let x := s.canC c
  if x.phase = 1 then .next ((s.advanceEdge x.listenEnd).setCan c { x with phase := 2 }) else .next s

/-! ### Requests and results (R321, R324, R327) -/

/-- The frame record of a request. -/
def State.canRecord (s : State) (c r : Nat) : Nat := if r < 3 then s.canAt c + 0x40 + 80 * r else s.canObj c (r - 3) + 0x10

/-- The request word of a request and its bit; the abort word lies 4 bytes (buffers) or 16 bytes (objects) above. -/
def reqBit (r : Nat) : Nat × Nat := if r < 3 then (0, r) else (0x10 + (r - 3) / 32 * 4, (r - 3) % 32)

/-- The requests whose bits stand in a word of buffers and one of objects. -/
def reqList (tx mm : Nat) : List Nat :=
  ((upFrom 0 3).filter fun b => bitAt tx b) ++ ((upFrom 0 128).filter fun o => bitAt mm o).map (· + 3)

/-- Whether an object is in use to send (R323). -/
def State.canSends (s : State) (c o : Nat) : Bool × State :=
  let ((b, p), s1) := s.lndBytes canPort (s.canObj c o) 8
  (!p && bitAt (fieldAt b 0 4) 31 && bitAt (fieldAt b 0 4) 30, s1)

/-- Those of a list of requests whose object is in use to send. [DEDUCED, log 83] -/
def State.canSendable (c : Nat) : List Nat → State → List Nat × State
  | [], s => ([], s)
  | r :: l, s =>
    let (ok, s1) := if r < 3 then (true, s) else s.canSends c (r - 3)
    let (k, s2) := State.canSendable c l s1
    (if ok then r :: k else k, s2)

/-- The requests whose bits stand in the request or abort words, beside the list `old`: of a poisoned word none are taken.
Buffers come first, then objects in ascending number. [DEDUCED, log 83] -/
def State.canReqWords (s : State) (c txOff mmOff : Nat) (old : List Nat) : List Nat × State :=
  let ((t, p), s1) := s.lndWord canPort (s.canAt c + txOff)
  let ((m, q), s2) := s1.lndBytes canPort (s1.canAt c + mmOff) 16
  let (l, s3) := State.canSendable c (reqList (if p then 0 else t) (if q then 0 else leNat m)) s2
  ((upFrom 0 131).filter fun r => old.contains r || l.contains r, s3)

/-- EN goes from 0 to 1: RESULT of every buffer and send object reads 0 (R327), the controller listens; requests that stand are
pending (R326). [DEDUCED, log 83] -/
def State.canStart (s : State) (c : Nat) : State :=
  let ((put, _), s1) := s.lndWord canPort (s.canAt c + 8)
  let ((get, _), s2) := s1.lndWord canPort (s1.canAt c + 12)
  let (l, s2b) := s2.canReqWords c 0 0x10 []
  let x : CanSt := { phase := 1, listenEnd := s2b.time.edge + 200 * edgesPerMs, rxput := put, rxget := get, reqs := l }
  let s3 := (((s2b.setCan c x).wrB Reg.CAN_CCFG_EN true c).wrB Reg.CAN_STAT_RUN true c).wrB Reg.CAN_STAT_INTEG true c
  let s4 := (((s3.wrB Reg.CAN_STAT_CFGERR false c).wr Reg.CAN_STAT_FCS 0 c).wrB Reg.CAN_STAT_EWARN false c)
  let s5 := ((s4.wr Reg.CAN_ECNT_TEC 0 c).wr Reg.CAN_ECNT_REC 0 c).canWrite c 0x30 (leBytes 12 0)
  s5.over (upFrom 0 128) fun o s =>
    let ((b, p), s1) := s.lndBytes canPort (s.canObj c o) 16
    if !p && bitAt (fieldAt b 0 4) 31 && bitAt (fieldAt b 0 4) 30 && decide (bitsOf (fieldAt b 12 4) 28 3 ≠ 0) then
      s1.srcWriteBytes canPort 7 (.tick s1.dtick) (s1.canObj c o + 12) (leBytes 4 (fieldAt b 12 4 - bitsOf (fieldAt b 12 4) 28 3 * 2 ^ 28))
    else s1

/-- EN of a controller is written. [DEDUCED, log 82] -/
def State.canEnable (s : State) (c : Nat) (b : Bool) : State :=
  if b = s.bit Reg.CAN_CCFG_EN c then s
  else if b then (if s.canValid c then s.canStart c else s.wrB Reg.CAN_STAT_CFGERR true c)
  else
    let s1 := ((s.setCan c {}).wrB Reg.CAN_CCFG_EN false c).wrB Reg.CAN_STAT_RUN false c
    (s1.wrB Reg.CAN_STAT_INTEG false c).wrB Reg.CAN_STAT_CFGERR false c
/-- CAN_ENABLE. -/
def execCanEnable (c : Fin 4) (s : State) : Host.Outcome State Fault Refusal := .next (s.canEnable c true)

/-- A request ends (R327): RESULT and TAG, request and abort bits cleared, TXFLAG. [DEDUCED, log 86] -/
def State.canEnd (s : State) (c r result tag : Nat) : State :=
  let x := s.canC c
  let s1 := s.setCan c { x with reqs := x.reqs.filter fun q => q ≠ r }
  let s2 := if r < 3 then s1.canWrite c (0x30 + 4 * r) (leBytes 4 (result * 2 ^ 29 + tag))
    else s1.canWrite c (0x1800 + 96 * (r - 3) + 12) (leBytes 4 (result * 2 ^ 28 + tag))
  let (w, b) := reqBit r
  let a := if r < 3 then w + 4 else w + 16
  ((s2.lndMerge32 canPort (s2.canAt c + w) (2 ^ b) 0).lndMerge32 canPort (s2.canAt c + a) (2 ^ b) 0).canFlag c
    Reg.CAN_FLAG_TXFE Reg.CAN_FLAG_TXFLAG

/-- A frame record as read (R322), with TAG and whether a reserved bit is set. -/
structure CanRec where
  frame : CanFrame
  tag : Nat
  reservedSet : Bool
deriving DecidableEq, Repr

/-- Data bytes of a frame (R322). -/
def canLen (fdf : Bool) (dlc : Nat) : Nat :=
  if dlc ≤ 8 then dlc
  else if !fdf then 8
  else match dlc with
    | 9 => 12 | 10 => 16 | 11 => 20 | 12 => 24 | 13 => 32 | 14 => 48 | _ => 64

/-- A record from its bytes. -/
def parseCan (b : List Byte) : CanRec :=
  let w := fieldAt b 0 4
  let d := fieldAt b 4 2
  let xtd := bitAt w 31
  let dlc := d % 16
  { frame := { xtd := xtd, rtr := bitAt w 30, fdf := bitAt w 29, brs := bitAt d 4, esi := bitAt d 5, id := BitVec.ofNat 29 w
               dlc := ⟨dlc % 16, Nat.mod_lt _ (by decide)⟩, data := (b.drop 16).take (if bitAt w 30 then 0 else canLen (bitAt w 29) dlc) }
    tag := fieldAt b 6 2
    reservedSet := decide (d / 64 ≠ 0) || (!xtd && decide (bitsOf w 11 18 ≠ 0)) }

/-- Whether the controller may send a record (R327). -/
def State.canFormat (s : State) (c : Nat) (r : CanRec) : Bool :=
  !(r.frame.fdf && !s.bit Reg.CAN_CCFG_FDEN c) && !(r.frame.rtr && r.frame.fdf) && !(r.frame.brs && !r.frame.fdf) && !r.reservedSet

/-- The arbitration field as a number: the lower one wins on the wire (R325). -/
def canArb (f : CanFrame) : Nat :=
  let id := f.id.toNat
  let r := b2n (f.rtr && !f.fdf)
  if f.xtd then id / 2 ^ 18 * 2 ^ 21 + 2 ^ 20 + 2 ^ 19 + id % 2 ^ 18 * 2 + r
  else id % 2048 * 2 ^ 21 + r * 2 ^ 20

/-- Read a pending request for selection: one that is poisoned or has no valid format ends (R327). -/
def State.canRead (s : State) (c r : Nat) : Option CanRec × State :=
  let ((b, p), s1) := s.lndBytes canPort (s.canRecord c r) 80
  let k := parseCan b
  if p then (none, (s1.canSticky Reg.CAN_STAT_TXPSN c 3).canEnd c r 4 k.tag)
  else if s1.canFormat c k then (some k, s1)
  else (none, s1.canEnd c r 5 k.tag)

/-- The lowest arbitration field over the requests, in order (R325, TXPRI = 0). -/
def State.canLowest (c : Nat) (best : Option (Nat × CanRec)) : List Nat → State → Option (Nat × CanRec) × State
  | [], s => (best, s)
  | r :: l, s =>
    match s.canRead c r with
    | (none, s1) => State.canLowest c best l s1
    | (some k, s1) =>
      let b := match best with
        | none => some (r, k)
        | some (q, m) => if canArb k.frame < canArb m.frame then some (r, k) else some (q, m)
      State.canLowest c b l s1

/-- The first request that can be sent (R325, TXPRI = 1). -/
def State.canFirst (c : Nat) : List Nat → State → Option (Nat × CanRec) × State
  | [], s => (none, s)
  | r :: l, s =>
    match s.canRead c r with
    | (none, s1) => State.canFirst c l s1
    | (some k, s1) => (some (r, k), s1)

/-- Whether the controller starts no frame (R328, R376). [DESIGN CHOICE, log 85] -/
def State.canHeld (s : State) (c : Nat) : Bool :=
  !s.enabled || (s.bit Reg.CAN_CCFG_GATE c && !s.bit Reg.PWR_STAT_OUTREL)

/-- CAN_TX_REQUEST: request bits were set; what is pending stays so (R326). -/
def execCanTxRequest (c : Fin 4) (s : State) : Host.Outcome State Fault Refusal :=
  let x := s.canC c
  if x.phase = 0 then .next s
  else
    let (l, s1) := s.canReqWords c 0 0x10 x.reqs
    .next (s1.setCan c { x with reqs := l })

/-- CAN_TX_ABORT: abort bits were set; a request whose frame is on the bus goes on (R327). -/
def execCanTxAbort (c : Fin 4) (s : State) : Host.Outcome State Fault Refusal :=
  let x := s.canC c
  if x.phase = 0 then .next s
  else
    let (l, s1) := s.canReqWords c 4 0x20 []
    let hit := x.reqs.filter fun r => l.contains r
    let s2 := match x.cur with
      | some r => if hit.contains r then s1.setCan c { x with abortCur := true } else s1
      | none => s1
    .next (s2.over (hit.filter fun r => x.cur ≠ some r) fun r s =>
      let ((b, _), s1) := s.lndBytes canPort (s.canRecord c r) 8
      s1.canEnd c r 2 (fieldAt b 6 2))

/-- CAN_FRAME_START: a point at which a frame may start (R325). [DESIGN CHOICE, log 85] -/
def execCanFrameStart (c : Fin 4) (lag : Fin 52) (err : Int) (s : State) : Host.Outcome State Fault Refusal :=
  let x := s.canC c
  if x.phase ≠ 3 ∨ s.rd Reg.CAN_STAT_FCS c = 2 ∨ x.cur ≠ none ∨ s.bit Reg.CAN_CCFG_LOM c ∨ s.replaying ∨ s.canHeld c then .next s
  else
    let (k, s1) := if s.bit Reg.CAN_CCFG_TXPRI c then State.canFirst c x.reqs s else State.canLowest c none x.reqs s
    match k with
    | none => .next s1
    | some (r, m) =>
      let y := s1.canC c
      let passive := decide (s1.rd Reg.CAN_STAT_FCS c = 1)
      let s2 := s1.setCan c { y with
        cur := some r, abortCur := false, curFrame := some m.frame, curHt := s1.canSof c (-(lag.val : Int)) err, curTag := m.tag
        released := false }
      .next { s2 with canOut := s2.canOut ++ [⟨c, s2.htime, passive, m.frame⟩] }

/-! ### Fault confinement (R331) -/

/-- At bus-off with ABOBO = 1 every pending request ends. -/
def State.canDiscard (s : State) (c : Nat) : State :=
  if !s.bit Reg.CAN_CCFG_ABOBO c then s
  else s.over (s.canC c).reqs fun r s =>
    let ((b, _), s1) := s.lndBytes canPort (s.canRecord c r) 8
    s1.canEnd c r 3 (fieldAt b 6 2)

/-- The counters have changed: state, warning, sticky bits, flag and Tally. -/
def State.canConfine (s : State) (c tec rec_ : Nat) : State :=
  let x := s.canC c
  let s1 := s.setCan c { x with tec := tec, rec_ := Nat.min 255 rec_ }
  let s2 := (s1.wr Reg.CAN_ECNT_TEC (Nat.min 255 tec) c).wr Reg.CAN_ECNT_REC (Nat.min 255 rec_) c
  let warn := decide (96 ≤ tec) || decide (96 ≤ rec_)
  let s3 := if warn && !s.bit Reg.CAN_STAT_EWARN c then s2.canSticky Reg.CAN_STAT_EWSET c 0 else s2
  let s4 := s3.wrB Reg.CAN_STAT_EWARN warn c
  let new := if 255 < tec then 2 else if 128 ≤ tec ∨ 128 ≤ rec_ then 1 else 0
  if new = s.rd Reg.CAN_STAT_FCS c then s4
  else
    let s5 := s4.wr Reg.CAN_STAT_FCS new c
    let s6 := if new = 2 then ((s5.canSticky Reg.CAN_STAT_BOFF c 0).inc Reg.CAN_CNT_BOFF c).wr Reg.CAN_LEC_BORC 0 c
      else if new = 1 then s5.canSticky Reg.CAN_STAT_EPASS c 0 else s5
    let s7 := (s6.canFlag c Reg.CAN_FLAG_ERFE Reg.CAN_FLAG_ERFLAG).tally 0x0A01 c new (Nat.min 255 tec + 256 * Nat.min 255 rec_) c
    if new = 2 then s7.canDiscard c else s7

/-- A controller goes into or out of INTEGRATING (R331): flag and Tally with FCS as it stands. [DEDUCED, log 84] -/
def State.canPhase (s : State) (c ph : Nat) : State :=
  let x := s.canC c
  let s1 := (s.setCan c { x with phase := ph }).wrB Reg.CAN_STAT_INTEG (decide (ph ≠ 3)) c
  (s1.canFlag c Reg.CAN_FLAG_ERFE Reg.CAN_FLAG_ERFLAG).tally 0x0A01 c (s.rd Reg.CAN_STAT_FCS c) (Nat.min 255 x.tec + 256 * x.rec_) c

/-- 128 sequences of 11 recessive bits have been seen in BUS-OFF (R331): both counters start again, through INTEGRATING. -/
def State.canRecover (s : State) (c : Nat) : State :=
  let s1 := ((s.setCan c { s.canC c with phase := 2 }).wrB Reg.CAN_STAT_INTEG true c).wr Reg.CAN_LEC_BORC 128 c
  s1.canConfine c 0 0

/-- CAN_INTEGRATED: 11 recessive bits in a row (R331): integration ends, or BUS-OFF counts one more. [DEDUCED, log 84] -/
def execCanIntegrated (c : Fin 4) (s : State) : Host.Outcome State Fault Refusal :=
  let x := s.canC c
  if s.rd Reg.CAN_STAT_FCS c = 2 then
    .next (if 127 ≤ s.rd Reg.CAN_LEC_BORC c then s.canRecover c else s.wr Reg.CAN_LEC_BORC (s.rd Reg.CAN_LEC_BORC c + 1) c)
  else if x.phase = 2 then .next (s.canPhase c 3)
  else .next s

/-- Three attempts in a row on one identifier ended in a bit error after arbitration. -/
def State.canCollide (s : State) (c : Nat) : State :=
  let x := s.canC c
  match x.colId with
  | some (xtd, id) =>
    if x.colCount < 3 ∨ x.colTold then s
    else
      let s1 := ((s.setCan c { x with colTold := true }).wrB Reg.CAN_COLID_XTD xtd c).wr Reg.CAN_COLID_ID id c
      ((s1.canSticky Reg.CAN_STAT_IDCOL c 1).canFlag c Reg.CAN_FLAG_ERFE Reg.CAN_FLAG_ERFLAG).tally 0x0A02 c (b2n xtd) id c
  | none => s
/-- ID_COLLISION. [DESIGN CHOICE, log 85] -/
def execIdCollision (c : Fin 4) (s : State) : Host.Outcome State Fault Refusal := .next (s.canCollide c)

/-- The record of errors in a bit after arbitration. -/
def CanSt.collision (x : CanSt) (f : CanFrame) (bitErr : Bool) : CanSt :=
  let id := (f.xtd, f.id.toNat)
  if x.colId = some id then (if bitErr then { x with colCount := Nat.min 3 (x.colCount + 1) } else { x with colCount := 0, colTold := false })
  else if bitErr then { x with colId := some id, colCount := 1, colTold := false }
  else { x with colId := none, colCount := 0, colTold := false }

/-- An attempt on another identifier starts the count of collisions again (R331). -/
def CanSt.other (x : CanSt) (f : CanFrame) : CanSt :=
  if x.colId = some (f.xtd, f.id.toNat) then x else { x with colId := none, colCount := 0, colTold := false }

/-- The transmitter delay as measured at the FDF-to-res edge, and the secondary sample point behind it (R320). [DESIGN CHOICE, log 85] -/
def State.canDelay (s : State) (c : Nat) (f : CanFrame) (delay : Option (BitVec 8)) : State :=
  match delay with
  | some d =>
    if s.bit Reg.CAN_CCFG_TDCEN c && f.fdf && f.brs then
      (s.wr Reg.CAN_TDCV_DLY d.toNat c).setCan c { s.canC c with ssp := some (d.toNat + s.rd Reg.CAN_TDC_TDCO c) }
    else s.setCan c { s.canC c with ssp := none }
  | none => s

/-- CAN_TX_END: the attempt on the bus ends (R326, R327, R331). [DESIGN CHOICE, log 85] -/
def execCanTxEnd (c : Fin 4) (r : CanTxOutcome) (delay : Option (BitVec 8)) (s : State) : Host.Outcome State Fault Refusal :=
  let x := s.canC c
  match x.cur, x.curFrame with
  | some q, some f =>
    let s0 := if r = .lost then s else s.canDelay c f delay
    let y : CanSt := { s0.canC c with cur := none, curFrame := none, abortCur := false, released := false }
    let finish (s : State) : State := if x.abortCur && x.reqs.contains q then s.canEnd c q 2 x.curTag else s
    match r with
    | .sent =>
      let s1 := s0.setCan c { y with colId := none, colCount := 0, colTold := false }
      let s2 := s1.canConfine c (x.tec - 1) x.rec_
      if !x.reqs.contains q then .next s2
      else .next ((s2.lndWrite canPort (s2.canRecord c q + 8) (leBytes 8 x.curHt)).canEnd c q 1 x.curTag)
    | .lost => .next (finish (s0.setCan c (y.other f)))
    | .error lec dph afterArb domSeen again =>
      let passive := decide (s.rd Reg.CAN_STAT_FCS c = 1)
      let exempt := (decide (lec.val = 3) && passive && !domSeen) || (decide (lec.val = 1) && !afterArb)
      let bitErr := afterArb && (decide (lec.val = 4) || decide (lec.val = 5))
      let s1 := ((s0.setCan c (y.collision f bitErr)).wr Reg.CAN_LEC_LEC lec.val c).wrB Reg.CAN_LEC_DPH dph c
      let s2 := s1.canCollide c
      let tec := x.tec + (if exempt then 0 else 8) + 8 * again
      .next (finish (s2.canConfine c tec x.rec_))
  | _, _ => .next s

/-- CAN_RECEIVE_ERROR: an error while receiving, or a recessive res bit (R318, R331). [DESIGN CHOICE, log 85] -/
def execCanReceiveError (c : Fin 4) (lec : Fin 8) (dataPhase plus8 exception : Bool) (s : State) : Host.Outcome State Fault Refusal :=
  let x := s.canC c
  if x.phase = 0 ∨ s.rd Reg.CAN_STAT_FCS c = 2 then .next s
  else if exception && !s.bit Reg.CAN_CCFG_PXHD c then
    .next ((if x.phase = 3 then s.canPhase c 2 else s).canSticky Reg.CAN_STAT_PXE c 0)
  else
    let s1 := (s.wr Reg.CAN_LEC_LEC (if exception then 2 else lec.val) c).wrB Reg.CAN_LEC_DPH dataPhase c
    .next (s1.canConfine c x.tec (x.rec_ + (if plus8 then 8 else 1)))

/-- CAN_BUSOFF_RECOVERY: what was left of the 128 sequences of 11 recessive bits (R331). [DEDUCED, log 84] -/
def execCanBusoffRecovery (c : Fin 4) (s : State) : Host.Outcome State Fault Refusal :=
  if s.rd Reg.CAN_STAT_FCS c ≠ 2 then .next s else .next (s.canRecover c)

/-- Whether a controller may drive a dominant bit: a frame, an acknowledgement or an error flag, but nothing while it listens
or integrates (R331, R332), in bus monitoring (R318) or in BUS-OFF. -/
def State.canDrives (s : State) (c : Nat) : Bool :=
  decide ((s.canC c).phase = 3) && !s.bit Reg.CAN_CCFG_LOM c && decide (s.rd Reg.CAN_STAT_FCS c ≠ 2)

/-- DOMINANT_TIMEOUT: the controller has driven dominant for 1.0 ms, and the transceiver releases the bus to recessive until the
next frame (R319). -/
def execDominantTimeout (c : Fin 4) (s : State) : Host.Outcome State Fault Refusal :=
  if s.canDrives c then
    .next (((s.setCan c { s.canC c with released := true }).canSticky Reg.CAN_STAT_DOMTO c 3).tally 0x0A03 c 0 0 c)
  else .next s

/-! ### Receiving (R329, R330) -/

/-- The 80 bytes of a received record (R322). -/
def canBytes (f : CanFrame) (ht : Nat) : List Byte :=
  let n := if f.rtr then 0 else canLen f.fdf f.dlc
  let d := (f.data.take n)
  leBytes 4 (f.id.toNat + b2n f.fdf * 2 ^ 29 + b2n f.rtr * 2 ^ 30 + b2n f.xtd * 2 ^ 31)
    ++ leBytes 2 (f.dlc.val + b2n f.brs * 16 + b2n f.esi * 32) ++ leBytes 2 0 ++ leBytes 8 ht
    ++ d ++ List.replicate (64 - d.length) 0#8

/-- The configuration of an object: the first matching receive object decides; `o` counts up from the list's head. -/
def State.canMatch (c : Nat) (f : CanFrame) : List Nat → State → Option (Nat × Bool × Nat) × State
  | [], s => (none, s)
  | o :: l, s =>
    let ((b, p), s1) := s.lndBytes canPort (s.canObj c o) 16
    let w0 := fieldAt b 0 4
    let w1 := fieldAt b 4 4
    let hit := !p && bitAt w0 31 && !bitAt w0 30 && (bitAt w1 31 == f.xtd)
      && decide (Nat.land (Nat.xor f.id.toNat (w1 % 2 ^ 29)) (fieldAt b 8 4 % 2 ^ 29) = 0)
    if hit then (some (o, bitAt w0 29, fieldAt b 12 4), s1) else State.canMatch c f l s1

/-- Enter a frame into the receive queue (R330). -/
def State.canQueue (s : State) (c : Nat) (b : List Byte) : State :=
  let x := s.canC c
  if (x.rxput + 2 ^ 32 - x.rxget) % 2 ^ 32 ≥ 64 then (s.canSticky Reg.CAN_STAT_RXLOST c 2).inc Reg.CAN_CNT_RXLOST c
  else
    let n := (x.rxput + 1) % 2 ^ 32
    let s1 := (s.setCan c { x with rxput := n }).canWrite c (0x200 + 80 * (x.rxput % 64)) b
    (s1.canWrite c 8 (leBytes 4 n)).canFlag c Reg.CAN_FLAG_RXFE Reg.CAN_FLAG_RXFLAG

/-- Store a frame in an object (R329): NEWDAT and OVWCNT stand in the word `w`. [DEDUCED, log 86] -/
def State.canStore (s : State) (c o w : Nat) (b : List Byte) : State :=
  let ovw := if bitAt w 31 then Nat.min 0xFFFF (w % 65536 + 1) else w % 65536
  let s1 := s.canWrite c (0x1800 + 96 * o + 0x10) b
  (s1.canWrite c (0x1800 + 96 * o + 12) (leBytes 4 (2 ^ 31 + w % 2 ^ 31 / 65536 * 65536 + ovw))).canFlag c
    Reg.CAN_FLAG_RXFE Reg.CAN_FLAG_RXFLAG

/-- REC after a successful reception (ISO 11898-1): one less, or a value from 119 to 127 where it stood above 127. [DEDUCED, log 84] -/
def State.canRecDown (s : State) (c : Nat) : State :=
  let x := s.canC c
  if x.rec_ ≤ 127 then s.canConfine c x.tec (x.rec_ - 1)
  else
    let (n, s1) := s.draw
    s1.canConfine c x.tec (119 + (Config.freeWord n).toNat % 9)

/-- CAN_FRAME_RECEIVE: a valid frame of another node, whose start lies `ago` ticks back (R333). [DESIGN CHOICE, log 85] -/
def execCanFrameReceive (c : Fin 4) (f : CanFrame) (ago : BitVec 32) (err : Int) (s : State) : Host.Outcome State Fault Refusal :=
  if (s.canC c).phase = 0 ∨ s.rd Reg.CAN_STAT_FCS c = 2 ∨ (f.fdf ∧ !s.bit Reg.CAN_CCFG_FDEN c) then .next s
  else
    let s1 := s.canRecDown c
    let b := canBytes f (s.canSof c ago.toNat err)
    match State.canMatch c f (upFrom 0 128) s1 with
    | (some (o, q, w), s2) => .next (if q then s2.canQueue c b else s2.canStore c o w b)
    | (none, s2) => .next (if s2.bit Reg.CAN_CCFG_ACCNM c then s2.canQueue c b else s2)

/-- CAN_RX_RELEASE: the consumer advanced RXGET. -/
def execCanRxRelease (c : Fin 4) (s : State) : Host.Outcome State Fault Refusal :=
  let x := s.canC c
  if x.phase = 0 then .next s
  else
    let ((get, p), s1) := s.lndWord canPort (s.canAt c + 12)
    .next (if p then s1 else s1.setCan c { x with rxget := get })

/-- Clear the counters (CAN_CTL.CLRCNT). -/
def State.canClrcnt (s : State) : State :=
  s.over (upFrom 0 4) fun c s => (s.wr Reg.CAN_CNT_RXLOST 0 c).wr Reg.CAN_CNT_BOFF 0 c
/-- CAN_CLRCNT. -/
def execCanClrcnt (s : State) : Host.Outcome State Fault Refusal := .next s.canClrcnt

end Sys2Proof.Machine
end

