-- ==== Sys2Proof/Machine/Dio.lean ====
section
/-! DEFINITION. The digital I/O lines (R453, R454). -/
namespace Sys2Proof.Machine

/-- Landing port of the converters and the lines (R24). -/
def cnvPort : Nat := 4

/-- The input latch of a ring at a sampling instant (R453): the bits of its lines change, the others stay. [DESIGN CHOICE, log 40] -/
def State.dioSample (s : State) (n : Nat) (ext : Nat) : State :=
  let s := ({ s with dio := { s.dio with ext := ext % 2 ^ 48 } }).showLines
  let mask := lineMask fun l => s.rd Reg.SYS_DIOCFG_RING l == n
  if mask = 0 ∨ s.replaying then s
  else
    let off := s.rd Reg.SYS_DIBASE_BASE * 8 + 8 * n
    let v := lineMask s.lineLevel
    let s1 := s.lndMerge32 cnvPort off mask v
    let s2 := s1.lndMerge32 cnvPort (off + 4) (mask / 2 ^ 32) (v / 2 ^ 32)
    let c := if off < lndSize then (s2.landing.decode (s2.lndCw off)).1 else Cw.lost
    State.reportCws (.hoist n (s2.ring n).now) 5 false off [c] s2

/-- The output slot of a ring at its seal (R453): a poisoned slot keeps the values. [DEDUCED, log 41 and 42] -/
def State.dioSeal (s : State) (n : Nat) : State :=
  if !(allLines.any fun l => s.bit Reg.SYS_DIOCFG_OUT l && s.rd Reg.SYS_DIOCFG_RING l == n) then s
  else
    let off := s.rd Reg.SYS_DOBASE_BASE * 8 + 8 * n
    let (c, s1) := s.lndRead cnvPort off 1
    let w := c.getD 0 Cw.lost
    let s2 := s1.report (.hoist n (s1.ring n).now) off 12 0 false w none
    if w.poison then
      let s3 := s2.wrB Reg.SYS_DIOSTAT_PSN true
      if s3.dio.bad.contains n then s3
      else ({ s3 with dio := { s3.dio with bad := setIns s3.dio.bad n } }).tallyOther 0 n (some 0x110)
    else { s2 with dio := { s2.dio with lat := tabPut 0 s2.dio.lat n (w.data.toNat % 2 ^ 48 + 1), bad := setDel s2.dio.bad n } }

/-- The output lines of a ring at an apply instant (R453). [DEDUCED, log 41] -/
def State.dioApply (s : State) (n : Nat) : State :=
  if !s.outOn n then s
  else
    match tabAt 0 s.dio.lat n with
    | 0 => s
    | v + 1 =>
      let nv := lineMask fun l =>
        if s.bit Reg.SYS_DIOCFG_OUT l && s.rd Reg.SYS_DIOCFG_RING l == n then bitAt v l else bitAt s.dio.val l
      ({ s with dio := { s.dio with val := nv } }).showLines

end Sys2Proof.Machine
end

