-- ==== Sys2Proof/Machine/Converters.lean ====
section
/-! DEFINITION. Analogue conversion (R137 to R155, R159, R160) and the DAC outputs (R156 to R158). -/
namespace Sys2Proof.Machine

/-- A converter. -/
def State.adc (s : State) (n : Nat) : AdcSt := tabAt {} s.cnv.adcs n
/-- Replace it. -/
def State.setAdc (s : State) (n : Nat) (x : AdcSt) : State := { s with cnv := { s.cnv with adcs := tabPut {} s.cnv.adcs n x } }
/-- An interleaved pair. -/
def State.ilPair (s : State) (p : Nat) : PairSt := tabAt {} s.cnv.pairs p
/-- Replace it. -/
def State.setIlPair (s : State) (p : Nat) (x : PairSt) : State := { s with cnv := { s.cnv with pairs := tabPut {} s.cnv.pairs p x } }

/-- Whether a result word written now carries REFERR: the reference disagrees (R149), or PG_ANA is low (R421). [DESIGN CHOICE, log 46] -/
def State.refOut (s : State) : Bool := !s.bit Reg.CNV_REFSTAT_REFOK || !s.bit Reg.PWR_STAT_PGANA

/-- A sticky bit of a converter: a bit that becomes set shows in the summary. -/
def State.adcSticky (s : State) (f : Field) (n : Nat) : State :=
  if s.bit f n then s else (s.wrB f true n).setSummary 6 Reg.CNV_EVSUM_ADC n

/-- A converter is the even one of a pair, or the odd one that a pair has taken (R151). -/
def State.isPair (s : State) (n : Nat) : Bool := decide (n % 2 = 0) && s.bit Reg.CNV_CFG_ILV n
def State.isTaken (s : State) (n : Nat) : Bool := decide (n % 2 = 1) && s.bit Reg.CNV_CFG_ILV (n - 1)

/-- Whether an entry names a channel the converter can take (R137). -/
def chanOk (n ch : Nat) : Bool := if ch < 64 then ch / 4 == n else decide (ch ≤ 71)

/-- Whether the configuration of a converter is valid (R137, R144, R151). -/
def State.adcValid (s : State) (n : Nat) : Bool :=
  let r := s.ringCfg (s.rd Reg.CNV_CFG_RING n)
  let c := s.rd Reg.CNV_CFG_AVG n + 1
  if s.isPair n then
    decide (s.rd Reg.CNV_ENT_CH n 0 < 64) && chanOk n (s.rd Reg.CNV_ENT_CH n 0) && decide (r.per % 4 = 0)
      && decide (c * 20 + 80 ≤ r.dlin)
  else
    let k := s.rd Reg.CNV_CFG_NENT n + 1
    ((upFrom 0 k).all fun j => chanOk n (s.rd Reg.CNV_ENT_CH n j))
      && decide (k * c * 40 + 80 ≤ r.dlin)

/-- Landing offset of an image slot (R142). -/
def State.slotAt (s : State) (n j : Nat) : Nat := s.rd Reg.CNV_IBASE_BASE * 1024 + 64 * n + 8 * j

/-- Result words (R142). -/
def resultWord (value : Int) (ch : Nat) (stale ovr ref ilv : Bool) : Nat :=
  uOf 18 value * 2 ^ 14 + ch % 128 * 2 ^ 7 + b2n stale * 2 ^ 6 + b2n ovr * 2 ^ 5 + b2n ref * 2 ^ 4 + b2n ilv * 2 ^ 3

/-- Entries that write slots: a pair has one. -/
def State.entries (s : State) (n : Nat) : Nat := if s.isPair n then 1 else s.rd Reg.CNV_CFG_NENT n + 1

/-- Write a slot, the whole codeword or the result word alone (R142, R143). -/
def State.slotWrite (s : State) (n j hnum : Nat) (scen : Bool) (word scaled : Nat) (poison : Bool) : State :=
  let b := leBytes 4 word ++ (if scen then leBytes 4 scaled else [])
  s.srcWriteBytes cnvPort 3 (.hoist (s.rd Reg.CNV_CFG_RING n) hnum) (s.slotAt n j) b poison

/-- Mark the slot of an entry STALE (R146): the rest of the codeword stays. [DEDUCED, log 47] -/
def State.slotStale (s : State) (n j hnum : Nat) (poison : Bool) : State :=
  let s1 := (s.adcSticky Reg.CNV_STAT_STALE n).inc Reg.CNV_CNT_STALECNT n
  if s1.replaying then s1
  else
    let off := s1.slotAt n j
    let (c, s2) := s1.lndRead cnvPort off 1
    let w := c.getD 0 Cw.lost
    s2.srcWrite cnvPort 3 (.hoist (s2.rd Reg.CNV_CFG_RING n) hnum) false off [⟨w.data ||| 64#64, w.poison || poison⟩]

/-- A pair begins: no sample has been taken, so WIDX is 0, and so is what R154 reserves. [DEDUCED, log 47] -/
def State.pairBegin (s : State) (p hnum : Nat) : State :=
  let base := s.rd Reg.CNV_ILBASE_BASE p * 32
  let st : RsStamp := .hoist (s.rd Reg.CNV_CFG_RING (2 * p)) hnum
  ((s.setIlPair p { run := true }).srcWriteBytes cnvPort 3 st base (leBytes 4 0)).srcWriteBytes cnvPort 3 st (base + 12) (List.replicate 20 0#8)

/-- The odd converter of a pair is taken: what it did on its own ends (R151), and it never powers down (R147). -/
def State.adcTake (s : State) (n : Nat) : State :=
  ((s.wrB Reg.CNV_STAT_RUN false n).wrB Reg.CNV_STAT_PWRDN false n).setAdc n {}

/-- Start a pair or a converter (R144, R145, R151). -/
def State.adcStart (s : State) (n : Nat) : State :=
  let hnum := (s.ring (s.rd Reg.CNV_CFG_RING n)).now
  let s1 := ((s.wrB Reg.CNV_CFG_EN true n).wrB Reg.CNV_STAT_CFGERR false n).wrB Reg.CNV_STAT_RUN true n
  let s2 := (s1.wrB Reg.CNV_STAT_PWRDN (!s1.bit Reg.CNV_CFG_PDDIS n && !s1.isPair n) n).setAdc n {}
  let s3 := if s2.isPair n then (s2.pairBegin (n / 2) hnum).adcTake (n + 1) else s2
  s3.over (upFrom 0 (s3.entries n)) fun j s =>
    s.slotWrite n j hnum (s.bit Reg.CNV_ENT_SCEN n j) (resultWord 0 (s.rd Reg.CNV_ENT_CH n j) true false false false) 0 false

/-- Stop a converter: EN was cleared. -/
def State.adcStop (s : State) (n : Nat) : State :=
  let s1 := ((s.wrB Reg.CNV_STAT_RUN false n).wrB Reg.CNV_STAT_PWRDN false n).setAdc n {}
  if n % 2 = 0 then s1.setIlPair (n / 2) {} else s1

/-- EN of a converter is written (R144): an invalid configuration is refused. The odd converter of a pair does not start. [DEDUCED, log 43] -/
def State.adcEnable (s : State) (n : Nat) (b : Bool) : State :=
  if b = s.bit Reg.CNV_CFG_EN n then s
  else if !b then (s.wrB Reg.CNV_CFG_EN false n).adcStop n
  else if s.isTaken n then s.wrB Reg.CNV_CFG_EN true n
  else if s.adcValid n then s.adcStart n
  else s.wrB Reg.CNV_STAT_CFGERR true n
/-- CONVERTER_ENABLE. -/
def execConverterEnable (n : Fin 16) (s : State) : Host.Outcome State Fault Refusal := .next (s.adcEnable n true)

/-- A register of a converter was written: CFGERR ends once the configuration is valid, PDDIS keeps the converter up. [DEDUCED, log 43] -/
def State.adcConfig (s : State) (n : Nat) : State :=
  let s1 := if s.bit Reg.CNV_STAT_CFGERR n && !s.bit Reg.CNV_CFG_EN n && s.adcValid n then s.wrB Reg.CNV_STAT_CFGERR false n else s
  if s1.bit Reg.CNV_CFG_PDDIS n then s1.wrB Reg.CNV_STAT_PWRDN false n else s1

/-- ILV of an even converter has changed (R151): a running converter becomes the pair, or is one no longer; the odd one is
taken, or on its own again from the next instant on. [DEDUCED, log 43] -/
def State.ilvChange (s : State) (n : Nat) : State :=
  let hnum := (s.ring (s.rd Reg.CNV_CFG_RING n)).now
  let s1 := s.setAdc n { s.adc n with todo := [] }
  if s1.isPair n then
    let s2 := s1.adcTake (n + 1)
    if s2.bit Reg.CNV_CFG_EN n then (s2.wrB Reg.CNV_STAT_PWRDN false n).pairBegin (n / 2) hnum else s2
  else s1.setIlPair (n / 2) {}

/-- A write to CNV_CFG: ILV of an odd converter is reserved (R151). -/
def State.adcCfgWrite (s : State) (n : Nat) (en : Bool) (write : State → State) : State :=
  let s1 := write s
  let s2 := if n % 2 = 1 then s1.wrB Reg.CNV_CFG_ILV false n else s1
  let s3 := if s2.bit Reg.CNV_CFG_ILV n = s.bit Reg.CNV_CFG_ILV n then s2 else s2.ilvChange n
  (s3.adcEnable n en).adcConfig n

/-- CONVERTER_WAKE: 400 ns before the next instant (R147). [DEDUCED, log 44] -/
def execConverterWake (n : Fin 16) (s : State) : Host.Outcome State Fault Refusal :=
  let r := s.ring (s.rd Reg.CNV_CFG_RING n)
  if s.bit Reg.CNV_STAT_PWRDN n && r.live && decide (s.T ≤ r.next) then
    .next ((s.advanceTo (r.next - 400)).wrB Reg.CNV_STAT_PWRDN false n)
  else .next s

/-! ### Sampling (R139, R146, R148, R152) -/

/-- Every entry of a converter is STALE for this hoist. -/
def State.adcAllStale (s : State) (n hnum : Nat) : State :=
  s.over (upFrom 0 (s.entries n)) fun j s => s.slotStale n j hnum false

/-- The entries as they stand at the instant. -/
def State.adcEnts (s : State) (n : Nat) : List AdcEnt :=
  (upFrom 0 (s.entries n)).map fun j =>
    ⟨s.rd Reg.CNV_ENT_CH n j, s.bit Reg.CNV_ENT_SCEN n j, s.rd Reg.CNV_SCL_SCALE n j, s.rd Reg.CNV_SOF_OFFSET n j⟩

/-- A pair takes no sample from here on (R152): those taken count. -/
def State.pairRest (s : State) (p : Nat) : State :=
  let x := s.ilPair p
  s.setIlPair p { x with kidx := x.kidx + x.count, count := 0 }

/-- A pair at a sampling instant (R152, R154): HNUM and KIDX name its sample. [DEDUCED, log 47] -/
def State.pairInstant (s : State) (p n : Nat) : State :=
  let x := s.ilPair p
  let r := s.ring n
  let k := if x.begun then (x.kidx + x.count) else 0
  let y : PairSt := { x with begun := true, kidx := k, tk := r.tk, count := r.perNs / 100 }
  (s.setIlPair p y).srcWriteBytes cnvPort 3 (.hoist n r.now) (s.rd Reg.CNV_ILBASE_BASE p * 32 + 4)
    (leBytes 4 r.now ++ leBytes 4 k)

/-- A converter at an instant of its ring: it converts, or marks its entries STALE. `asleep`: it is not ready at the firing edge (R148), which a
converter that never powers down (PDDIS, a pair; R147) always is. [DEDUCED, log 43 and 44] -/
def State.adcInstant (s : State) (n k : Nat) (sampled asleep : Bool) : State :=
  let hnum := (s.ring k).now
  let x := s.adc n
  if !s.adcValid n then
    let s1 := if (s.adc n).halted then s
      else (((s.setAdc n { x with halted := true, todo := [] }).wrB Reg.CNV_STAT_CFGERR true n).wrB Reg.CNV_STAT_RUN false n).tally 0x0601 n
    let s2 := s1.wrB Reg.CNV_STAT_PWRDN (!s1.bit Reg.CNV_CFG_PDDIS n && !s1.isPair n) n
    let s3 := if s2.isPair n then s2.pairRest (n / 2) else s2
    s3.adcAllStale n hnum
  else
    let s1 := ((s.setAdc n { s.adc n with halted := false }).wrB Reg.CNV_STAT_CFGERR false n).wrB Reg.CNV_STAT_RUN true n
    if !sampled then s1
    else if asleep && !s1.bit Reg.CNV_CFG_PDDIS n && !s1.isPair n then
      ((((s1.setAdc n { s1.adc n with todo := [] }).adcSticky Reg.CNV_STAT_WAKEERR n).tally 0x0602 n 0 hnum).adcAllStale n hnum)
    else
      let es := s1.adcEnts n
      let y : AdcSt := { ents := es, todo := upFrom 0 es.length, avg := s1.rd Reg.CNV_CFG_AVG n + 1, ring := k
                         tk := (s1.ring k).tk, hnum := hnum, refBad := s1.refOut, halted := false }
      let s2 := (s1.setAdc n y).wrB Reg.CNV_STAT_PWRDN false n
      if s2.isPair n then s2.pairInstant (n / 2) k else s2

/-- The converters of a ring at its instant; `asleep`: converters that did not wake in time (R148). -/
def State.cnvInstant (s : State) (k : Nat) (sampled : Bool) (asleep : Nat) : State :=
  s.over (upFrom 0 16) fun n s =>
    if s.bit Reg.CNV_CFG_EN n && s.rd Reg.CNV_CFG_RING n == k && !s.isTaken n then s.adcInstant n k sampled (bitAt asleep n) else s

/-- A ring that stops or idles leaves its converters without a next conversion (R147); a pair takes no sample. -/
def State.cnvIdle (s : State) (k : Nat) : State :=
  s.over (upFrom 0 16) fun n s =>
    if s.bit Reg.CNV_CFG_EN n && s.rd Reg.CNV_CFG_RING n == k && !s.isTaken n then
      if s.isPair n then s.pairRest (n / 2)
      else s.wrB Reg.CNV_STAT_PWRDN (!s.bit Reg.CNV_CFG_PDDIS n) n
    else s

/-! ### Results (R141 to R143, R153, R155) -/

/-- The correction of the odd converter of a pair (R153). -/
def State.ilCorrect (s : State) (p : Nat) (c : Int) : Int :=
  clampI (-131072) 131071 ((c * (1048576 + s.rdS Reg.CNV_ILGAIN_GAIN p) + s.rdS Reg.CNV_ILTRIM_OFS p * 65536 + 524288) / 1048576)

/-- Whether a code is at the end of the span (R141). -/
def codeOvr (c : Int) : Bool := decide (c = -131072) || decide (c = 131071)

/-- Codes of a pair, the first of them sample `i`: those the odd converter took are corrected. -/
def State.ilCodes (s : State) (p : Nat) : Nat → List Int → List Int
  | _, [] => []
  | i, c :: l => (if i % 2 = 1 then s.ilCorrect p c else c) :: s.ilCodes p (i + 1) l

/-- VALUE (R141): nearest, ties towards +∞. -/
def meanCode (sum : Int) (n : Nat) : Int := (2 * sum + n) / (2 * (n : Int))

/-- The scaled copy (R141). -/
def scaledCopy (scale offset : Nat) (sum : Int) (n : Nat) : Nat :=
  fma32 scale (to32 (div64 (fOfInt b64 .nearestEven sum).1 (fOfInt b64 .nearestEven (n : Int)).1)) offset

/-- The AFE as a locator (R16). -/
def afeLocator (n : Nat) : Nat := locator 4 1 16 n 0 0 0

/-- A transfer from the analogue die with bits in error (R159, R252): counted and logged as a read's (R253), with nothing to
write back; the flag says that it could not be corrected. [DEDUCED, log 137] -/
def State.afeTransfer (s : State) (n : Nat) (err : BitVec 80) : Bool × State :=
  match classify err with
  | .clean => (false, s)
  | .ce1 _ => (false, s.inc Reg.LND_ECNT1_CNT)
  | .ce2 _ _ => (false, ((s.inc Reg.LND_ECNT2_CNT).setSticky 8 Reg.LND_ESTAT_CE2).logErr 1 cnvPort (afeLocator n))
  | .ue => (true, ((s.inc Reg.LND_ECNTU_CNT).setSticky 8 Reg.LND_ESTAT_UE).logErr 2 cnvPort (afeLocator n))

/-- What a lost transfer leaves beside its image slot (R159). [DEDUCED, log 137] -/
def State.afeLost (s : State) (n : Nat) : State := (s.adcSticky Reg.CNV_STAT_PSN n).tallyLoc 0x0605 (afeLocator n)

/-- Power down after the last conversion when the next is more than 400 ticks away (R147). [DEDUCED, log 45] -/
def State.adcRest (s : State) (n : Nat) (x : AdcSt) : State :=
  if !s.isPair n && !s.bit Reg.CNV_CFG_PDDIS n && decide (400 + x.ents.length * x.avg * 40 < (s.ring x.ring).per * 25) then
    s.wrB Reg.CNV_STAT_PWRDN true n
  else s

/-- The result of one entry. [DEDUCED, log 45] -/
def State.adcResult (s : State) (n j : Nat) (codes : List Int) (ok : Bool) : State :=
  let x := s.adc n
  let e := x.ents.getD j ⟨0, false, 0, 0⟩
  let ovr := codes.any codeOvr
  let l := if s.isPair n then s.ilCodes (n / 2) (s.ilPair (n / 2)).kidx codes else codes
  let sum := l.foldl (· + ·) 0
  let s1 := s.setAdc n { x with todo := x.todo.drop 1, refBad := s.refOut }
  let s2 :=
    if ok then
      let s2 := s1.slotWrite n j x.hnum e.scen (resultWord (meanCode sum x.avg) e.ch false ovr x.refBad (s.isPair n))
        (scaledCopy e.scale e.offset sum x.avg) false
      let s3 := if ovr then (s2.adcSticky Reg.CNV_STAT_OVR n).inc Reg.CNV_CNT_OVRCNT n else s2
      if x.refBad then (s3.adcSticky Reg.CNV_STAT_REFERR n).wrB Reg.CNV_REFSTAT_REFERR true else s3
    else (s1.slotStale n j x.hnum true).afeLost n
  if x.todo.length = 1 then s2.adcRest n x else s2

/-- CONVERSION_RESULT: the last conversion of an entry has ended (R143, R155), with the codes it returned and the bits
in error of its transfer (R159). [DEDUCED, log 45] -/
def execConversionResult (n : Fin 16) (j : Fin 8) (codes : List (BitVec 18)) (err : BitVec 80) (s : State) :
    Host.Outcome State Fault Refusal :=
  let x := s.adc n
  if s.bit Reg.CNV_STAT_RUN n && x.todo.head? == some j.val && codes.length == x.avg then
    let end_ := if s.isPair n then x.tk + x.avg * 100 else x.tk + (j.val + 1) * x.avg * 200
    let (lost, s1) := (s.advanceTo end_).afeTransfer n err
    .next (s1.adcResult n j (codes.map fun (c : BitVec 18) => c.toInt) (!lost))
  else .next s

/-- REFERENCE_WINDOW: the references agree again, or no longer (R149). [DESIGN CHOICE, log 46] -/
def execReferenceWindow (agree : Bool) (s : State) : Host.Outcome State Fault Refusal :=
  if s.bit Reg.CNV_REFSTAT_REFOK = agree then .next s
  else
    let s1 := (s.wrB Reg.CNV_REFSTAT_REFOK agree).tally 0x0603 0 (b2n (!agree))
    if agree then .next s1
    else
      .next ((s1.wrB Reg.CNV_REFSTAT_REFERR true).over (upFrom 0 16) fun n s =>
        if (s.adc n).todo = [] then s else s.setAdc n { s.adc n with refBad := true })

/-- Words of a pair's buffer (R154). -/
def State.ilLen (s : State) (p : Nat) : Nat := 2 ^ (Nat.min 18 (max 8 (s.rd Reg.CNV_ILLEN_LOG2 p)))

/-- The result words of a burst; `lost`: its transfer could not be corrected (R159). [DEDUCED, log 137] -/
def State.ilWords (s : State) (p : Nat) (ref lost : Bool) (samples : List Int) : List Byte :=
  let ch := s.rd Reg.CNV_ENT_CH (2 * p) 0
  let l := s.ilCodes p (s.ilPair p).widx samples
  (samples.zip l).flatMap fun (c : Int × Int) => leBytes 4 (resultWord c.2 ch lost (codeOvr c.1) ref true)

/-- INTERLEAVE_BURST: 16 samples, then WIDX (R154); a burst is one transfer (R159). A burst whose last sample is not yet due in this period waits. [DEDUCED, log 47] -/
def execInterleaveBurst (p : Fin 8) (samples : List (BitVec 18)) (err : BitVec 80) (s0 : State) : Host.Outcome State Fault Refusal :=
  let x := s0.ilPair p
  let last := x.widx + 15
  if x.run && x.begun && samples.length == 16 && decide (last < x.kidx + x.count) then
    let (lost, s) := (if last < x.kidx then s0 else s0.advanceTo (x.tk + (last - x.kidx) * 100)).afeTransfer (2 * p) err
    let s1 := if lost then s.afeLost (2 * p) else s
    let ring := s1.rd Reg.CNV_CFG_RING (2 * p.val)
    let base := s1.rd Reg.CNV_ILBASE_BASE p * 32
    let st : RsStamp := .hoist ring (s1.ring ring).now
    let b := s1.ilWords p s1.refOut lost (samples.map fun (c : BitVec 18) => c.toInt)
    let s2 := s1.srcWriteBytes cnvPort 3 st (base + 32 + 4 * (x.widx % s1.ilLen p)) b lost
    let w := x.widx + 16
    let s3 := s2.srcWriteBytes cnvPort 3 st base (leBytes 4 w)
    .next (s3.setIlPair p { x with widx := w })
  else .next s0

/-- CNV_CLRCNT. -/
def State.cnvClrcnt (s : State) : State :=
  s.over (upFrom 0 16) fun n s => (s.wr Reg.CNV_CNT_STALECNT 0 n).wr Reg.CNV_CNT_OVRCNT 0 n
/-- CNV_CLRCNT. -/
def execCnvClrcnt (s : State) : Host.Outcome State Fault Refusal := .next s.cnvClrcnt

/-! ### DACs (R156 to R158) -/

/-- A DAC. -/
def State.dac (s : State) (d : Nat) : DacSt := tabAt {} s.cnv.dacs d
/-- Replace it. -/
def State.setDac (s : State) (d : Nat) (x : DacSt) : State := { s with cnv := { s.cnv with dacs := tabPut {} s.cnv.dacs d x } }

/-- A sticky bit of a DAC. -/
def State.dacSticky (s : State) (f : Field) (d : Nat) : State :=
  if s.bit f d then s else (s.wrB f true d).setSummary 6 Reg.CNV_EVSUM_DAC d

/-- The unclamped code of a slot (R156): `none` where it is not finite. [DEDUCED, log 48] -/
def State.dacCode (s : State) (d slot : Nat) : Option Int :=
  if s.bit Reg.CNV_DCFG_FMT d then some (sInt 16 slot)
  else
    let c := add64 (mul64 (to64 slot) (to64 (s.rd Reg.CNV_DSCL_DSCALE d))) (to64 (s.rd Reg.CNV_DOFS_DOFS d))
    if fIsFin b32 slot && fIsFin b64 c then some (fRoundScaled b64 c 0) else none

/-- One DAC at the seal of its ring (R156, R157). [DEDUCED, log 48] -/
def State.dacSeal1 (s : State) (n d : Nat) : State :=
  let off := s.rd Reg.CNV_DBASE_BASE * 64 + 4 * d
  let (c, s1) := s.lndRead cnvPort off 1
  let w := c.getD 0 Cw.lost
  let s2 := s1.report (.hoist n (s1.ring n).now) (off / 8 * 8) 12 0 false w none
  let x := s2.dac d
  if w.poison then
    let s3 := (s2.dacSticky Reg.CNV_DSTAT_PSN d).setDac d { x with psn := true }
    if x.psn then s3 else s3.tally 0x0604 d 1
  else
    match s2.dacCode d (bitsOf w.data.toNat (off % 8 * 8) 32) with
    | none =>
      let s3 := (s2.dacSticky Reg.CNV_DSTAT_NAN d).setDac d { x with nan := true }
      if x.nan then s3 else s3.tally 0x0604 d 2
    | some v =>
      let k := clampI (-32768) 32767 v
      let s3 := if k = v then s2 else s2.dacSticky Reg.CNV_DSTAT_CLIP d
      s3.setDac d { code := some k }

/-- The DACs of a ring at its seal. -/
def State.dacSeal (s : State) (n : Nat) : State :=
  s.over (upFrom 0 16) fun d s => if s.bit Reg.CNV_DCFG_EN d && s.rd Reg.CNV_DCFG_RING d == n then s.dacSeal1 n d else s

/-- The DACs of a ring at an apply instant (R157, R158). [DEDUCED, log 48] -/
def State.dacApply (s : State) (n : Nat) : State :=
  if !s.outOn n then s
  else
    s.over (upFrom 0 16) fun d s =>
      if s.bit Reg.CNV_DCFG_EN d && s.rd Reg.CNV_DCFG_RING d == n then
        match (s.dac d).code with
        | some c => s.wrS Reg.CNV_DSTAT_CODE c d
        | none => s
      else s

/-- EN of a DAC is written: the stage starts without a latched code, or keeps its last applied code (R158). -/
def State.dacEnable (s : State) (d : Nat) (b : Bool) : State :=
  if b = s.bit Reg.CNV_DCFG_EN d then s else (s.wrB Reg.CNV_DCFG_EN b d).setDac d {}

/-- What events P, B, W and S leave of converters, DACs and lines beside their registers (R160). -/
def State.cnvClear (s : State) : State := { s with cnv := {}, dio := { s.dio with val := 0, lat := [], bad := [] } }

end Sys2Proof.Machine
end

