-- ==== Sys2Proof/Machine/Compare.lean ====
section
/-! DEFINITION. Compare and capture units (R109 to R113, R454). -/
namespace Sys2Proof.Machine

/-- A feedback channel. -/
def State.fb (s : State) (c : Nat) : FbSt := tabAt {} s.fbk.chans c
/-- Replace it. -/
def State.setFb (s : State) (c : Nat) (x : FbSt) : State := { s with fbk := { s.fbk with chans := tabPut {} s.fbk.chans c x } }
/-- An emulation stage. -/
def State.emu (s : State) (e : Nat) : EmuSt := tabAt {} s.fbk.emus e
/-- Replace it. -/
def State.setEmu (s : State) (e : Nat) (x : EmuSt) : State := { s with fbk := { s.fbk with emus := tabPut {} s.fbk.emus e x } }

/-- The emitted count at a CLK_TB edge (R134): the counts of a period are spread evenly over it. [DEDUCED, log 39] -/
def EmuSt.count (x : EmuSt) (edge : Nat) : Int :=
  if x.span = 0 then x.c
  else
    let k := x.sched.natAbs * Nat.min (edge - x.start) x.span / x.span
    if x.sched < 0 then x.c - k else x.c + k

/-- The CLK_TB edge at which the emitted count of the present period is `c`. -/
def EmuSt.edgeOf (x : EmuSt) (c : Int) : Nat :=
  let n := x.sched.natAbs
  if n = 0 then x.start else x.start + ((c - x.c).natAbs * x.span + n - 1) / n

/-- A unit. -/
def State.cc (s : State) (u : Nat) : CcSt := tabAt {} s.axs.units u
/-- Replace it. -/
def State.setCc (s : State) (u : Nat) (x : CcSt) : State := { s with axs := { s.axs with units := tabPut {} s.axs.units u x } }
/-- Landing offset of a unit's block (R109). -/
def State.ccAt (s : State) (u : Nat) : Nat := s.rd Reg.AXS_CCBASE_BASE * 65536 + 1024 * u

/-- The present position of a unit's source, units of 2^−16 count. -/
def State.ccSource (s : State) (u : Nat) : Option Int :=
  let k := s.rd Reg.AXS_CCCFG_SRCK u
  let n := s.rd Reg.AXS_CCCFG_SRCN u
  if k = 0 ∧ n < 24 then some (s.fb n).pos
  else if k = 1 ∧ n < 8 then some (((s.emu n).count s.time.edge) * 65536)
  else none

/-- Compare entries pending. -/
def CcSt.level (x : CcSt) : Nat := (x.cput + 2 ^ 32 - x.cget) % 2 ^ 32
/-- Captures held. -/
def CcSt.kept (x : CcSt) : Nat := (x.kput + 2 ^ 32 - x.kget) % 2 ^ 32

/-- CLEVEL follows the queue. [DEDUCED, log 32] -/
def State.ccLevel (s : State) (u : Nat) : State := s.wr Reg.AXS_CCSTAT_CLEVEL (Nat.min 16 (s.cc u).level) u

/-- Write bytes of a unit's block as source CAP with a tick stamp (R404). -/
def State.ccWrite (s : State) (u off : Nat) (l : List Byte) : State :=
  s.srcWriteBytes axsPort 8 (.tick s.dtick) (s.ccAt u + off) l

/-- The head entry leaves the queue: CGET counts on. -/
def State.ccPop (s : State) (u : Nat) : State :=
  let x := s.cc u
  let g := (x.cget + 1) % 2 ^ 32
  ((s.setCc u { x with cget := g, judged := false, passedNext := false }).ccWrite u 4 (leBytes 4 g)).ccLevel u

/-- A compare entry. -/
structure CcEntry where
  pos : Int
  tag : Nat
  event : Bool
  firePassed : Bool
  dir : Nat
deriving DecidableEq, Repr

/-- Read the head entry: `none` if it is poisoned. [DEDUCED, log 32] -/
def State.ccHead (s : State) (u : Nat) : Option CcEntry × State :=
  let (d, s1) := s.lndRead axsPort (s.ccAt u + 0x20 + 16 * ((s.cc u).cget % 16)) 2
  if anyPoison d then (none, s1)
  else
    let c := loOf d 1
    (some ⟨sInt 64 (d.getD 0 Cw.lost).data.toNat, bitsOf c 16 16, bitAt c 4, bitAt c 2, bitsOf c 0 2⟩, s1)

/-- The sample pair crosses the entry in its direction (R111). The reserved direction crosses never. [DEDUCED, log 32] -/
def CcSt.crosses (x : CcSt) (e : CcEntry) : Bool :=
  let rise := decide (x.prev < e.pos) && decide (e.pos ≤ x.cur)
  let fall := decide (e.pos < x.prev) && decide (x.cur ≤ e.pos)
  match e.dir with
  | 0 => rise
  | 1 => fall
  | 2 => rise || fall
  | _ => false

/-- The pulse of a firing at CLK_TB edge `t` (R112, R454). -/
def State.ccPulse (s : State) (u t : Nat) : State :=
  let line := s.rd Reg.AXS_CCCFG_OUTLINE u
  let w := s.rd Reg.AXS_CCCFG_PULSE u
  if !s.bit Reg.AXS_CCCFG_OUTEN u || decide (47 < line) then s
  else if !s.bit Reg.SYS_DIOCFG_OUT line then s.setSticky 4 Reg.AXS_CCSTAT_NOOUT u
  else if w = 0 then s
  else
    let x := s.cc u
    let s1 := match x.pulse with
      | some e => if t < e then s.setSticky 4 Reg.AXS_CCSTAT_RETRIG u else s
      | none => s
    s1.setCc u { s1.cc u with pulse := some (t + w) }

/-- Fire the head entry (R111, R112), at the edge of the sample that crosses it or, after another firing, one edge later. -/
def State.ccFire (s : State) (u : Nat) (e : CcEntry) : State :=
  let x := s.cc u
  let t := max x.smpAt (x.firedAt + 1)
  let s1 := ((s.setCc u { x with firedAt := t }).ccPulse u t).wr Reg.AXS_CCCNT_FIRES (s.rd Reg.AXS_CCCNT_FIRES u + 1) u
  let s2 := if e.event && s1.bit Reg.AXS_CCEV_FEV u then
      s1.flagSet 3 u (s1.rd Reg.AXS_CCEV_TASK u) (2 ^ s1.rd Reg.AXS_CCEV_FLAG u) else s1
  s2.ccPop u

/-- A new head: tested against the present pair first, then for the passed side (R111, BEHIND). The flag says that it
fired or was discarded, so that the next head is to be judged. -/
def State.ccJudge1 (s : State) (u : Nat) : Bool × State :=
  let x := s.cc u
  if x.judged || decide (x.level = 0) || !x.seen then (false, s)
  else
    match s.ccHead u with
    | (none, s1) => (true, (s1.setSticky 4 Reg.AXS_CCSTAT_POISON u).ccPop u)
    | (some e, s1) =>
      let passed := (decide (e.dir = 0) && decide (e.pos ≤ x.cur)) || (decide (e.dir = 1) && decide (x.cur ≤ e.pos))
      let s2 := s1.setCc u { x with judged := true, passedNext := passed && e.firePassed && !x.crosses e }
      if x.crosses e then (true, s2.ccFire u e)
      else if passed && !e.firePassed then (false, s2.setSticky 4 Reg.AXS_CCSTAT_BEHIND u)
      else (false, s2)

/-- Judge new heads until one stays. [DEDUCED, log 33] -/
def State.ccJudge (u : Nat) : Nat → State → State
  | 0, s => s
  | k + 1, s => let (again, s1) := s.ccJudge1 u; if again then State.ccJudge u k s1 else s1

/-- The head of a unit at a source sample (R111). -/
def State.ccTest (s : State) (u : Nat) : State :=
  let x := s.cc u
  if x.level = 0 ∨ !x.judged then s
  else
    match s.ccHead u with
    | (none, s1) => (s1.setSticky 4 Reg.AXS_CCSTAT_POISON u).ccPop u
    | (some e, s1) =>
      if x.passedNext then (s1.setSticky 4 Reg.AXS_CCSTAT_PASSED u).ccFire u e
      else if x.crosses e then s1.ccFire u e
      else s1

/-- A new sample of a unit's source. -/
def State.ccSample (s : State) (u : Nat) (p : Int) : State :=
  let x := s.cc u
  let x1 := { x with prev := if x.seen then x.cur else p, cur := p, seen := true, smpAt := s.time.edge }
  State.ccJudge u 17 ((s.setCc u x1).ccTest u)

/-- CLK_TB edges between two samples of a unit's source: 20 MS/s in the SINCOS modes (R118), every edge otherwise. -/
def State.ccStep (s : State) (u : Nat) : Nat :=
  if s.rd Reg.AXS_CCCFG_SRCK u = 0 ∧ s.rd Reg.FBK_CFG_MODE (s.rd Reg.AXS_CCCFG_SRCN u) % 2 = 1 then 10 else 1

/-- A source that has not moved since its newest sample has been sampled again: the pair stands at its position. [DEDUCED, log 33] -/
def State.ccStand (s : State) (u : Nat) : State :=
  let x := s.cc u
  if x.seen && decide (x.smpAt + s.ccStep u ≤ s.time.edge) then s.setCc u { x with prev := x.cur, smpAt := s.time.edge } else s

/-- The position that the emitted count of a stage, on its way from `x.cur` to `now`, must reach for something to happen to
the head: the first edge for an entry that fires though passed, the edge that crosses the entry, else the end of the way. -/
def CcSt.nextEdge (x : CcSt) (now : Int) (head : Option CcEntry) : Int :=
  let unit : Int := if x.cur < now then 65536 else -65536
  match head with
  | none => now
  | some e =>
    if x.passedNext then x.cur + unit
    else if x.cur < now ∧ e.dir ≠ 1 ∧ e.dir ≠ 3 ∧ x.cur < e.pos ∧ e.pos ≤ now then (e.pos + 65535) / 65536 * 65536
    else if now < x.cur ∧ e.dir ≠ 0 ∧ e.dir ≠ 3 ∧ e.pos < x.cur ∧ now ≤ e.pos then e.pos / 65536 * 65536
    else now

/-- A unit on an emulation stage sees every edge emitted until now (R136): the edges between two at which something happens
to its head are passed over at once. [DEDUCED, log 33] -/
def State.ccChase (u : Nat) : Nat → State → State
  | 0, s => s
  | k + 1, s =>
    let x := s.cc u
    let m := s.emu (s.rd Reg.AXS_CCCFG_SRCN u)
    let now := m.count s.time.edge * 65536
    if s.rd Reg.AXS_CCCFG_SRCK u ≠ 1 ∨ 7 < s.rd Reg.AXS_CCCFG_SRCN u ∨ !x.seen ∨ x.cur = now then s
    else
      let (h, s1) := if x.level = 0 ∨ !x.judged then (none, s) else s.ccHead u
      let p := x.nextEdge now h
      let unit : Int := if x.cur < now then 65536 else -65536
      let x1 := { x with prev := p - unit, cur := p, smpAt := Nat.min s.time.edge (m.edgeOf (p / 65536)) }
      State.ccChase u k (State.ccJudge u 17 ((s1.setCc u x1).ccTest u))

/-- The unit is up to date with its source. [DEDUCED, log 33] -/
def State.ccFollow (s : State) (u : Nat) : State := (State.ccChase u 40 s).ccStand u

/-- The units that watch a source. -/
def State.ccWatchers (s : State) (k n : Nat) : List Nat :=
  (upFrom 0 64).filter fun u => s.bit Reg.AXS_CCCFG_EN u && s.rd Reg.AXS_CCCFG_SRCK u == k && s.rd Reg.AXS_CCCFG_SRCN u == n

/-- A source has a new sample. [DEDUCED, log 33 and 50] -/
def State.ccNotify (s : State) (k n : Nat) (p : Int) : State := s.over (s.ccWatchers k n) fun u s => s.ccSample u p

/-- COMPARE_ENQUEUE: the unit sees a change of CPUT (R110); what its source did before concerns the entries before. -/
def execCompareEnqueue (u : Fin 64) (s0 : State) : Host.Outcome State Fault Refusal :=
  if !s0.bit Reg.AXS_CCCFG_EN u then .next s0
  else
    let s := s0.ccFollow u
    let ((p, bad), s1) := s.lndWord axsPort (s.ccAt u)
    if bad then .next (s1.setSticky 4 Reg.AXS_CCSTAT_POISON u)
    else
      let x := s1.cc u
      let x1 := { x with cput := p }
      if 16 < x1.level then
        let s2 := s1.setCc u { x1 with cget := p, judged := false, passedNext := false }
        .next ((((s2.ccWrite u 4 (leBytes 4 p)).setSticky 4 Reg.AXS_CCSTAT_QOVF u).tally 0x0401 u).ccLevel u)
      else
        let s2 := (s1.setCc u x1).ccLevel u
        let s3 := match s2.ccSource u with
          | some q => if x1.seen then s2 else s2.ccSample u q
          | none => s2
        .next (State.ccJudge u 17 s3)

/-- CAPTURE_RELEASE: the unit sees a change of KGET (R110). -/
def execCaptureRelease (u : Fin 64) (s : State) : Host.Outcome State Fault Refusal :=
  let ((k, bad), s1) := s.lndWord axsPort (s.ccAt u + 12)
  if bad then .next (s1.setSticky 4 Reg.AXS_CCSTAT_POISON u) else .next (s1.setCc u { s1.cc u with kget := k })

/-- COMPARE_FIRE: the unit samples its source; the head fires if it is crossed (R111). -/
def execCompareFire (u : Fin 64) (s : State) : Host.Outcome State Fault Refusal :=
  if !s.bit Reg.AXS_CCCFG_EN u then .next s
  else
    match s.ccSource u with
    | some q => .next (if s.rd Reg.AXS_CCCFG_SRCK u = 0 ∨ !(s.cc u).seen then s.ccSample u q else s.ccFollow u)
    | none => .next s

/-- PULSE_END: the line returns to its ring value or safe level (R112, R454), unless a firing has restarted the pulse. -/
def execPulseEnd (u : Fin 64) (s : State) : Host.Outcome State Fault Refusal :=
  match (s.cc u).pulse with
  | some e =>
    let s1 := (s.advanceEdge e).ccFollow u
    .next (if (s1.cc u).pulse = some e then s1.setCc u { s1.cc u with pulse := none } else s1)
  | none => .next s

/-- CAPTURE_EDGE: the raw line goes to `level`; an edge of the chosen kind latches position and HTIME, and a level that did
not stay discards the latch (R112). -/
def execCaptureEdge (u : Fin 64) (level : Bool) (s : State) : Host.Outcome State Fault Refusal :=
  if !s.bit Reg.AXS_CCCFG_EN u || !s.bit Reg.AXS_CCCAP_CAPEN u then .next s
  else
    let k := s.rd Reg.AXS_CCCAP_EDGE u
    let wanted := (k == 0 && level) || (k == 1 && !level) || k == 2
    let x := s.cc u
    match s.ccSource u with
    | some q => .next (s.setCc u { x with cap := if wanted then some (q, s.htime, s.time.edge) else none })
    | none => .next (s.setCc u { x with cap := none })

/-- CAPTURE_CONFIRM: the level has stood for FILT ticks (R112). -/
def execCaptureConfirm (u : Fin 64) (s : State) : Host.Outcome State Fault Refusal :=
  match (s.cc u).cap with
  | none => .next s
  | some (q, ht, e) =>
    let s1 := s.advanceEdge (e + s.rd Reg.AXS_CCCAP_FILT u)
    let x := s1.cc u
    let s2 := s1.setCc u { x with cap := none }
    if 16 ≤ x.kept then .next ((s2.setSticky 4 Reg.AXS_CCSTAT_KOVF u).inc Reg.AXS_CCCNT_KLOST u)
    else
      let s3 := s2.ccWrite u (0x120 + 16 * (x.kput % 16)) (leBytes 8 (uOf 64 q) ++ leBytes 8 ht)
      let k := (x.kput + 1) % 2 ^ 32
      let s4 := (s3.setCc u { s3.cc u with kput := k }).ccWrite u 8 (leBytes 4 k)
      .next (if s4.bit Reg.AXS_CCEV_KEV u then s4.flagSet 3 u (s4.rd Reg.AXS_CCEV_TASK u) (2 ^ s4.rd Reg.AXS_CCEV_FLAG u) else s4)

/-- A unit is switched on or off: on, it reads its four counters and takes a first sample. -/
def State.ccEnable (s : State) (u : Nat) (b : Bool) : State :=
  if b then
    if s.bit Reg.AXS_CCCFG_EN u then s
    else
      let ((d, _), s1) := (s.wrB Reg.AXS_CCCFG_EN true u).lndBytes axsPort (s.ccAt u) 16
      let x : CcSt := { cput := wordAt d 0, cget := wordAt d 4, kput := wordAt d 8, kget := wordAt d 12 }
      let s2 := (s1.setCc u x).ccLevel u
      match s2.ccSource u with
      | some q => s2.ccSample u q
      | none => s2
  else (s.wrB Reg.AXS_CCCFG_EN false u).setCc u {}

/-- A write to AXS_CCBASE. -/
def State.ccBase (s : State) (v : Nat) : State :=
  if (upFrom 0 64).any (fun u => s.bit Reg.AXS_CCCFG_EN u) then s else s.wr Reg.AXS_CCBASE_BASE (v / 65536)

end Sys2Proof.Machine
end

