-- ==== Sys2Proof/Machine/Feedback.lean ====
section
/-! DEFINITION. Position feedback (R114 to R132): decoders, SSI, Z marks, observer, records. -/
namespace Sys2Proof.Machine

/-! ### Settings -/

def fmInc : Nat := 0
def fmSincos : Nat := 1
def fmSsi : Nat := 2
def fmBoth : Nat := 3

/-- Mode of a channel. -/
def State.fbMode (s : State) (c : Nat) : Nat := s.rd Reg.FBK_CFG_MODE c
/-- CSH held to 2 to 16. -/
def State.fbCsh (s : State) (c : Nat) : Nat := Nat.min 16 (max 2 (s.rd Reg.FBK_CFG_CSH c))
/-- B in units of 10 Hz, held to 5 to 800. -/
def State.fbBw (s : State) (c : Nat) : Nat := Nat.min 800 (max 5 (s.rd Reg.FBK_CFG_BW c))
/-- 4/B in CLK_TB edges. -/
def State.fbFour (s : State) (c : Nat) : Nat := 80000000 / s.fbBw c
/-- The standstill timeout in CLK_TB edges (R125). -/
def State.fbStill (s : State) (c : Nat) : Nat := max 1 (s.rd Reg.FBK_STILL_STILLT c) * 10 * edgesPerUs
/-- The standstill quantum in units of 2^−16 count (R125). -/
def State.fbQuantum (s : State) (c : Nat) : Nat :=
  if s.fbMode c = fmInc ∨ s.fbMode c = fmSsi then 65536 else max 1 (s.rd Reg.FBK_STILL_STILLQ c)

/-- Duration of an SSI frame in nanoseconds (R120). -/
def State.ssiTime (s : State) (c : Nat) : Nat :=
  let clocks := s.rd Reg.FBK_SSI_BITS c + b2n (s.bit Reg.FBK_SSI_ERRB c) + b2n (decide (s.rd Reg.FBK_SSI_PAR c ≠ 0)) + 1
  clocks * 10 * (max 9 (s.rd Reg.FBK_SSI_CLKDIV c) + 1)

/-- Whether a channel starts an SSI frame at every instant. -/
def State.ssiEach (s : State) (c : Nat) : Bool :=
  decide (s.fbMode c = fmSsi) || (decide (s.fbMode c = fmBoth) && s.bit Reg.FBK_SSI2_XCHK c)

/-- The period of a ring in nanoseconds, in use or as configured. -/
def State.ringPer (s : State) (n : Nat) : Nat := if (s.ring n).live then (s.ring n).perNs else (s.ringShadow n).perNs

/-- Whether a channel's configuration is invalid (R115, R120). -/
def State.fbInvalid (s : State) (c : Nat) : Bool :=
  let m := s.fbMode c
  let ssi := decide (m = fmSsi) || decide (m = fmBoth)
  let b := s.rd Reg.FBK_SSI_BITS c
  decide (3 < m) || (ssi && (decide (s.rd Reg.FBK_SSI_PAR c = 3) || decide (b < 8) || decide (48 < b)))
    || (s.ssiEach c && decide (s.ringPer (s.rd Reg.FBK_CFG_RING c) < s.ssiTime c + 1000 * max 1 (s.rd Reg.FBK_SSI_MONO c)))

/-- A write to a channel's configuration: CFGERR follows, the channel starts when it is enabled and valid, and stops
without EN. [DEDUCED, log 38] -/
def State.fbConfig (s : State) (c : Nat) : State :=
  let bad := s.fbInvalid c
  let s1 := s.wrB Reg.FBK_STAT_CFGERR bad c
  let x := s1.fb c
  if !s1.bit Reg.FBK_CFG_EN c then (if x.run then s1.setFb c {} else s1)
  else if x.run || bad then s1
  else s1.setFb c { run := true, lastChange := s1.time.edge, want := decide (s1.fbMode c = fmBoth) }

/-! ### Validity and sticky flags -/

/-- STAT bits. -/
def fbPosOk : Nat := 31
def fbVelOk : Nat := 30
def fbLate : Nat := 28
def fbRefOk : Nat := 27
def fbOverrate : Nat := 20
def fbLine : Nat := 19
def fbPhase : Nat := 18
def fbSsiErr : Nat := 17
def fbMismatch : Nat := 16
def fbZErr : Nat := 15
def fbStatePsn : Nat := 14

/-- POSOK of a decoder as it stands (R117 to R121). -/
def FbSt.posok (x : FbSt) (mode : Nat) : Bool :=
  x.run && !x.line && !x.ampFlt && !x.badNow && (decide (mode ≠ fmSsi) || x.ssi.isSome)
    && (decide (mode ≠ fmBoth) || x.loaded) && ((decide (mode ≠ fmSincos) && decide (mode ≠ fmBoth)) || x.pseen)

/-- Note an event of the interval. -/
def FbSt.note (x : FbSt) (b : Nat) : FbSt := { x with seen := Nat.lor x.seen (2 ^ b) }

/-- REFOK is lost. -/
def FbSt.unref (x : FbSt) : FbSt := { x with refok := false }

/-- The position is referenced: not while LINE stands (R117), nor before the period count is set (R115). -/
def FbSt.reref (x : FbSt) (mode : Nat) : FbSt := { x with refok := !x.line && (decide (mode ≠ fmBoth) || x.loaded) }

/-- The position is not valid: the observer stops (R129). -/
def FbSt.halt (x : FbSt) : FbSt := { x with obs := {} }

/-- A fault has ended in SINCOS+SSI: the period count is to be read again (R121). [DEDUCED, log 38] -/
def State.fbReload (s : State) (c : Nat) : State :=
  if s.fbMode c = fmBoth then s.setFb c { s.fb c with want := true, loaded := false, refok := false, obs := {} } else s

/-! ### Count changes (R117, R118, R125 to R127) -/

/-- The decoded position has moved: DIR, REVERSAL, and the end of a standstill. -/
def State.fbMoved (s : State) (c : Nat) : State :=
  let x := s.fb c
  let d := x.pos - x.stillAt
  let s1 := if d.natAbs < s.fbQuantum c then s
    else
      let neg := decide (d < 0)
      let flip := neg != x.dir
      let x1 := { x with
        dir := neg, lastChange := s.time.edge, stillAt := x.pos
        reversal := if flip then some (s.time.edge + s.fbFour c) else x.reversal }
      let x2 := if x1.standstill then
          { x1 with standstill := false, settle := some (s.time.edge + s.fbFour c)
                    obs := { x1.obs with thi := x.stillAt, thr := 0, v := 0, a := 0 } }
        else x1
      s.setFb c x2
  s1.ccNotify 0 c (s1.fb c).pos

/-- An accepted quadrature state (R117). A leading B counts up. [DEDUCED, log 34] -/
def State.fbQuad (s : State) (c : Nat) (a b : Bool) : State :=
  let x := s.fb c
  if !x.qseen then s.setFb c { x with qa := a, qb := b, qseen := true }
  else if a = x.qa ∧ b = x.qb then s
  else
    let fast := match x.lastEdge with | some e => decide (s.time.edge < e + 8) | none => false
    let x0 := { x with qa := a, qb := b, lastEdge := some s.time.edge }
    let x1 := if fast then { (x0.note fbOverrate).unref.halt with badNow := true } else x0
    if a ≠ x.qa ∧ b ≠ x.qb then
      (s.setFb c (x1.note fbPhase).unref).inc Reg.FBK_ERRCNT_PHASE c
    else
      -- 00, 10, 11, 01 is upward
      let up := if a ≠ x.qa then a != b else a == b
      let step : Int := if up != s.bit Reg.FBK_CFG_INV c then 65536 else -65536
      (s.setFb c { x1 with pos := sInt 64 (uOf 64 (x1.pos + step)) }).fbMoved c

/-- 2^100 and π × 2^100. -/
def fixOne : Nat := 2 ^ 100
def fixPi : Nat := 3982441812995697363688351113952

/-- The Taylor terms of atan for a small argument in units of 2^−100. -/
def atanSeries (t2 : Int) : Nat → Int → Int → Int
  | 0, _, _ => 0
  | k + 1, p, d => p / d + atanSeries t2 k (-(p * t2 / (fixOne : Int))) (d + 2)

/-- Halve the angle of a tangent in units of 2^−100. -/
def tanHalf (t : Nat) : Nat := t * fixOne / (fixOne + isqrt (fixOne * fixOne + t * t))

/-- atan(n/d) in units of 2^−100, for n ≤ d. [DESIGN CHOICE, log 35] -/
def atanFix (n d : Nat) : Nat :=
  let t := tanHalf (tanHalf (tanHalf (tanHalf (n * fixOne / d))))
  (16 * (atanSeries ((t : Int) * t / (fixOne : Int)) 16 t 1)).toNat

/-- atan2 in units of 2^−16 turn, rounded down, modulo 2^16 (R118). [DESIGN CHOICE, log 35] -/
def phase16 (y x : Int) : Nat :=
  let ay := y.natAbs
  let ax := x.natAbs
  let n := Nat.min ay ax
  let d := max ay ax
  if d = 0 then 0
  else
    -- the angle to the nearest axis, times 2^60
    let e : Nat := if n = 0 then 0 else if n = d then 8192 * 2 ^ 60 else atanFix n d * 2 ^ 75 / fixPi
    let q : Int := if ay ≤ ax then e else 16384 * 2 ^ 60 - e
    let h : Int := if 0 ≤ x then q else 32768 * 2 ^ 60 - q
    let f : Int := if 0 ≤ y then h else -h
    ((f / 2 ^ 60) % 65536).toNat

/-- Sine and cosine after trim, in units of 2^−15 µV (R118). -/
def State.fbTrim (s : State) (c : Nat) (sn cs : Int) : Int × Int :=
  ((sn - s.rdS Reg.FBK_TRIM_OFSS c * 500) * 32768, (cs - s.rdS Reg.FBK_TRIM_OFSC c * 500) * s.rd Reg.FBK_TRIM_GAINC c)

/-- The amplitude measure in units of 1/4,096 (R119). [DESIGN CHOICE, log 35] -/
def ampOf (y x : Int) : Nat := Nat.min 65535 (((y * y + x * x) * 4096).natAbs / (500000 * 32768) ^ 2)

/-- Set or clear AMPWARN: the interval held it either way (R114). -/
def State.ampWarn (s : State) (c : Nat) (b : Bool) : State :=
  let x := s.fb c
  s.setFb c ({ x with ampWarn := b, warnRun := 0 }.note 22)

/-- Set or clear AMPFLT (R119, R121). -/
def State.ampFault (s : State) (c : Nat) (b : Bool) : State :=
  let x := s.fb c
  if b then s.setFb c (({ x with ampFlt := true, fltRun := 0, refok := false }.note 21).halt)
  else (s.setFb c ({ x with ampFlt := false, fltRun := 0 }.note 21)).fbReload c

/-- Whether a measure lies outside the warning or the fault window. -/
def State.outWarn (s : State) (c m : Nat) : Bool := decide (m < s.rd Reg.FBK_AMPW_WLO c) || decide (s.rd Reg.FBK_AMPW_WHI c < m)
def State.outFault (s : State) (c m : Nat) : Bool := decide (m < s.rd Reg.FBK_AMPF_FLO c) || decide (s.rd Reg.FBK_AMPF_FHI c < m)

/-- The amplitude of a sample counts towards AMPWARN and AMPFLT (R119). -/
def State.fbAmp (s : State) (c m : Nat) : State :=
  let x := s.fb c
  let w := if s.outWarn c m != x.ampWarn then x.warnRun + 1 else 0
  let f := if s.outFault c m != x.ampFlt then x.fltRun + 1 else 0
  let s1 := s.setFb c { x with amp := m, warnRun := w, fltRun := f }
  let s2 := if max 1 (s.rd Reg.FBK_AMPC_WCNT c) ≤ w then s1.ampWarn c (!x.ampWarn) else s1
  if max 1 (s.rd Reg.FBK_AMPC_FCNT c) ≤ f then s2.ampFault c (!x.ampFlt) else s2

/-- A SINCOS sample (R118, R119), in microvolts. [DESIGN CHOICE, log 35] -/
def State.fbSincos (s : State) (c : Nat) (sn cs : Int) : State :=
  let (y, x_) := s.fbTrim c sn cs
  let s1 := s.fbAmp c (ampOf y x_)
  let x := s1.fb c
  let ph := phase16 y x_
  let d : Int := (ph : Int) - x.phi
  let wrap : Int := if d < -32768 then 1 else if 32768 ≤ d then -1 else 0
  let step := d + wrap * 65536
  let overrate := x.pseen && decide (16384 < step.natAbs)
  let per := if x.pseen && !x.ampFlt then x.per + wrap else x.per
  let pos := sInt 64 (uOf 64 ((per * 65536 + ph) * 2 ^ s.fbCsh c))
  let x1 := { x with phi := ph, per := per, pseen := true, pos := pos }
  let x2 := if overrate then { (x1.note fbOverrate).unref.halt with badNow := true } else x1
  let s2 := s1.setFb c (if x.pseen then x2 else { x2 with stillAt := pos })
  s2.fbMoved c

/-- COUNT_CHANGE; a quadrature level is accepted after FILT ticks (R117). [DEDUCED, log 34] -/
def execCountChange (c : Fin 24) (v : FbSample) (s : State) : Host.Outcome State Fault Refusal :=
  if !(s.fb c).run then .next s
  else
    match v with
    | .quad a b stood =>
      if s.fbMode c = fmInc ∧ s.rd Reg.FBK_CFG_FILT c ≤ stood then .next (s.fbQuad c a b) else .next s
    | .sincos sn cs => if s.fbMode c = fmSincos ∨ s.fbMode c = fmBoth then .next (s.fbSincos c sn cs) else .next s

/-- AMP_WARN_SET: WCNT samples in a row with this measure. -/
def execAmpWarnSet (c : Fin 24) (m : BitVec 16) (s : State) : Host.Outcome State Fault Refusal :=
  if (s.fb c).run && !(s.fb c).ampWarn && s.outWarn c m.toNat then .next ((s.setFb c { s.fb c with amp := m.toNat }).ampWarn c true)
  else .next s
/-- AMP_WARN_CLEAR. -/
def execAmpWarnClear (c : Fin 24) (m : BitVec 16) (s : State) : Host.Outcome State Fault Refusal :=
  if (s.fb c).run && (s.fb c).ampWarn && !s.outWarn c m.toNat then .next ((s.setFb c { s.fb c with amp := m.toNat }).ampWarn c false)
  else .next s
/-- AMP_FAULT_SET. -/
def execAmpFaultSet (c : Fin 24) (m : BitVec 16) (s : State) : Host.Outcome State Fault Refusal :=
  if (s.fb c).run && !(s.fb c).ampFlt && s.outFault c m.toNat then .next ((s.setFb c { s.fb c with amp := m.toNat }).ampFault c true)
  else .next s
/-- AMP_FAULT_CLEAR. -/
def execAmpFaultClear (c : Fin 24) (m : BitVec 16) (s : State) : Host.Outcome State Fault Refusal :=
  if (s.fb c).run && (s.fb c).ampFlt && !s.outFault c m.toNat then .next ((s.setFb c { s.fb c with amp := m.toNat }).ampFault c false)
  else .next s

/-- LINE_FAULT (R117). -/
def execLineFault (c : Fin 24) (s : State) : Host.Outcome State Fault Refusal :=
  let x := s.fb c
  if x.run then .next (s.setFb c (({ x with line := true, refok := false }.note fbLine).halt)) else .next s
/-- LINE_CLEAR: POSOK returns; in SINCOS+SSI once the SSI value has been read again (R121). -/
def execLineClear (c : Fin 24) (s : State) : Host.Outcome State Fault Refusal :=
  let x := s.fb c
  if x.run && x.line then .next ((s.setFb c ({ x with line := false }.note fbLine)).fbReload c) else .next s

/-! ### Z (R122) -/

/-- A write of 1 to ZARM. -/
def State.zArm (s : State) (c : Nat) : State := s.wrB Reg.FBK_ZCTL_ZARM true c
/-- Z_ARM. -/
def execZArm (c : Fin 24) (s : State) : Host.Outcome State Fault Refusal := .next (s.zArm c)

/-- Z_MARK: a rising edge of Z whose level has stood for `stood` ticks; FILT is the filter of INC. -/
def execZMark (c : Fin 24) (stood : Nat) (s : State) : Host.Outcome State Fault Refusal :=
  let x := s.fb c
  if !x.run || (decide (s.fbMode c = fmInc) && decide (stood < s.rd Reg.FBK_CFG_FILT c)) then .next s
  else if s.bit Reg.FBK_ZCTL_ZARM c then
    let p := uOf 64 x.pos
    .next ((((s.wr Reg.FBK_ZPOSL_POS p c).wr Reg.FBK_ZPOSH_POS (p / 2 ^ 32) c).wrB Reg.FBK_ZCTL_ZARM false c).setFb c
      { x.reref (s.fbMode c) with zref := true })
  else
    let cpr := s.rd Reg.FBK_ZCFG_CPR c
    if !x.zref || decide (cpr = 0) then .next s
    else
      let z := sInt 64 (s.rd Reg.FBK_ZPOSL_POS c + s.rd Reg.FBK_ZPOSH_POS c * 2 ^ 32)
      let turn : Int := 65536 * cpr
      let r := (x.pos - z) % turn
      let tol : Int := 65536 * s.rd Reg.FBK_ZCFG_ZTOL c
      if r ≤ tol ∨ turn - tol ≤ r then .next s
      else .next ((s.setFb c (x.note fbZErr).unref).tally 0x0501 c 0 (uOf 64 (x.pos / 65536)))

/-! ### The observer (R123 to R129) -/

/-- ζ (R123). -/
def dampCode (d : Nat) : Nat :=
  match d with
  | 0 => 0x3FE0000000000000
  | 1 => 0x3FE69FBE76C8B439
  | 2 => 0x3FE999999999999A
  | _ => one64

/-- The gains k1, k2, k3 (R123). [DEDUCED, log 36] -/
def obsGains (bw damp : Nat) : Nat × Nat × Nat :=
  let w := mul64 0x401921FB54442D18 (int64 (10 * bw))
  let z := add64 one64 (mul64 (int64 2) (dampCode damp))
  (mul64 w z, mul64 (mul64 w w) z, mul64 (mul64 w w) w)

/-- The update interval of 1 µs. [DEDUCED, log 36] -/
def obsT : Nat := 0x3EB0C6F7A0B5ED8D

/-- One update of the observer (R123). -/
def ObsSt.update (o : ObsSt) (k : Nat × Nat × Nat) (pos : Int) : ObsSt :=
  let e := sub64 (fOfScaled b64 (sInt 64 (uOf 64 (pos - o.thi))) (-16)) o.thr
  let a := add64 o.a (mul64 (mul64 k.2.2 e) obsT)
  let v := add64 o.v (mul64 (add64 a (mul64 k.2.1 e)) obsT)
  let dt := add64 (mul64 (add64 v (mul64 k.1 e)) obsT) o.thr
  let n := fRoundScaled b64 dt 16
  { o with thi := sInt 64 (uOf 64 (o.thi + n)), thr := sub64 dt (fOfScaled b64 n (-16)), v := v, a := a }

/-- Restart the observer from zero with SETTLING (R126, R129). -/
def State.obsRestart (s : State) (c : Nat) : State :=
  let x := s.fb c
  s.setFb c { x with obs := { run := true, thi := x.pos, last := s.time.edge }, settle := some (s.time.edge + s.fbFour c) }

/-- STANDSTILL begins (R125). -/
def State.fbStandstill (s : State) (c : Nat) : State :=
  let x := s.fb c
  s.setFb c { x with standstill := true, obs := { x.obs with thi := x.pos, thr := 0, v := 0, a := 0 } }

/-- A channel's update at an observer edge. -/
def State.obsStep (s : State) (c : Nat) : State :=
  let x := s.fb c
  if !x.run then s
  else if !x.posok (s.fbMode c) then s.setFb c { x with obs := {} }
  else if !x.obs.run then s.obsRestart c
  else if x.standstill || decide (x.lastChange + s.fbStill c ≤ s.time.edge) then
    let s1 := s.fbStandstill c
    s1.setFb c { s1.fb c with obs := { (s1.fb c).obs with last := s.time.edge } }
  else
    s.setFb c { x with obs := { x.obs.update (obsGains (s.fbBw c) (s.rd Reg.FBK_CFG_DAMP c)) x.pos with last := s.time.edge } }

/-- OBSERVER_UPDATE: the next edge of the 1 µs grid. [DEDUCED, log 36] -/
def execObserverUpdate (s : State) : Host.Outcome State Fault Refusal :=
  .next ((s.advanceEdge ((s.time.edge / edgesPerUs + 1) * edgesPerUs)).over (upFrom 0 24) fun c s => s.obsStep c)

/-- STANDSTILL: STILLT × 10 µs have passed without a count change. -/
def execStandstill (c : Fin 24) (s : State) : Host.Outcome State Fault Refusal :=
  let x := s.fb c
  if x.run && x.obs.run && !x.standstill then .next ((s.advanceEdge (x.lastChange + s.fbStill c)).fbStandstill c) else .next s

/-- OBSERVER_RESTART: POSOK has returned, or the observer's state was read poisoned (R129). -/
def execObserverRestart (c : Fin 24) (psn : Bool) (s : State) : Host.Outcome State Fault Refusal :=
  let x := s.fb c
  if !x.run then .next s
  else if psn then .next ((s.setFb c (x.note fbStatePsn)).obsRestart c)
  else if x.posok (s.fbMode c) && !x.obs.run then .next (s.obsRestart c)
  else .next s

/-- SETTLING_END. -/
def execSettlingEnd (c : Fin 24) (s : State) : Host.Outcome State Fault Refusal :=
  match (s.fb c).settle with
  | some e => let s1 := s.advanceEdge e; .next (s1.setFb c { s1.fb c with settle := none })
  | none => .next s
/-- REVERSAL_END. -/
def execReversalEnd (c : Fin 24) (s : State) : Host.Outcome State Fault Refusal :=
  match (s.fb c).reversal with
  | some e => let s1 := s.advanceEdge e; .next (s1.setFb c { s1.fb c with reversal := none })
  | none => .next s

/-! ### Records (R114, R115, R124) -/

/-- Whether a time-limited flag holds now. -/
def State.untilNow (s : State) (o : Option Nat) : Bool := match o with | some e => decide (s.time.edge < e) | none => false

/-- STAT as it stands at an instant. -/
def State.fbStat (s : State) (c : Nat) : Nat :=
  let x := s.fb c
  let ok := x.posok (s.fbMode c)
  let lv := flagIf x.ampWarn (2 ^ 22) + flagIf x.ampFlt (2 ^ 21) + flagIf x.line (2 ^ 19)
  let iv := Nat.lor (bitsOf x.seen 14 9 * 2 ^ 14) lv
  iv + flagIf ok (2 ^ 31) + flagIf (ok && x.obs.run) (2 ^ 30) + flagIf x.refok (2 ^ 27) + flagIf x.dir (2 ^ 26)
    + flagIf (s.untilNow x.settle) (2 ^ 25) + flagIf (s.untilNow x.reversal) (2 ^ 24) + flagIf x.standstill (2 ^ 23)

/-- VEL and ACC at an instant (R124). -/
def State.fbVel (s : State) (c : Nat) : Nat × Nat :=
  let x := s.fb c
  if x.obs.run && x.posok (s.fbMode c) then
    let d := div64 (int64 (5 * (s.time.edge - x.obs.last) : Nat)) 0x41CDCD6500000000
    (to32 (add64 x.obs.v (mul64 x.obs.a d)), to32 x.obs.a)
  else (0, 0)

/-- Write a record with its sticky copies (R114). -/
def State.fbRecord (s : State) (c : Nat) (l : FbLatch) (stat : Nat) (late : Bool) : State :=
  let x := s.fb c
  let amp := if s.fbMode c = fmSincos ∨ s.fbMode c = fmBoth then x.amp else 0
  let ok := bitAt stat 31
  let pos := if ok then l.pos else x.good
  let cw := fun (lo hi : Nat) => (Cw.mk (BitVec.ofNat 64 (lo + hi * 2 ^ 32)) false)
  let s1 := s.setFb c { x with latch := none, good := if ok then l.pos else x.good }
  let s2 := s1.srcWrite axsPort 4 (.hoist (s.rd Reg.FBK_CFG_RING c) l.hnum) late (s.fbAt false c)
    [⟨BitVec.ofNat 64 (uOf 64 pos), false⟩, cw l.vel l.acc, cw stat l.hnum, cw amp 0]
  let inv := 2 ^ 31 + 2 ^ 30 + 2 ^ 27
  let st := bitsOf (Nat.xor stat inv) 14 18
  let new := Nat.lor (s2.rd Reg.FBK_STAT_BITS c) st
  if new = s2.rd Reg.FBK_STAT_BITS c then s2 else (s2.wr Reg.FBK_STAT_BITS new c).setSummary 5 Reg.FBK_EVSUM_EV c

/-- A channel at a sampling instant (R115): the position is latched, and an SSI frame starts where the mode needs one. -/
def State.fbSample (s : State) (c hnum : Nat) : State :=
  let x := s.fb c
  let (v, a) := s.fbVel c
  let l : FbLatch := { hnum := hnum, pos := x.pos, vel := v, acc := a, stat := s.fbStat c }
  let overrate := bitAt x.seen fbOverrate
  -- in SSI the position stays invalid until a good frame
  let s1 := s.setFb c { x with latch := some l, seen := 0, badNow := x.badNow && decide (s.fbMode c = fmSsi), frame := if s.ssiEach c then some hnum else none }
  if overrate then s1.fbReload c else s1

/-- The channels of a ring at its instant. -/
def State.fbHoist (s : State) (n hnum : Nat) : State :=
  s.over (upFrom 0 24) fun c s =>
    if (s.fb c).run && s.rd Reg.FBK_CFG_RING c == n then s.fbSample c hnum else s

/-- Write the record of a sample that waits for no SSI frame. -/
def State.fbWriteNow (s : State) (c : Nat) : State :=
  match (s.fb c).latch with
  | some l => if (s.fb c).frame.isSome then s else s.fbRecord c l l.stat false
  | none => s
/-- FEEDBACK_RECORD_WRITE. -/
def execFeedbackRecordWrite (c : Fin 24) (s : State) : Host.Outcome State Fault Refusal := .next (s.fbWriteNow c)

/-- The channels of a ring at its input deadline: records still due are written, an SSI frame that runs gives a record
with POSOK = 0 and LATE = 1 (R130). [DEDUCED, log 37] -/
def State.fbDeadline (s : State) (n : Nat) : State :=
  s.over (upFrom 0 24) fun c s =>
    if s.rd Reg.FBK_CFG_RING c ≠ n then s
    else
      match (s.fb c).latch with
      | none => s
      | some l =>
        if (s.fb c).frame.isSome then
          s.fbRecord c { l with vel := 0, acc := 0 } (Nat.lor (Nat.land l.stat (2 ^ 30 - 1)) (2 ^ fbLate)) false
        else s.fbRecord c l l.stat false

/-! ### SSI (R120, R121, R130) -/

/-- Gray code to binary, `n` bits. -/
def grayBin : Nat → Nat → Nat
  | 0, v => v
  | n + 1, v => grayBin n (Nat.xor v (v / 2 ^ (2 ^ n)))

/-- The value a frame carries, if it is valid: start bit, error bit, parity as the number of ones came out (R120). [DEDUCED, log 37] -/
def State.ssiValue (s : State) (c : Nat) (f : SsiFrame) : Option Nat :=
  let par := s.rd Reg.FBK_SSI_PAR c
  let ok := f.start && !(s.bit Reg.FBK_SSI_ERRB c && f.err) && !(par == 1 && f.odd) && !(par == 2 && !f.odd)
  let v := f.data.toNat % 2 ^ s.rd Reg.FBK_SSI_BITS c
  if ok then some (if s.bit Reg.FBK_SSI_GRAY c then grayBin 6 v else v) else none

/-- A bad frame (R120): POSOK is 0, so the observer stops (R129). -/
def State.ssiBad (s : State) (c : Nat) : State := (s.setFb c { ((s.fb c).note fbSsiErr).halt with badNow := true }).inc Reg.FBK_ERRCNT_SSI c

/-- Unwrap a value into the 48-bit count (R120). -/
def State.ssiUnwrap (s : State) (c v : Nat) : State :=
  let x := s.fb c
  let n := s.rd Reg.FBK_SSI_BITS c
  let (cnt, first) : Int × Bool := match x.ssi with
    | none => ((v : Int), true)
    | some old => (x.pos / 65536 + (((v : Int) - old + 2 ^ (n - 1)) % (2 ^ n : Nat) - 2 ^ (n - 1)), false)
  let p := sInt 64 (uOf 64 (cnt * 65536))
  (s.setFb c { x.reref fmSsi with ssi := some v, pos := p, badNow := false, stillAt := if first then p else x.stillAt }).fbMoved c

/-- Set the period count from an SSI value (R121). [DEDUCED, log 38] -/
def State.ssiLoad (s : State) (c v : Nat) : State :=
  let x := s.fb c
  let sh := s.rd Reg.FBK_SSI2_SHIFT c
  let per := divRoundEven ((v : Int) * 65536 - (x.phi : Int) * 2 ^ sh) (2 ^ sh * 65536)
  let p := sInt 64 (uOf 64 ((per * 65536 + x.phi) * 2 ^ s.fbCsh c))
  (s.setFb c ({ x with per := per, pos := p, stillAt := p, loaded := true, want := false }.reref fmBoth)).ccNotify 0 c p

/-- Cross-check an SSI value with the latched position, in periods (R121). -/
def State.ssiCheck (s : State) (c v : Nat) (pos : Int) : State :=
  let sh := s.rd Reg.FBK_SSI2_SHIFT c
  -- both sides in units of 2^−16 period times 2^SHIFT
  let d := (v : Int) * 65536 - pos / 2 ^ s.fbCsh c * 2 ^ sh
  if d.natAbs * 256 ≤ s.rd Reg.FBK_SSI2_XTOL c * 65536 * 2 ^ sh then s
  else s.setFb c ((s.fb c).note fbMismatch).unref

/-- SSI_FRAME_DONE: the frame of an instant completes (R115, R120, R121, R130). -/
def execSsiFrameDone (c : Fin 24) (f : SsiFrame) (s : State) : Host.Outcome State Fault Refusal :=
  let x := s.fb c
  match x.frame with
  | none => .next s
  | some _ =>
    let s0 := s.setFb c { x with frame := none }
    let val := s0.ssiValue c f
    let both := decide (s0.fbMode c = fmBoth)
    let s1 := match val with
      | none => s0.ssiBad c
      | some v =>
        if both then
          if x.want then s0.ssiLoad c v
          else s0.ssiCheck c v (match x.latch with | some l => l.pos | none => x.pos)
        else s0.ssiUnwrap c v
    match x.latch with
    | none => .next s1
    | some l =>
      -- the record of this hoist: the flags the frame raised belong to it
      let y := s1.fb c
      let iv := bitsOf y.seen 14 9 * 2 ^ 14
      let base := Nat.lor l.stat iv
      let ok := if both then bitAt l.stat 31 && val.isSome else val.isSome && y.posok (s1.fbMode c)
      let vok := ok && (if both then bitAt l.stat 30 else y.obs.run)
      let low := Nat.lor (Nat.land base (2 ^ 27 - 1)) (flagIf y.refok (2 ^ 27))
      let s2 := s1.setFb c { y with seen := 0 }
      let l1 := { l with pos := if both then l.pos else y.pos, vel := if vok then l.vel else 0, acc := if vok then l.acc else 0 }
      .next (s2.fbRecord c l1 (low + flagIf ok (2 ^ 31) + flagIf vok (2 ^ 30)) false)

/-- SSI_ABS_LOAD: the value read at enable or after a fault (R121). A bad frame leaves the read to be made again. -/
def execSsiAbsLoad (c : Fin 24) (f : SsiFrame) (s : State) : Host.Outcome State Fault Refusal :=
  if (s.fb c).run && (s.fb c).want then
    match s.ssiValue c f with
    | some v => .next (s.ssiLoad c v)
    | none => .next (s.ssiBad c)
  else .next s

/-- CLRERR. -/
def State.fbClrerr (s : State) : State :=
  s.over (upFrom 0 24) fun c s => (s.wr Reg.FBK_ERRCNT_PHASE 0 c).wr Reg.FBK_ERRCNT_SSI 0 c
/-- FBK_CLRERR. -/
def execFbkClrerr (s : State) : Host.Outcome State Fault Refusal := .next s.fbClrerr

/-- A write to FBK_FBASE. -/
def State.fbFbase (s : State) (v : Nat) : State :=
  if (upFrom 0 24).any (fun c => s.bit Reg.FBK_CFG_EN c) then s else s.wr Reg.FBK_FBASE_BASE (v / 4096)
/-- A write to FBK_RBASE. -/
def State.fbRbase (s : State) (v : Nat) : State := if s.fbk.remRing = [] then s.wr Reg.FBK_RBASE_BASE (v / 16384) else s

/-! ### Remote records (R132) -/

/-- The NET island writes a remote record: `b` are POS, VEL, ACC, STAT and AMP as the station sent them, `psn` if the
payload came poisoned. HNUM, STALE and POISON are the module's own. -/
def State.remoteRecord (s : State) (rec_ n hnum : Nat) (b : List Byte) (psn late : Bool) : State :=
  let pos := leNat (b.take 8)
  let va := leNat ((b.drop 8).take 8)
  let st := leNat ((b.drop 16).take 4)
  let amp := leNat ((b.drop 24).take 4)
  let keep := Nat.land st (2 ^ 31 + 2 ^ 30 + (2 ^ 29 - 2 ^ 14))
  let stat := if psn then Nat.lor (Nat.land keep (2 ^ 31 - 1)) (2 ^ 13) else keep
  s.srcWrite 5 6 (.hoist n hnum) late (s.fbAt true rec_)
    [⟨BitVec.ofNat 64 pos, psn⟩, ⟨BitVec.ofNat 64 va, psn⟩, ⟨BitVec.ofNat 64 (stat + hnum % 2 ^ 32 * 2 ^ 32), false⟩,
     ⟨BitVec.ofNat 64 (amp % 65536), false⟩]

/-- A hoist without a payload: the values stay, STALE is set with the hoist number (R132). -/
def State.remoteStale (s : State) (rec_ n hnum : Nat) : State :=
  let (d, s1) := s.lndRead 5 (s.fbAt true rec_ + 16) 1
  let st := Nat.lor (loOf d 0) (2 ^ 29)
  s1.srcWrite 5 6 (.hoist n hnum) false (s.fbAt true rec_ + 16) [⟨BitVec.ofNat 64 (st + hnum % 2 ^ 32 * 2 ^ 32), false⟩]

end Sys2Proof.Machine
end

