-- ==== Sys2Proof/Machine/Emulation.lean ====
section
/-! DEFINITION. Encoder emulation (R133 to R136). -/
namespace Sys2Proof.Machine

/-- EN of a stage goes from 0 to 1: the source and RATIO are taken, and a new src0 is due (R133). -/
def State.emuEnable (s : State) (e : Nat) (b : Bool) : State :=
  if b then
    if s.bit Reg.FBK_EMCFG_EN e then s
    else
      let x := s.emu e
      (s.wrB Reg.FBK_EMCFG_EN true e).setEmu e
        { x with on_ := true, src0 := none, srck := s.rd Reg.FBK_EMCFG_SRCK e, srcn := s.rd Reg.FBK_EMCFG_SRCN e
                 ratio := sInt 64 (s.rd Reg.FBK_EMRATL_RATIO e + s.rd Reg.FBK_EMRATH_RATIO e * 2 ^ 32), latched := none }
  else (s.wrB Reg.FBK_EMCFG_EN false e).setEmu e { s.emu e with on_ := false, latched := none }

/-- The source of a stage, units of 2^−16 count; `none` where it is not valid (R116, R135). -/
def State.emuSource (s : State) (x : EmuSt) : Option Int × State :=
  match x.srck with
  | 0 =>
    let (d, s1) := s.lndRead axsPort (s.axisAt x.srcn + 0x68) 1
    (if psnOf d 0 then none else some (sInt 64 (d.getD 0 Cw.lost).data.toNat), s1)
  | 1 => if x.srcn < 24 then (let (f, s1) := s.fbRead false x.srcn; (if f.ok then some f.pos else none, s1)) else (none, s)
  | 2 => let (f, s1) := s.fbRead true x.srcn; (if f.ok then some f.pos else none, s1)
  | _ => (none, s)

/-- The stages of a ring at its seal (R133, R135). [DEDUCED, log 39] -/
def State.emuSeal (s : State) (n : Nat) : State :=
  s.over (upFrom 0 8) fun e s =>
    let x := s.emu e
    if !x.on_ || s.rd Reg.FBK_EMCFG_RING e != n then s
    else
      let (v, s1) := s.emuSource x
      let s2 := s1.setEmu e { s1.emu e with latched := v }
      match v with
      | some _ => s2
      | none => s2.setSticky 5 Reg.FBK_EMSTAT_SRCBAD e

/-- EDGEMAX in units of 0.1 MHz. -/
def State.edgeMax (s : State) (e : Nat) : Nat :=
  let v := s.rd Reg.FBK_EMCFG_EDGEMAX e
  if v = 0 ∨ 200 < v then 200 else v

/-- One stage at an apply instant: the count so far is final, the target moves, and the counts of the coming period are
scheduled (R133, R134). Nothing moves while the stage may not work. [DEDUCED, log 39] -/
def State.emuApply1 (s : State) (e per : Nat) : State :=
  let s := s.over (s.ccWatchers 1 e) fun u a => a.ccFollow u
  if !s.outOn (s.rd Reg.FBK_EMCFG_RING e) then (s.emuRest e).ccNotify 1 e 0
  else
    let x := s.emu e
    let c := x.c + x.sched
    let src0 := match x.src0 with | some v => some v | none => x.latched
    let tgt := match x.latched, src0 with
      | some v, some z => sInt 64 (uOf 64 (x.ratio * (v - z) / 2 ^ 48))
      | _, _ => x.target
    let n := sInt 64 (uOf 64 (tgt - c))
    let cap := s.edgeMax e * per / 80
    let m := Nat.min n.natAbs cap
    let d : Int := if x.on_ then (if n < 0 then -(m : Int) else (m : Int)) else 0
    let s1 := s.setEmu e { x with src0 := src0, target := tgt, c := c, sched := d, start := s.time.edge, span := per * 25 }
    let s2 := (s1.wr Reg.FBK_EMCNT_C (uOf 32 c) e).wr Reg.FBK_EMSTAT_BACKLOG (Nat.min n.natAbs 0xFFFFFF) e
    let s3 := if cap < n.natAbs then s2.setSticky 5 Reg.FBK_EMSTAT_ELIM e else s2
    s3.over (s3.ccWatchers 1 e) fun u a => a.ccFollow u

/-- The stages of a ring at an apply instant. -/
def State.emuApply (s : State) (n : Nat) : State :=
  s.over (upFrom 0 8) fun e s =>
    if (s.emu e).on_ && s.rd Reg.FBK_EMCFG_RING e == n then s.emuApply1 e (s.ring n).per else s

/-- The pins A, B, Z of a stage at its present count (R134). -/
def State.emuPins (s : State) (e : Nat) : Bool × Bool × Bool :=
  let x := s.emu e
  let c0 := x.count s.time.edge
  let c := if s.bit Reg.FBK_EMCFG_INV e then -c0 else c0
  let m := c % 4
  let z := max 1 (s.rd Reg.FBK_EMZPER_ZPER e)
  if s.outOn (s.rd Reg.FBK_EMCFG_RING e) then
    (m == 1 || m == 2, m == 2 || m == 3, s.bit Reg.FBK_EMCFG_ZEN e && decide (c % (z : Int) = 0))
  else (false, false, false)

end Sys2Proof.Machine
end

