-- ==== Sys2Proof/Machine/Hif.lean ====
section
/-! DEFINITION. The host interface (R270 to R290): host rings, doorbells, commands, completions and events, set-point
streams, BAR2, interrupts and event F. -/
namespace Sys2Proof.Machine

/-! ### Interrupts (R273, R286) -/

/-- Pending vectors that are no longer masked are sent (R286). -/
def State.msixUnmask (s : State) : State :=
  if s.hif.msixMask || !s.hif.msixOn then s
  else s.over (upFrom 0 64) fun v s =>
    if !bitAt (s.rd Reg.MSIX_PBA (v / 32)) (v % 32) || s.bit Reg.MSIX_WORD v 3 then s
    else (s.clrBitOf Reg.MSIX_PBA (v % 32) (v / 32)).sendMsix v

/-- INTERRUPT: the count or the time trigger of a ring (R286). -/
def execInterrupt (r : Fin 42) (s : State) : Host.Outcome State Fault Refusal :=
  let u := tabAt 0 s.hif.unsig r
  if u = 0 ∨ !s.bit Reg.HIF_RCFG_IEN r then .next s
  else if max 1 (s.rd Reg.HIF_RIMOD_ICNT r) ≤ u then .next (s.sendVector r)
  else if s.rd Reg.HIF_RIMOD_ITIME r = 0 then .next s
  else .next ((s.advanceEdge (tabAt 0 s.hif.unsigAt r + s.rd Reg.HIF_RIMOD_ITIME r * edgesPerUs)).sendVector r)

/-! ### Rings (R275, R277, R278) -/

/-- Slot area of a set-point stream: within the Landing (R277). -/
def State.spArea (s : State) (r : Nat) : Bool := inLanding (s.rd Reg.HIF_SPBASE_BASE r * 32) (32 * s.rd Reg.HIF_SPCFG_NSLOT r)

/-- Whether a ring's configuration is valid (R277). -/
def State.hostRingValid (s : State) (r : Nat) : Bool :=
  let l := s.rd Reg.HIF_RCFG_LOG2 r
  decide (4 ≤ l) && decide (l ≤ 16) && (decide (r ≠ 0) || s.bit Reg.HIF_RSTAT_RUN 1) && (!isSp r || s.spArea r)

/-- A ring starts afresh: counts, queues. -/
def State.hostRingFresh (s : State) (r : Nat) : State :=
  let s1 := s.wr Reg.HIF_RCNT_CNT 0 r
  { s1 with hif := { s1.hif with
    host := tabDel s1.hif.host r, unsig := tabDel s1.hif.unsig r, unsigAt := tabDel s1.hif.unsigAt r
    cmds := if r = 0 then [] else s1.hif.cmds
    stopping := if r = 0 then false else s1.hif.stopping
    sps := tabDel s1.hif.sps r, spHad := setDel s1.hif.spHad r } }

/-- HOST_RING_ERROR: a failed access or a poisoned fetch stops the ring (R278). [DEDUCED, log 106] -/
def State.hostRingError (s : State) (r cause : Nat) : State :=
  if !s.bit Reg.HIF_RSTAT_RUN r then s
  else
    let s1 := ((s.wrB Reg.HIF_RSTAT_RUN false r).wrB Reg.HIF_RSTAT_ERR true r).wr Reg.HIF_RSTAT_ERRCAUSE cause r
    (((s1.writeback r).sendVector r).toHost (.aer cause)).tally 0x0102 r cause
/-- HOST_RING_ERROR. -/
def execHostRingError (r : Fin 42) (cause : Fin 16) (s : State) : Host.Outcome State Fault Refusal := .next (s.hostRingError r cause)

/-! ### Completions and event entries (R281 to R285) -/

/-- An event entry (R284). -/
def eventEntry (evpend ht : Nat) : List Byte :=
  leBytes 2 0 ++ leBytes 1 0xFF ++ leBytes 1 0 ++ leBytes 4 0 ++ leBytes 8 ht ++ leBytes 4 0 ++ leBytes 4 evpend ++ leBytes 8 0

/-- The bytes of what waits for CPL. -/
def CplEntry.bytes : CplEntry → List Byte
  | .completion b => b
  | .event e ht => eventEntry e ht

/-- The oldest entry that waits is written while CPL has room: an event entry goes before every completion queued after
it. [DEDUCED, log 102] -/
def State.cplPut (s : State) : State :=
  if !s.ringRoom ringCpl then s
  else match s.hif.waits with
    | e :: l => ({ s with hif := { s.hif with waits := l } }).putEntry ringCpl e.bytes
    | [] => s

/-- Write what waits, as far as there is room. [DEDUCED, log 102] -/
def State.cplFlush : Nat → State → State
  | 0, s => s
  | k + 1, s => State.cplFlush k s.cplPut

/-- How much waits for CPL. -/
def State.cplWaiting (s : State) : Nat := s.hif.waits.length

/-- Status codes (R282). -/
def hsOk : Nat := 0
def hsBadopc : Nat := 1
def hsAlign : Nat := 2
def hsRange : Nat := 3
def hsRetired : Nat := 4
def hsLpsn : Nat := 5
def hsHpsn : Nat := 6
def hsHerr : Nat := 7
def hsRej : Nat := 8
def hsMissed : Nat := 9
def hsNoring : Nat := 10
def hsAborted : Nat := 11

/-- The completion of a command (R282, R284): an INFO the table does not state is a free value. [DEDUCED, log 102] -/
def State.complete (s : State) (c : HifCmdSt) (status : Nat) (info : Option Nat) : State :=
  let (i, s1) := s.draw
  let inf := info.getD (Config.freeWord i).toNat
  let n := s1.rd Reg.HIF_RCNT_CNT 0
  let b := leBytes 2 c.d.tag.toNat ++ leBytes 1 c.d.opc.toNat ++ leBytes 1 status ++ leBytes 4 inf ++ leBytes 8 s1.htime ++ leBytes 4 n
    ++ leBytes 4 0 ++ leBytes 8 0
  let s2 := if bitAt c.d.flags.toNat 0 || decide (status ≠ 0) then
      State.cplFlush (s1.cplWaiting + 1) { s1 with hif := { s1.hif with waits := s1.hif.waits ++ [.completion b] } } else s1
  ({ s2 with hif := { s2.hif with cmds := s2.hif.cmds.drop 1 } }).ringAdvance 0 1

/-! ### Commands (R280, R282, R283) -/

/-- A command descriptor taken apart (R280): 32 bytes, byte 0 in bits [7:0]. [DESIGN CHOICE, log 101] -/
def cmdOf (raw : BitVec 256) : HifCmd :=
  { opc := raw.extractLsb' 0 8, flags := raw.extractLsb' 8 8, tag := raw.extractLsb' 16 16, laddr := raw.extractLsb' 32 32
    data := raw.extractLsb' 64 64, mask := raw.extractLsb' 128 32, arg := raw.extractLsb' 160 32
    hnum := raw.extractLsb' 192 32, hring := raw.extractLsb' 224 8, rest := raw.extractLsb' 232 24 }

/-- The 32 bytes of a descriptor with these fields (R280). -/
def HifCmd.raw (d : HifCmd) : BitVec 256 :=
  d.rest ++ d.hring ++ d.hnum ++ d.arg ++ d.mask ++ d.data ++ d.laddr ++ d.tag ++ d.flags ++ d.opc

/-- The stamp of a command's writes (R404). -/
def State.cmdStamp (s : State) (c : HifCmdSt) : RsStamp :=
  if bitAt c.d.flags.toNat 1 then .hoist (c.d.hring.toNat % 8) c.d.hnum.toNat else .tick s.dtick

/-- Whether an 8-byte word lies on a retired page. -/
def State.onRetired (s : State) (off : Nat) : Bool := (s.retEntry off).isSome

/-- A 32-bit merge by the host, recorded as HCMD. -/
def State.hostMerge (s : State) (st : RsStamp) (off mask v : Nat) : State :=
  if s.replaying then s
  else
    let s1 := s.lndMerge32 hifPort off mask v
    State.reportCws st 9 false (off / 8 * 8) [(s1.landing.decode (s1.lndCw (off / 8 * 8))).1] s1

/-- Words of a copy up to the first that lies on a retired page. -/
def State.movable (s : State) (off n : Nat) : Nat :=
  (((upFrom 0 n).find? fun i => s.onRetired (off + 8 * i))).getD n

/-- Index of the first marked word. -/
def firstMark (l : List Bool) : Option Nat := (upFrom 0 l.length).find? fun i => l.getD i false

/-- Alignment, range and opcode checks of a command (R280, R282): 0 where it may run. [DEDUCED, log 102] -/
def cmdCheck (c : HifCmdSt) : Nat :=
  let opc := c.d.opc.toNat
  let copy := decide (opc = 3) || decide (opc = 4)
  let la := c.d.laddr.toNat
  let n := c.d.mask.toNat
  if 6 < opc ∨ 4 ≤ c.d.flags.toNat ∨ (copy ∧ bitAt c.d.flags.toNat 1) then hsBadopc
  else if opc = 1 ∧ la % 8 ≠ 0 ∨ opc = 2 ∧ la % 4 ≠ 0
      ∨ copy ∧ (la % 8 ≠ 0 ∨ n % 8 ≠ 0 ∨ c.d.data.toNat % 8 ≠ 0 ∨ n < 8 ∨ 1048576 < n) then hsAlign
  else if opc = 1 ∧ !inLanding la 8 ∨ opc = 2 ∧ !inLanding la 4 ∨ copy ∧ !inLanding la n then hsRange
  else hsOk

/-- Codewords that a copy moves: up to a failure of host memory and up to a retired page, and whether the page ends it
(R282). -/
def State.copyReach (s : State) (c : HifCmdSt) : Nat × Bool :=
  let n := c.d.mask.toNat / 8
  let got := match c.fail with | some k => Nat.min k n | none => n
  let m := s.movable c.d.laddr.toNat n
  (Nat.min got m, decide (m ≤ got))

/-- Where a copy stops for now: at its pause, or at its end. [DEDUCED, log 102] -/
def State.copyStop (s : State) (c : HifCmdSt) : Nat :=
  match c.moved, c.pause with
  | none, some p => Nat.min p (s.copyReach c).1
  | _, _ => (s.copyReach c).1

/-- A copy has moved the codewords below `k`, with the first poisoned one `mark`: it pauses, or completes with a status of
R282 (`psn`: the status of poisoned data). [DEDUCED, log 102] -/
def State.copyMoved (s : State) (c : HifCmdSt) (k psn : Nat) (mark : Option Nat) : State :=
  let n := c.d.mask.toNat / 8
  let (e, page) := s.copyReach c
  if k < e then
    { s with hif := { s.hif with cmds := { c with moved := some k, marked := mark } :: s.hif.cmds.drop 1 } }
  else
    let s1 := if page && decide (e < n) then s.noteRetired hifPort c.d.laddr.toNat (8 * n) else s
    if e < n then s1.complete c (if page then hsRetired else hsHerr) (some (8 * e))
    else match mark with
      | some i => s1.complete c psn (some (8 * i))
      | none => s1.complete c hsOk none

/-- The first poisoned codeword of a copy: one found before, or the first mark among those moved now. -/
def HifCmdSt.markWith (c : HifCmdSt) (k0 : Nat) (l : List Bool) : Option Nat :=
  match c.marked with
  | some i => some i
  | none => (firstMark l).map (k0 + ·)

/-- COPYIN: codewords from the host, up to a retired page or a failed read; each is written whole (R280). -/
def State.cmdCopyin (s : State) (c : HifCmdSt) : State :=
  let k0 := c.moved.getD 0
  let k := s.copyStop c
  let ws := (upFrom k0 (k - k0)).map fun i => match c.words.getD i (0#64, false) with | (d, p) => (⟨d, p⟩ : Cw)
  let s1 := if k = k0 then s else s.toHost (.read (c.d.data.toNat + 8 * k0) (8 * (k - k0)))
  (s1.srcWrite hifPort 9 (s.cmdStamp c) false (c.d.laddr.toNat + 8 * k0) ws).copyMoved c k hsHpsn
    (c.markWith k0 (ws.map fun w => w.poison))

/-- COPYOUT: the raw data of the codewords, up to a retired page or a failed write. -/
def State.cmdCopyout (s : State) (c : HifCmdSt) : State :=
  let k0 := c.moved.getD 0
  let k := s.copyStop c
  let (ws, s1) := State.readSeq hifPort (c.d.laddr.toNat + 8 * k0) (k - k0) s
  let s2 := if k = k0 then s1 else s1.toHost (.write (c.d.data.toNat + 8 * k0) (cwBytes ws))
  s2.copyMoved c k hsLpsn (c.markWith k0 (ws.map fun w => w.poison))

/-- Perform a command that has passed its checks. -/
def State.cmdPerform (s : State) (c : HifCmdSt) : State :=
  let la := c.d.laddr.toNat
  match c.d.opc.toNat with
  | 1 =>
    if s.onRetired la then (s.noteRetired hifPort la 8).complete c hsRetired (some 0)
    else (s.srcWrite hifPort 9 (s.cmdStamp c) false la [⟨c.d.data, false⟩]).complete c hsOk none
  | 2 =>
    if s.onRetired la then (s.noteRetired hifPort la 4).complete c hsRetired (some 0)
    else
      let psn := (s.landing.decode (s.lndCw (la / 8 * 8))).1.poison
      let s1 := s.hostMerge (s.cmdStamp c) la c.d.mask.toNat c.d.data.toNat
      if psn then s1.complete c hsLpsn (some 0) else s1.complete c hsOk none
  | 3 => s.cmdCopyin c
  | 4 => s.cmdCopyout c
  | 5 => (s.flagSet 4 0 (c.d.arg.toNat % 256) (c.d.data.toNat % 2 ^ 32)).complete c hsOk none
  | 6 =>
    let (r, s1) := ({ s with hif := { s.hif with postRes := none } }).postFrom 4 0 (c.d.arg.toNat % 4096) c.d.data.toNat false 0
    if r = 0 then s1.complete c hsOk (some 0)
    else if r = 4 then
      match s1.hif.cmds with
      | x :: l => { s1 with hif := { s1.hif with cmds := { x with posting := true } :: l } }
      | [] => s1
    else s1.complete c hsRej (some r)
  | _ => s.complete c hsOk none

/-- A command reaches the head with room for its completion (R281, R283). -/
def State.cmdStart (s : State) (c : HifCmdSt) : State :=
  let st := cmdCheck c
  if st ≠ 0 then s.complete c st none
  else if !bitAt c.d.flags.toNat 1 then s.cmdPerform c
  else
    let n := c.d.hring.toNat % 8
    let k := s.rd Reg.HST_RHNUM_HNUM n
    if !s.bit Reg.HST_RSTAT_RUN n then s.complete c hsNoring none
    else if sInt 32 (c.d.hnum.toNat + 2 ^ 32 - k) ≤ 0 then s.complete c hsMissed (some k)
    else match s.hif.cmds with
      | x :: l => { s with hif := { s.hif with cmds := { x with held := true } :: l } }
      | [] => s

/-- Execute the commands that wait, in order; the head waits while CPL is full, while it is held and while its POST is
undecided (R281). `fuel` bounds them. -/
def State.cmdRun : Nat → State → State
  | 0, s => s
  | k + 1, s =>
    let s1 := State.cplFlush s.cplWaiting s
    match s1.hif.cmds with
    | [] => s1.wrB Reg.HIF_RSTAT_FULLWAIT (decide (0 < s1.cplWaiting)) ringCpl
    | c :: _ =>
      if c.held || c.posting || c.moved.isSome || !s1.bit Reg.HIF_RSTAT_RUN 0 || s1.hif.stopping then s1.wrB Reg.HIF_RSTAT_FULLWAIT (decide (0 < s1.cplWaiting)) ringCpl
      else if s1.ringRoom ringCpl && decide (s1.cplWaiting = 0) then State.cmdRun k (s1.cmdStart c)
      else s1.wrB Reg.HIF_RSTAT_FULLWAIT true ringCpl

/-- A copy that took a pause goes on (R281). -/
def State.copyResume (s : State) : State :=
  match s.hif.cmds with
  | c :: _ => if c.moved.isSome && s.bit Reg.HIF_RSTAT_RUN 0 then s.cmdPerform c else s
  | [] => s

/-- Run the command ring. [DEDUCED, log 102] -/
def State.hifRun (s : State) : State :=
  let s1 := s.copyResume
  State.cmdRun (s1.hif.cmds.length + 1) s1

/-- EVENT_ENTRY_WRITE: the oldest entry that waits for CPL, and what waited behind it. -/
def execEventEntryWrite (s : State) : Host.Outcome State Fault Refusal := .next s.cplPut.hifRun

/-- EN is written 1 (R277); what waited for CPL goes on once it runs (R281). -/
def State.hostRingEnable (s : State) (r : Nat) : State :=
  if s.bit Reg.HIF_RCFG_EN r then s
  else if s.hostRingValid r then
    let s1 := (((s.wrB Reg.HIF_RCFG_EN true r).wrB Reg.HIF_RSTAT_CFGERR false r).wrB Reg.HIF_RSTAT_RUN true r).hostRingFresh r
    if r = ringCpl then s1.hifRun else if isRs r then s1.rsWait (r - 34) else s1
  else s.wrB Reg.HIF_RSTAT_CFGERR true r
/-- HOST_RING_ENABLE. -/
def execHostRingEnable (r : Fin 42) (s : State) : Host.Outcome State Fault Refusal := .next (s.hostRingEnable r)

/-- The slot of count value `n` of a ring (R275). -/
def State.slotAddr (s : State) (r n : Nat) : Nat :=
  s.rd Reg.HIF_RBL_BASE r * 4096 + s.rd Reg.HIF_RBH_BASE r * 2 ^ 32 + 32 * (n % s.ringSlots r)

/-- A descriptor of the command ring is fetched: it joins the commands that wait if the host's count covers it. [DESIGN CHOICE, log 101] -/
def State.cmdFetch (s : State) (c : HifCmdSt) : State :=
  let fill := (s.hostCount 0 + 2 ^ 32 - s.rd Reg.HIF_RCNT_CNT 0) % 2 ^ 32
  if !s.bit Reg.HIF_RSTAT_RUN 0 || s.hif.stopping || decide (fill ≤ s.hif.cmds.length) then s
  else
    let s1 := s.toHost (.read (s.slotAddr 0 (s.rd Reg.HIF_RCNT_CNT 0 + s.hif.cmds.length)) 32)
    ({ s1 with hif := { s1.hif with cmds := s1.hif.cmds ++ [c] } }).hifRun

/-- A descriptor fetched from its slot. [DESIGN CHOICE, log 101] -/
def fetched (raw : BitVec 256) : HifCmdSt := { d := cmdOf raw, words := [], fail := none }

/-- NOP, and the opcodes that are reserved: the opcode byte says which command a descriptor is (R280). -/
def execNop (raw : BitVec 256) (s : State) : Host.Outcome State Fault Refusal := .next (s.cmdFetch (fetched raw))
/-- WR64. -/
def execWr64 (raw : BitVec 256) (s : State) : Host.Outcome State Fault Refusal := .next (s.cmdFetch (fetched raw))
/-- MWR32. -/
def execMwr32 (raw : BitVec 256) (s : State) : Host.Outcome State Fault Refusal := .next (s.cmdFetch (fetched raw))
/-- COPYIN: the words the host delivered, whether its memory failed after them, and a pause of the copy. -/
def execCopyin (raw : BitVec 256) (words : List (BitVec 64 × Bool)) (failed : Bool) (pause : Option Nat) (s : State) :
    Host.Outcome State Fault Refusal :=
  .next (s.cmdFetch { fetched raw with words := words, fail := if failed then some words.length else none, pause := pause })
/-- COPYOUT: the words written before the host's memory failed, if it did, and a pause of the copy. -/
def execCopyout (raw : BitVec 256) (failed pause : Option Nat) (s : State) : Host.Outcome State Fault Refusal :=
  .next (s.cmdFetch { fetched raw with fail := failed, pause := pause })
/-- CMD_FSET. -/
def execCmdFset (raw : BitVec 256) (s : State) : Host.Outcome State Fault Refusal := .next (s.cmdFetch (fetched raw))
/-- CMD_POST. -/
def execCmdPost (raw : BitVec 256) (s : State) : Host.Outcome State Fault Refusal := .next (s.cmdFetch (fetched raw))

/-- The ring stands still: RUN reads 0, and what was only fetched is dropped (R277). -/
def State.hostRingStop (s : State) (r : Nat) : State :=
  let s2 := (s.wrB Reg.HIF_RSTAT_RUN false r).wrB Reg.HIF_RSTAT_FULLWAIT false r
  { s2 with hif := { s2.hif with
    cmds := if r = 0 then [] else s2.hif.cmds
    stopping := if r = 0 then false else s2.hif.stopping
    sps := tabDel s2.hif.sps r, spHad := setDel s2.hif.spHad r } }

/-- EN is cleared (R277): the command in progress completes first, and a held command completes with ABORTED. -/
def State.hostRingDisable (s : State) (r : Nat) : State :=
  let s0 := s.wrB Reg.HIF_RCFG_EN false r
  match s0.hif.cmds with
  | c :: _ =>
    if r ≠ 0 then s0.hostRingStop r
    else if c.posting then { s0 with hif := { s0.hif with cmds := [c], stopping := true } }
    else if c.held then (s0.complete c hsAborted none).hostRingStop 0
    else if c.moved.isSome then (s0.cmdPerform c).hostRingStop 0
    else s0.hostRingStop 0
  | [] => s0.hostRingStop r
/-- HOST_RING_DISABLE. -/
def execHostRingDisable (r : Fin 42) (s : State) : Host.Outcome State Fault Refusal := .next (s.hostRingDisable r)

/-- A POST that a boundary has decided completes (R282). -/
def State.postDecided (s : State) : State :=
  match s.hif.cmds, s.hif.postRes with
  | c :: _, some r =>
    if c.posting then
      let s1 := ({ s with hif := { s.hif with postRes := none } }).complete c (if r = 0 then hsOk else hsRej) (some r)
      if s1.hif.stopping then s1.hostRingStop 0 else s1.hifRun
    else s
  | _, _ => s

/-- The held command at the instant of hoist `k` of ring `n` (R283). [DEDUCED, log 103] -/
def State.athInstant (s : State) (n k : Nat) : State :=
  match s.hif.cmds with
  | c :: _ =>
    if c.held ∧ c.d.hring.toNat % 8 = n ∧ s.bit Reg.HIF_RSTAT_RUN 0 then
      let d := sInt 32 (c.d.hnum.toNat + 2 ^ 32 - k)
      if d = 0 then (s.cmdPerform c).hifRun
      else if d < 0 then (s.complete c hsMissed (some k)).hifRun
      else s
    else s
  | [] => s

/-- The ring of a held command stops (R283). -/
def State.athStop (s : State) (n : Nat) : State :=
  match s.hif.cmds with
  | c :: _ => if c.held ∧ c.d.hring.toNat % 8 = n ∧ s.bit Reg.HIF_RSTAT_RUN 0 then (s.complete c hsNoring none).hifRun else s
  | [] => s

/-! ### Set-point streams (R287, R288) -/

/-- Fields of a set-point descriptor. -/
def SpDesc.hnum (d : SpDesc) : Nat := bitsOf d.raw.toNat 192 32
def SpDesc.slot (d : SpDesc) : Nat := bitsOf d.raw.toNat 224 16
def SpDesc.rest (d : SpDesc) : Nat := bitsOf d.raw.toNat 240 16

/-- Whether a descriptor names a slot of the stream and has its reserved bytes 0 (R288). [DEDUCED, log 103] -/
def State.spFormat (s : State) (r : Nat) (d : SpDesc) : Bool := decide (d.slot < s.rd Reg.HIF_SPCFG_NSLOT r) && decide (d.rest = 0)

/-- The head descriptor of a stream is consumed. -/
def State.spPop (s : State) (r : Nat) : State :=
  ({ s with hif := { s.hif with sps := tabPut [] s.hif.sps r ((tabAt [] s.hif.sps r).drop 1) } }).ringAdvance r 1

/-- Discard heads that are malformed or whose hoist has passed (R288); `fuel` bounds them. -/
def State.spDrop (r : Nat) : Nat → State → State
  | 0, s => s
  | k + 1, s =>
    match tabAt [] s.hif.sps r with
    | [] => s
    | d :: _ =>
      let h := s.rd Reg.HST_RHNUM_HNUM (s.rd Reg.HIF_SPCFG_RING r)
      if !s.spFormat r d then State.spDrop r k ((s.wrB Reg.HIF_RSTAT_FMT true r).spPop r)
      else if sInt 32 (d.hnum + 2 ^ 32 - h) ≤ 0 then State.spDrop r k ((s.inc Reg.HIF_SPCNT_LATE r).spPop r)
      else s

/-- The descriptors of a stream at the instant of hoist `k` at time `t` (R287, R288). [DEDUCED, log 103] -/
def State.spServe (r k t earlier : Nat) : Nat → State → State
  | 0, s => s
  | fuel + 1, s =>
    match tabAt [] s.hif.sps r with
    | [] => s
    | d :: _ =>
      let diff := sInt 32 (d.hnum + 2 ^ 32 - k)
      if !s.spFormat r d then State.spServe r k t earlier fuel ((s.wrB Reg.HIF_RSTAT_FMT true r).spPop r)
      else if 0 < diff then s
      else if diff = 0 ∧ d.rang + 10000 ≤ t ∧ earlier ≤ 16 then
        let w := (upFrom 0 4).map fun i => (⟨d.raw.extractLsb' (64 * i) 64, false⟩ : Cw)
        let s1 := s.srcWrite hifPort 9 (.hoist (s.rd Reg.HIF_SPCFG_RING r) k) false (s.rd Reg.HIF_SPBASE_BASE r * 32 + 32 * d.slot) w
        State.spServe r k t earlier fuel (s1.spPop r)
      else State.spServe r k t earlier fuel ((s.inc Reg.HIF_SPCNT_LATE r).spPop r)

/-- One stream at an instant of its ring: its descriptors, and the underrun (R288). [DEDUCED, log 103] -/
def State.spInstant (s : State) (r k t : Nat) : State :=
  let q := tabAt [] s.hif.sps r
  let earlier := (q.filter fun d => decide (sInt 32 (d.hnum + 2 ^ 32 - k) < 0)).length
  let s1 := State.spServe r k t earlier q.length s
  if q.any fun d => d.hnum == k && s.spFormat r d then { s1 with hif := { s1.hif with spHad := setIns s1.hif.spHad r } }
  else if s1.bit Reg.HIF_SPCFG_EVERY r then
    let s2 := s1.inc Reg.HIF_SPCNT_UNDER r
    let s3 := if s2.hif.spHad.contains r then s2.tally 0x0106 r 0 k else s2
    { s3 with hif := { s3.hif with spHad := setDel s3.hif.spHad r } }
  else { s1 with hif := { s1.hif with spHad := setDel s1.hif.spHad r } }

/-- The running streams of a hoist ring. -/
def State.spRings (s : State) (n : Nat) : List Nat :=
  (upFrom 2 32).filter fun r => s.bit Reg.HIF_RSTAT_RUN r && s.rd Reg.HIF_SPCFG_RING r == n

/-- Everything the host has due at an instant: the streams in ascending number, then the held command (R283). -/
def State.hostInstant (s : State) (n k t : Nat) : State := (s.over (s.spRings n) fun r s => s.spInstant r k t).athInstant n k

/-! ### Doorbells (R279) -/

/-- A doorbell of a ring; for a set-point stream, the descriptors it covers. [DESIGN CHOICE, log 101] -/
def State.doorbell (s : State) (r c : Nat) (descs : List (BitVec 256)) : State :=
  let old := s.hostCount r
  let m := s.rd Reg.HIF_RCNT_CNT r
  let diff := fun (a b : Nat) => sInt 32 (a + 2 ^ 32 - b)
  if !s.bit Reg.HIF_RSTAT_RUN r then
    let s1 := (s.inc Reg.HIF_DBIGN_EARLY).wr Reg.HIF_DBLAST_RING r
    if s1.hif.earlyTold then s1 else ({ s1 with hif := { s1.hif with earlyTold := true } }).tally 0x0101 r
  else if c = old then s
  else if (if hostProduces r then decide (0 ≤ diff c old) && decide (diff c m ≤ (s.ringSlots r : Int))
      else decide (0 ≤ diff c old) && decide (diff c m ≤ 0)) then
    let s1 := { s with hif := { s.hif with host := tabPut 0 s.hif.host r c, earlyTold := false } }
    if isSp r then
      let fresh := (descs.take ((c + 2 ^ 32 - old) % 2 ^ 32)).map fun d => (⟨d, s1.T⟩ : SpDesc)
      let q := tabAt [] s1.hif.sps r ++ fresh
      let s2 := s1.over (upFrom old fresh.length) fun n a => a.toHost (.read (a.slotAddr r n) 32)
      State.spDrop r q.length { s2 with hif := { s2.hif with sps := tabPut [] s2.hif.sps r q } }
    else if r = ringCpl then s1.hifRun
    else if isRs r then s1.rsWait (r - 34)
    else s1
  else (s.inc Reg.HIF_DBIGN_BAD).wrB Reg.HIF_RSTAT_DBBAD true r
/-- A doorbell of the host: behind every BAR0 write that still waits for a tick boundary (R273, R408); none in D3hot (R272). -/
def State.hostDoorbell (s : State) (r : Nat) (count : Word) (descs : List (BitVec 256)) : State :=
  if s.hif.d3 then s.toHost .unsupported
  else if s.tly.deferred = [] then s.doorbell r count.toNat descs
  else { s with tly := { s.tly with deferred := s.tly.deferred ++ [(0xF0000 + 4 * r, count, descs)] } }
/-- DOORBELL. -/
def execDoorbell (r : Fin 42) (count : Word) (descs : List (BitVec 256)) (s : State) : Host.Outcome State Fault Refusal :=
  .next (s.hostDoorbell r count descs)

/-! ### BAR2 (R274) -/

/-- Landing offsets of BAR2 end here. -/
def bar2Cw (off : Nat) : Nat := off / 8 * 8

/-- Read the codewords that an access covers: data, whether the completion is poisoned, and the first poisoned codeword. -/
def State.bar2Cws (s : State) (off n : Nat) : (List Cw × Bool × Option Nat) × State :=
  (upFrom 0 n).foldl
    (fun (a : (List Cw × Bool × Option Nat) × State) i =>
      let o := off + 8 * i
      if o ≥ lndSize then ((a.1.1 ++ [Cw.zero], a.1.2), a.2.wrB Reg.HIF_STAT_B2OOR true)
      else if a.2.onRetired o then ((a.1.1 ++ [Cw.zero], true, a.1.2.2), a.2.wrB Reg.HIF_STAT_RETACC true)
      else
        let (c, t) := a.2.readCw .land (a.2.lndCw o) hifPort
        let first := match a.1.2.2 with | some x => some x | none => if c.poison then some (t.lndCw o) else none
        ((a.1.1 ++ [c], a.1.2.1 || c.poison, first), t)) (([], false, none), s)

/-- A host read through BAR2. [DEDUCED, log 104] -/
def State.bar2Read (s : State) (off n : Nat) : State :=
  if s.hif.d3 then s.toHost .unsupported
  else
    let k := (off % 8 + n + 7) / 8
    let s0 := if off < lndSize then s.noteRetired hifPort off (Nat.min n (lndSize - off)) else s
    let ((cws, ep, first), s1) := s0.bar2Cws (bar2Cw off) k
    let s2 := match first with
      | none => s1
      | some w =>
        let loc := cwLocator .land w none
        let s3 := if s1.bit Reg.HIF_STAT_PSNRD then s1
          else ((s1.wrB Reg.HIF_STAT_PSNRD true).wr Reg.HIF_PSNLOCL_LOC loc).wr Reg.HIF_PSNLOCH_LOC (loc / 2 ^ 32)
        s3.tallyLoc 0x0105 loc
    s2.toHost (.completion (((cwBytes cws).drop (off % 8)).take n) ep)
/-- BAR2_READ. -/
def execBar2Read (off : BitVec 26) (n : Fin 4097) (s : State) : Host.Outcome State Fault Refusal := .next (s.bar2Read off.toNat n)

/-- Write the enabled bytes that fall into one codeword. -/
def State.bar2Word (s : State) (o : Nat) (l : List (Option Byte)) : State :=
  let mask := (upFrom 0 8).foldl (fun a i => a + b2n (l.getD i none).isSome * 2 ^ i) 0
  let d := (upFrom 0 8).foldl (fun a i => a + ((l.getD i none).getD 0#8).toNat * 256 ^ i) 0
  if mask = 0 then s
  else if o ≥ lndSize then s.wrB Reg.HIF_STAT_B2OOR true
  else if s.onRetired o then s.wrB Reg.HIF_STAT_RETACC true
  else s.lndCwWrite hifPort o (BitVec.ofNat 8 mask) (BitVec.ofNat 64 d) false

/-- A host write through BAR2: bytes with their enables. [DEDUCED, log 104] -/
def State.bar2Write (s : State) (off : Nat) (data : List (Option Byte)) : State :=
  if s.hif.d3 then s.toHost .unsupported
  else
    let l := List.replicate (off % 8) none ++ data
    let s0 := if off < lndSize then s.noteRetired hifPort off (Nat.min data.length (lndSize - off)) else s
    s0.over (upFrom 0 ((l.length + 7) / 8)) fun i s => s.bar2Word (bar2Cw off + 8 * i) ((l.drop (8 * i)).take 8)
/-- BAR2_WRITE. -/
def execBar2Write (off : BitVec 26) (data : List (Option Byte)) (s : State) : Host.Outcome State Fault Refusal :=
  .next (s.bar2Write off.toNat data)

/-! ### Event F and configuration requests (R271, R272) -/

/-- HIF as after a reset: rings, MSI-X, configuration space, in D0. -/
def State.hifClear (s : State) : State := { s with hif := {} }

/-- Event F (R272): the command in progress ends with what it has moved. A field outside the host interface is reset only if
the event names its block; R13 gives a dash to some of those too. [DEDUCED, log 106 and 133] -/
def State.eventF (s : State) : State :=
  let s1 := match s.hif.cmds with
    | c :: _ => if c.posting || c.moved.isSome then s.tally 0x0103 c.d.tag.toNat 0 (8 * c.moved.getD 0) else s
    | [] => s
  let s2 := s1.over (upFrom 2 40) fun r a => if a.bit Reg.HIF_RSTAT_RUN r then a.tally 0x0104 r else a
  ({ s2 with regs := regsAfter .f false [1, 15] s2.regs }).hifClear
/-- FUNCTION_LEVEL_RESET. -/
def execFunctionLevelReset (s : State) : Host.Outcome State Fault Refusal := .next s.eventF

/-- The interface becomes ready, which it does only once the blaze is set (R271, R439). [PRESUMED, log 105] -/
def State.hifReady (s : State) : State := if s.bit Reg.PWR_BSTAT_BLAZE then s.wrB Reg.HIF_STAT_READY true else s
/-- HIF_READY. -/
def execHifReady (s : State) : Host.Outcome State Fault Refusal := .next s.hifReady

/-- What a configuration read shows (R270, R273, R274): identity, command register, class, header type, the two BARs (64-bit,
1 MiB and 64 MiB, the second prefetchable), no other BAR and no interrupt pin; what PCI Express defines beyond them is free
here. [PRESUMED, log 105] -/
def State.cfgWord (s : State) (dw : Nat) : Word × State :=
  let (i, s1) := s.draw
  let w := (Config.freeWord i).toNat
  (BitVec.ofNat 32 (match dw with
    | 0 => 0x48721F7E
    | 1 => s.hif.cfgCmd + w / 0x10000 * 0x10000
    | 2 => 0x11800000 + w % 256
    | 3 => w % 0x10000 + w / 0x1000000 * 0x1000000
    | 4 => s.hif.bar0 % 2 ^ 32 + 4
    | 5 => s.hif.bar0 / 2 ^ 32
    | 6 => s.hif.bar2 % 2 ^ 32 + 0xC
    | 7 => s.hif.bar2 / 2 ^ 32
    | 8 => 0
    | 9 => 0
    | 15 => w % 256 + w / 0x10000 * 0x10000
    | _ => w), s1)

/-- Put bits [31:16] or the low word of a BAR: the address bits at and above its size. -/
def barPut (old lo hi v : Nat) (high : Bool) : Nat :=
  if high then old % 2 ^ 32 + v * 2 ^ 32 else old / 2 ^ 32 * 2 ^ 32 + v % hi / lo * lo

/-- A configuration write of the command register (Memory Space, Bus Master, parity, SERR and INTx disable bits) or of a BAR
is held; every other one changes nothing that the manual names. [PRESUMED, log 105] -/
def State.cfgPut (s : State) (dw v : Nat) : State :=
  match dw with
  | 1 => { s with hif := { s.hif with cfgCmd := Nat.land v 0x546 } }
  | 4 => { s with hif := { s.hif with bar0 := barPut s.hif.bar0 0x100000 (2 ^ 32) v false } }
  | 5 => { s with hif := { s.hif with bar0 := barPut s.hif.bar0 0x100000 (2 ^ 32) v true } }
  | 6 => { s with hif := { s.hif with bar2 := barPut s.hif.bar2 0x4000000 (2 ^ 32) v false } }
  | 7 => { s with hif := { s.hif with bar2 := barPut s.hif.bar2 0x4000000 (2 ^ 32) v true } }
  | _ => s

/-- Whether the function has a capability (R270): PCI Express, MSI-X and Power Management, and the extended ones Advanced
Error Reporting and Device Serial Number; it has neither MSI nor one of the options not supported. [PRESUMED, log 105] -/
def hasCapability (ext : Bool) (id : Nat) : Bool :=
  if ext then [0x1, 0x3].contains id else [0x01, 0x10, 0x11].contains id

/-- Word `w` of a capability the function has (R270, R273): its identifier, the 64 vectors, enable and function mask of MSI-X
with the offsets of its table and its pending bits in BAR0, and the power state; the rest is free. [PRESUMED, log 105] -/
def State.capWord (s : State) (ext : Bool) (id w : Nat) : Word × State :=
  let (i, s1) := s.draw
  let x := (Config.freeWord i).toNat
  (BitVec.ofNat 32 (match ext, id, w with
    | false, 0x11, 0 => 0x11 + x / 256 % 256 * 256 + 63 * 2 ^ 16 + b2n s.hif.msixMask * 2 ^ 30 + b2n s.hif.msixOn * 2 ^ 31
    | false, 0x11, 1 => 0x18000
    | false, 0x11, 2 => 0x19000
    | false, 0x01, 1 => x / 4 * 4 + (if s.hif.d3 then 3 else 0)
    | false, _, 0 => id + x / 256 * 256
    | true, _, 0 => id + x / 0x10000 * 0x10000
    | _, _, _ => x), s1)

/-- A request outside the BARs (R270, R271): a configuration request is answered, with CRS while the island is not ready, and
one that needs an option not supported ends in Unsupported Request. [PRESUMED, log 105] -/
def State.configRequest (s : State) (r : CfgReq) : State :=
  match r with
  | .unsupported => s.toHost .unsupported
  | r =>
    if !s.bit Reg.HIF_STAT_READY then s.toHost .crs
    else match r with
      | .read dw => let (v, s1) := s.cfgWord dw.toNat; s1.toHost (.config v)
      | .write dw v => (s.cfgPut dw.toNat v.toNat).toHost .configDone
      | .capability ext id w =>
        if hasCapability ext id.toNat then let (v, s1) := s.capWord ext id.toNat w.toNat; s1.toHost (.config v)
        else s.toHost .absent
      | .power d3 =>
        let s1 := s.toHost .configDone
        if s.hif.d3 && !d3 then s1.eventF else { s1 with hif := { s1.hif with d3 := d3 } }
      | .msix en mask => (({ s with hif := { s.hif with msixOn := en, msixMask := mask } }).msixUnmask).toHost .configDone
      | .unsupported => s.toHost .unsupported
/-- CONFIG_REQUEST. -/
def execConfigRequest (r : CfgReq) (s : State) : Host.Outcome State Fault Refusal := .next (s.configRequest r)

/-- CLRCNT. -/
def State.hifClrcnt (s : State) : State :=
  ((s.wr Reg.HIF_DBIGN_EARLY 0).wr Reg.HIF_DBIGN_BAD 0).over (upFrom 2 32) fun r s =>
    (s.wr Reg.HIF_SPCNT_UNDER 0 r).wr Reg.HIF_SPCNT_LATE 0 r
/-- HIF_CLRCNT. -/
def execHifClrcnt (s : State) : Host.Outcome State Fault Refusal := .next s.hifClrcnt

end Sys2Proof.Machine
end

