-- ==== Sys2Proof/Machine/Net.lean ====
section
/-! DEFINITION. Ethernet ports (R291 to R293), network time (R294 to R298) and the side path (R299 to R301). -/
namespace Sys2Proof.Machine

/-- Landing port of the NET island (R24). -/
def netPort : Nat := 5

/-! ### Ports and frames -/

/-- A network event: a summary bit that becomes set raises the host event. -/
def State.netEvent (s : State) (f : Field) : State := s.setSticky 9 f

/-- The MAC address of a port, in transmission order. [DEDUCED, log 72] -/
def State.portMac (s : State) (n : Nat) : List Byte := beBytes 6 (s.rd Reg.NET_MACL_MAC n + s.rd Reg.NET_MACH_MAC n * 2 ^ 32)

/-- Zero bytes up to a length. -/
def padTo (n : Nat) (l : List Byte) : List Byte := l ++ List.replicate (n - l.length) 0#8

/-- The tag of the frames that a port sends (R291). -/
def State.portTag (s : State) (port : Nat) : List Byte :=
  if s.bit Reg.NET_PCFG_VLAN port then
    beBytes 2 0x8100 ++ beBytes 2 (s.rd Reg.NET_PCFG_PCP port * 8192 + s.rd Reg.NET_PCFG_VID port)
  else []

/-- A frame from destination address to the end of the data, tagged and padded (R291). [DEDUCED, log 72] -/
def State.ethFrame (s : State) (port : Nat) (dest : List Byte) (etype : Nat) (data : List Byte) : List Byte :=
  padTo 60 (dest ++ s.portMac port ++ s.portTag port ++ beBytes 2 etype ++ data)

/-- Hand frames to the ports. -/
def State.netSend (s : State) (ports : Nat) (bytes : List Byte) : State := { s with netOut := s.netOut ++ [.frame ports bytes] }

/-- A received frame: source address, EtherType and data, the tag removed. -/
structure EthIn where
  src : List Byte
  etype : Nat
  data : List Byte
deriving DecidableEq, Repr

/-- A frame without the tag it may carry (R291). -/
def untag (b : List Byte) : List Byte := if beNat ((b.drop 12).take 2) = 0x8100 then b.take 12 ++ b.drop 16 else b

/-- Take a frame apart: source address, EtherType and data without a tag. -/
def ethParse (b : List Byte) : EthIn :=
  let u := untag b
  ⟨(u.drop 6).take 6, beNat ((u.drop 12).take 2), u.drop 14⟩

/-- A PAUSE frame, which is discarded (R291). [DEDUCED, log 72] -/
def EthIn.pause (e : EthIn) : Bool := decide (e.etype = 0x8808) && decide (beNat (e.data.take 2) = 1)

/-- A PTP event message: message types 0 to 3 of the standard. [DEDUCED, log 72] -/
def EthIn.ptpEvent (e : EthIn) : Bool := decide (e.etype = 0x88F7) && decide ((e.data.getD 0 0#8).toNat % 16 < 4)

/-- Where a frame goes (R292). -/
inductive NetClass where
  | ptp | pennant | side | none
deriving DecidableEq, Repr

/-- Classify a frame (R292); a PAUSE frame goes nowhere (R291). -/
def State.netClass (s : State) (port : Nat) (e : EthIn) : NetClass :=
  if e.pause then .none
  else if e.etype = 0x88F7 ∧ s.bit Reg.NET_PTPCFG_EN ∧ bitAt (s.rd Reg.NET_PTPCFG_PORTS) port then .ptp
  else if e.etype = s.rd Reg.NET_PNETYPE_ETYPE ∧ s.bit Reg.NET_PCFG_PNEN port then .pennant
  else if s.bit Reg.NET_PCFG_SIDEEN port then .side
  else .none

/-- A frame arrives at a port: `none` where it is not received at all or discarded for its FCS or length (R291). -/
def State.netArrive (s : State) (port : Nat) (b : List Byte) (fcsOk : Bool) : Option EthIn × State :=
  if !s.bit Reg.NET_PCFG_EN port || !s.bit Reg.NET_PSTAT_LINK port then (none, s)
  else if !fcsOk || decide (b.length < 60) || decide (1518 < b.length) then (none, s.inc Reg.NET_PCNT_FCS port)
  else (some (ethParse b), s)

/-- The first seal of a ring after time `t`. -/
def RingSt.sealAfter (r : RingSt) (t : Nat) : Nat :=
  let first := r.next + r.slin * 5
  if r.begun && decide (t < r.seal_) then r.seal_
  else if t < first then first
  else first + ((t - first) / r.perNs + 1) * r.perNs

/-- Whether a station uses a ring on a port. -/
def State.ringOnPort (s : State) (n port : Nat) : Bool :=
  s.net.stations.any fun (p : Nat × StnSt) => p.2.rcd.en && p.2.rcd.ring == n && bitAt p.2.rcd.pmask port

/-- Whether the wire of a port is kept free for a seal at time `t` (R293): the 2,600 ticks before it. -/
def State.guardAt (s : State) (port t : Nat) : Bool :=
  s.bit Reg.NET_PCFG_PNEN port && (upFrom 0 8).any fun n =>
    (s.ring n).live && s.ringOnPort n port && decide ((s.ring n).sealAfter t ≤ t + 13000)
/-- Whether it is kept free now. -/
def State.inGuard (s : State) (port : Nat) : Bool := s.guardAt port s.T

/-! ### Network time (R294 to R298) -/

/-- State of a PTP port. -/
def State.ptpState (s : State) (port : Nat) : Nat := bitsOf (s.rd Reg.NET_PTPPST_STATE) (4 * port) 4
/-- Set it. -/
def State.setPtpState (s : State) (port v : Nat) : State :=
  let w := s.rd Reg.NET_PTPPST_STATE
  s.wr Reg.NET_PTPPST_STATE (w - bitsOf w (4 * port) 4 * 2 ^ (4 * port) + v % 16 * 2 ^ (4 * port))

/-- portState values of the standard. -/
def ptpListening : Nat := 4
def ptpSlave : Nat := 9
def ptpMaster : Nat := 6

/-- Edges of an interval of 2^ivl seconds. -/
def ivlEdges (ivl : Int) : Nat := if 0 ≤ ivl then 200000000 * 2 ^ ivl.toNat else 200000000 / 2 ^ ivl.natAbs
/-- The announce and the sync interval of the module, logarithms within what the engine supports (R294). [DESIGN CHOICE, log 73] -/
def State.annIvl (s : State) : Int := clampI (-3) 4 (s.rdS Reg.NET_PTPIVL_ANN)
def State.syncSendIvl (s : State) : Int := clampI (-7) 1 (s.rdS Reg.NET_PTPIVL_SYNC)
def State.dreqIvl (s : State) : Int := clampI (-7) 4 (s.rdS Reg.NET_PTPIVL_DREQ)
/-- The domain of the engine (R294): 0 in IEEE 802.1AS. -/
def State.ptpDomain (s : State) : Nat := if s.rd Reg.NET_PTPCFG_PROF = 2 then 0 else s.rd Reg.NET_PTPCFG_DOMAIN
/-- Whether the profile measures the delay end to end (R294). -/
def State.e2e (s : State) : Bool := decide (s.rd Reg.NET_PTPCFG_PROF = 0)

/-- Whether a port is a PTP port of a running engine (R294). [DEDUCED, log 76] -/
def State.ptpOn (s : State) (port : Nat) : Bool :=
  s.bit Reg.NET_PTPCFG_EN && decide (s.rd Reg.NET_PTPCFG_PROF ≠ 3) && bitAt (s.rd Reg.NET_PTPCFG_PORTS) port
    && s.bit Reg.NET_PCFG_EN port

/-- The port in SLAVE, if any. -/
def State.ptpSlavePort (s : State) : Option Nat := (upFrom 0 4).find? fun p => s.ptpOn p && s.ptpState p == ptpSlave

/-- A port enters LISTENING (R296). -/
def State.ptpListen (s : State) (port : Nat) : State :=
  let s1 := s.setPtpState port ptpListening
  { s1 with net := { s1.net with listen := tabPut 0 s1.net.listen port (s1.time.edge + 1) } }

/-- PTP ports after a write to NET_PTPCFG, NET_PCFG or a link change: a port newly enabled listens, others show 0. [DEDUCED, log 75] -/
def State.ptpRefresh (s : State) : State :=
  s.over (upFrom 0 4) fun p s =>
    if s.ptpOn p && s.bit Reg.NET_PSTAT_LINK p then (if s.ptpState p = 0 then s.ptpListen p else s)
    else
      let s1 := s.setPtpState p 0
      { s1 with net := { s1.net with
        listen := tabDel s1.net.listen p, orphan := s1.net.orphan || decide (s.ptpState p = ptpSlave) } }

/-- NET_GMID. -/
def State.gmId (s : State) : Nat := s.rd Reg.NET_GMIDL_ID + s.rd Reg.NET_GMIDH_ID * 2 ^ 32

/-- Enter holdover (R298). [DEDUCED, log 75] -/
def State.holdEnter (s : State) : State :=
  let s1 := ((s.wrB Reg.HST_TSTAT_HOLDOVER true).wrB Reg.NET_SRVSTAT_HOLDENT true).netEvent Reg.NET_EVSUM_HOLD
  let s2 := (s1.wrB Reg.NET_SRVSTAT_LOCKED false).tally 0x0902 0 0 s1.gmId
  { s2 with net := { s2.net with qual := some 0, lockRun := 0, orphan := false } }

/-- The state a port may take: a listening port takes neither MASTER nor PRE_MASTER (R296). [DESIGN CHOICE, log 73] -/
def State.ptpAllowed (s : State) (port v : Nat) : Nat :=
  if tabAt 0 s.net.listen port ≠ 0 ∧ (v = 5 ∨ v = 6) then ptpListening else v

/-- A timestamp of a received event message (R295): device time, within 4 ns. -/
def State.rxStamp (s : State) (err : Fin 9) : Int := (s.T : Int) + err.val - 4

/-- Whether a message carries a delay by the mechanism of the profile (R294): Delay_Resp, or Pdelay_Resp and its Follow_Up. -/
def State.delayKind (s : State) (kind : Nat) : Bool := if s.e2e then decide (kind = 9) else decide (kind = 3) || decide (kind = 10)

/-- The engine takes a message (R294): the port states and the delay that the standard's algorithms make of it, and from an
Announce the grandmaster (R298). [DESIGN CHOICE, log 73; DEDUCED, log 75] -/
def State.ptpTake (s : State) (port kind : Nat) (r : PtpResult) : State :=
  let wasSlave := s.ptpSlavePort.isSome
  let s1 := s.over (upFrom 0 4) fun p s =>
    if s.ptpOn p then s.setPtpState p (s.ptpAllowed p (bitsOf r.states.toNat (4 * p) 4)) else s
  let s2 := match r.delay with | some d => if s1.delayKind kind then s1.wr Reg.NET_SRVDLY_DLY d.toNat else s1 | none => s1
  -- a port that becomes SLAVE counts its time-outs from here
  let fresh := !wasSlave && s2.ptpSlavePort.isSome
  let s3 := { s2 with net := { s2.net with
    annAt := if fresh || (decide (kind = 11) && s2.ptpSlavePort == some port) then s2.time.edge else s2.net.annAt
    syncAt := if fresh then s2.time.edge else s2.net.syncAt
    orphan := s2.net.orphan && !s2.ptpSlavePort.isSome } }
  if kind ≠ 11 then s3
  else
    let s4 := (s3.wr Reg.NET_GMIDL_ID r.gm.toNat).wr Reg.NET_GMIDH_ID (r.gm.toNat / 2 ^ 32)
    if decide (s3.gmId ≠ r.gm.toNat) && wasSlave then
      (((s4.wrB Reg.NET_SRVSTAT_GMCHG true).netEvent Reg.NET_EVSUM_GM).tally 0x0903 0 0 r.gm.toNat).holdEnter
    else s4

/-- PTP_MESSAGE_RECEIVE: a message of the PTP engine, by its type; a management message and one of another domain are
discarded (R294), and an event message is timestamped (R295). [DESIGN CHOICE, log 73] -/
def execPtpMessageReceive (port : Fin 4) (kind : Fin 16) (domain : BitVec 8) (err : Fin 9) (r : PtpResult) (s : State) :
    Host.Outcome State Fault Refusal :=
  if !s.ptpOn port || !s.bit Reg.NET_PSTAT_LINK port then .next s
  else
    let s1 := if kind.val < 4 then
        { s with net := { s.net with ptpRx := tabPut 0 s.net.ptpRx port.val (uOf 64 (s.rxStamp err)) } }
      else s
    if kind.val = 13 ∨ domain.toNat ≠ s.ptpDomain then .next s1
    else .next (s1.ptpTake port kind r)

/-- HOLDOVER_ENTER: three sync intervals without a Sync, or the announce receipt timeout of the SLAVE port, three announce
intervals (R294, R298); time advances to it. The announce timeout leaves no port in SLAVE. A SLAVE port that lost its link
times out too. [DEDUCED, log 75] -/
def execHoldoverEnter (syncLost : Bool) (s : State) : Host.Outcome State Fault Refusal :=
  if !s.ptpSlavePort.isSome && !s.net.orphan then .next s
  else
    let due := if syncLost then s.net.syncAt + 3 * ivlEdges s.net.syncIvl else s.net.annAt + 3 * ivlEdges s.annIvl
    let s1 := s.advanceEdge due
    let s2 := match s1.ptpSlavePort with
      | some p => if syncLost then s1 else s1.ptpListen p
      | none => s1
    .next s2.holdEnter

/-- Leave holdover once enough samples have qualified (R298). -/
def State.holdExit (s : State) : State :=
  match s.net.qual with
  | some q =>
    if max 1 (s.rd Reg.NET_SRVCFG_HOLDQ) ≤ q then
      let s1 := s.wrB Reg.HST_TSTAT_HOLDOVER false
      { s1 with net := { s1.net with qual := none } }
    else s
  | none => s
/-- HOLDOVER_EXIT. -/
def execHoldoverExit (s : State) : Host.Outcome State Fault Refusal := .next s.holdExit

/-- Eight samples in a row within LOCKTHR (R297). [DEDUCED, log 75] -/
def State.servoLock (s : State) : State := if 8 ≤ s.net.lockRun then s.wrB Reg.NET_SRVSTAT_LOCKED true else s
/-- SERVO_LOCK. -/
def execServoLock (s : State) : Host.Outcome State Fault Refusal := .next s.servoLock

/-- The binary64 value nearest to 10^-9. -/
def nano64 : Nat := fOfRatio b64 1 1000000000
/-- The limit of I. -/
def integMax : Nat := fOfRatio b64 5 10000
/-- Two to an integer power, binary64. -/
def pow2f (e : Int) : Nat := fOfScaled b64 1 e

/-- Clamp a binary64 value. [DEDUCED, log 74] -/
def clampSym (lim x : Nat) : Nat :=
  if fLt b64 lim x then lim else if fLt b64 x (fNeg b64 lim) then fNeg b64 lim else x

/-- The rate branch of the servo (R297). `o`: offset in ns, binary64; `ts`: sync interval in s, binary64. [DEDUCED, log 74] -/
def State.servoRate (s : State) (o ts : Nat) : State :=
  let kp := to64 (s.rd Reg.NET_SRVKP_KP)
  let ki := to64 (s.rd Reg.NET_SRVKI_KI)
  let i := clampSym integMax (add64 s.net.integ (mul64 (mul64 (mul64 ki o) nano64) ts))
  let x := fNeg b64 (add64 (mul64 (mul64 kp o) nano64) i)
  let r := clampI (-2147483648) 2147483647 (fRoundScaled b64 x 32)
  let s1 := s.wrS Reg.HST_RATE_RATE r
  { s1 with net := { s1.net with integ := i } }

/-- Offsets are given in units of 2^-16 ns. [DEDUCED, log 74] -/
def roundNs (o : Int) : Int := divRoundEven o 65536

/-- Load device time so that it moves by `d` ns (R34). -/
def State.stepBy (s : State) (d : Int) : State :=
  let t := ((s.T : Int) + d).toNat
  s.loadTime (t / 1000000000) (t % 1000000000)

/-- The servo proper, while it owns the rate (R297). [DEDUCED, log 74 and 75] -/
def State.servo (s : State) (o : Int) (ts : Nat) : State :=
  if s.bit Reg.HST_TSTAT_SLEWBUSY then s
  else
    match s.net.qual with
    | some q => ({ s with net := { s.net with qual := some (q + 1) } }).holdExit
    | none =>
      if !s.bit Reg.HST_TCTL_SERVO then s
      else if (s.rd Reg.NET_SRVTHR_THR : Int) * 65536 < o.natAbs then
        if s.anyRing then (s.slewWrite (uOf 32 (clampI (-2147483648) 2147483647 (-(roundNs o))))).wrB Reg.NET_SRVSTAT_SLEWING true
        else
          let s1 := s.stepBy (-(roundNs o))
          { s1 with net := { s1.net with integ := 0 } }
      else s.servoRate (fOfRatio b64 o 65536) ts

/-- The offset from the master (R295, R297), in units of 2^-16 ns: the timestamp of the Sync less the master's time of it and
the mean delay. [DESIGN CHOICE, log 73] -/
def State.syncOffset (s : State) (origin : Int) (err : Fin 9) : Int :=
  (s.rxStamp err - (s.rd Reg.NET_SRVDLY_DLY : Int)) * 65536 - origin

/-- A Sync on the SLAVE port with its offset from the master in units of 2^-16 ns and its logSyncInterval (R297). -/
def State.syncTake (s : State) (offset : Int) (ivl : Int) : State :=
  let thr := s.rd Reg.NET_SRVCFG_LOCKTHR * 65536
  let s0 := s.wrS Reg.NET_SRVOFS_OFS (clampI (-2147483648) 2147483647 (roundNs offset))
  let n := if offset.natAbs ≤ thr then Nat.min 8 (s0.net.lockRun + 1) else 0
  let s1 := { s0 with net := { s0.net with lockRun := n, syncAt := s0.time.edge, syncIvl := ivl } }
  let s2 := if 4 * thr < offset.natAbs then s1.wrB Reg.NET_SRVSTAT_LOCKED false else s1.servoLock
  s2.servo offset (pow2f ivl)

/-- SYNC_RECEIVE: a Sync, by the master's time of it with its corrections in units of 2^-16 ns (R297), timestamped at the
connector (R295). [DESIGN CHOICE, log 73] -/
def execSyncReceive (port : Fin 4) (origin : Int) (err : Fin 9) (logIvl : BitVec 8) (s : State) :
    Host.Outcome State Fault Refusal :=
  if !s.ptpOn port || !s.bit Reg.NET_PSTAT_LINK port then .next s
  else
    let s1 := { s with net := { s.net with ptpRx := tabPut 0 s.net.ptpRx port.val (uOf 64 (s.rxStamp err)) } }
    if s1.ptpState port ≠ ptpSlave then .next s1
    else .next (s1.syncTake (s1.syncOffset origin err) logIvl.toInt)

/-- LISTENING_END: three announce intervals have passed; the algorithm places the port (R296). -/
def execListeningEnd (port : Fin 4) (st : Fin 16) (s : State) : Host.Outcome State Fault Refusal :=
  match tabAt 0 s.net.listen port with
  | 0 => .next s
  | e + 1 =>
    if !s.ptpOn port then .next s
    else
      let s1 := s.advanceEdge (e + 3 * ivlEdges s.annIvl)
      .next (({ s1 with net := { s1.net with listen := tabDel s1.net.listen port } }).setPtpState port st.val)

/-- Put a PTP message on the wire (R294): clockClass as R298 has it. -/
def State.ptpPut (s : State) (port kind : Nat) (ivl : Int) : State :=
  let cls := if s.bit Reg.HST_TSTAT_HOLDOVER then s.rd Reg.NET_PTPCLS_HCLASS else s.rd Reg.NET_PTPCLS_CLASS
  { s with netOut := s.netOut ++ [.ptp
    { port := port, kind := kind, htime := s.htime, domain := s.ptpDomain, cls := cls
      prio1 := s.rd Reg.NET_PTPCFG_PRIO1, prio2 := s.rd Reg.NET_PTPCFG_PRIO2, gm := s.gmId, ivl := ivl }] }

/-- The logMessageInterval of a message type: Announce, Sync and Follow_Up, or the request interval. [DESIGN CHOICE, log 73] -/
def State.kindIvl (s : State) (kind : Nat) : Int :=
  if kind = 11 then s.annIvl else if kind = 0 ∨ kind = 8 then s.syncSendIvl else s.dreqIvl

/-- Send a PTP message now (R294): a Sync and a Pdelay_Resp take two steps, the Follow_Up carrying the timestamp. -/
def State.ptpSend (s : State) (port kind : Nat) : State :=
  if s.replaying then s
  else
    let s1 := s.ptpPut port kind (s.kindIvl kind)
    let s2 := { s1 with net := { s1.net with
      annSent := if kind = 11 then tabPut 0 s1.net.annSent port (s1.time.edge + 1) else s1.net.annSent
      syncSent := if kind = 0 then tabPut 0 s1.net.syncSent port (s1.time.edge + 1) else s1.net.syncSent } }
    if kind = 0 then s2.ptpPut port 8 (s2.kindIvl 8) else if kind = 3 then s2.ptpPut port 10 (s2.kindIvl 10) else s2

/-- Whether the engine sends a message of this type on a port (R294): Announce, Sync and Delay_Resp as MASTER, Delay_Req before
and as SLAVE, end to end; Pdelay messages peer to peer; signalling; never management, nor a Follow_Up by itself. [DESIGN CHOICE, log 73] -/
def State.ptpSends (s : State) (port kind : Nat) : Bool :=
  match kind with
  | 0 | 11 => s.ptpState port == ptpMaster
  | 1 => s.e2e && (s.ptpState port == ptpSlave || s.ptpState port == 8)
  | 9 => s.e2e && s.ptpState port == ptpMaster
  | 2 | 3 => !s.e2e
  | 12 => true
  | _ => false

/-- The edge at which a message is due (R294): an Announce or a Sync its interval after the last one of the port. [DESIGN CHOICE, log 73] -/
def State.ptpDue (s : State) (port kind : Nat) : Nat :=
  let last := if kind = 11 then tabAt 0 s.net.annSent port else if kind = 0 then tabAt 0 s.net.syncSent port else 0
  if last = 0 then s.time.edge else last - 1 + ivlEdges (s.kindIvl kind)

/-- PTP_TRANSMIT: a message is due; a guard delays it to the end of the CYCLE_DOWN frames (R293). [DESIGN CHOICE, log 73] -/
def execPtpTransmit (port : Fin 4) (kind : Fin 16) (s : State) : Host.Outcome State Fault Refusal :=
  if !s.ptpOn port || !s.bit Reg.NET_PSTAT_LINK port || !s.ptpSends port kind then .next s
  else
    let s1 := s.advanceEdge (s.ptpDue port kind)
    if s1.inGuard port then .next { s1 with net := { s1.net with ptpPend := s1.net.ptpPend ++ [(port.val, kind.val)] } }
    else .next (s1.ptpSend port kind)

/-- LINK_CHANGE. [DEDUCED, log 76] -/
def execLinkChange (port : Fin 4) (up : Bool) (s : State) : Host.Outcome State Fault Refusal :=
  if !s.bit Reg.NET_PCFG_EN port || s.bit Reg.NET_PSTAT_LINK port == up then .next s
  else
    let s1 := (((s.wrB Reg.NET_PSTAT_LINK up port).wrB Reg.NET_PSTAT_LINKCHG true port).netEvent Reg.NET_EVSUM_LINK).tally
      0x0906 port (b2n up)
    .next s1.ptpRefresh

/-- A port is enabled or disabled by a write: a disabled port has no link. -/
def State.portConfig (s : State) (port : Nat) : State :=
  if s.bit Reg.NET_PCFG_EN port then s.ptpRefresh else (s.wrB Reg.NET_PSTAT_LINK false port).ptpRefresh

/-! ### Side path (R299 to R301) -/

/-- The side area of a port. -/
def State.sideAt (s : State) (port : Nat) : Nat := s.rd Reg.NET_SBASE_BASE * 0x80000 + 0x20000 * port

/-- A frame lost or skipped on the side path. -/
def State.sideLost (s : State) (port : Nat) : State := (s.wrB Reg.NET_PSTAT_RXDROP true port).inc Reg.NET_PRXD_DROP port

/-- Write a transmit timestamp (R300). [DEDUCED, log 77] -/
def State.sideStamp (s : State) (port seqid t : Nat) : State :=
  let a := s.sideAt port
  let put := tabAt 0 s.net.tsput port
  let ((get, _), s1) := s.lndWord netPort (a + 20)
  if (put + 2 ^ 32 - get) % 2 ^ 32 = 16 then
    ((s1.wrB Reg.NET_PSTAT_TSOVF true port).inc Reg.NET_PCNT_TSOVF port).netEvent Reg.NET_EVSUM_TS
  else
    let s2 := s1.lndWrite netPort (a + 0x40 + 16 * (put % 16)) (leBytes 2 seqid ++ leBytes 6 0 ++ leBytes 8 t)
    let n := (put + 1) % 2 ^ 32
    ({ s2 with net := { s2.net with tsput := tabPut 0 s2.net.tsput port n } }).lndWrite netPort (a + 16) (leBytes 4 n)

/-- A side-path frame as it goes out (R291, R300): tagged where the port tags, and padded. -/
def State.sideFrame (s : State) (port : Nat) (d : List Byte) : List Byte := padTo 60 (d.take 12 ++ s.portTag port ++ d.drop 12)

/-- One transmit slot (R300): its frame goes out at time `t`, and it is answered how long that takes; a slot whose LEN is out
of range, or that holds a PTP event message (R295), is skipped. [DEDUCED, log 77] -/
def State.sideSlot (s : State) (port t : Nat) : Nat × State :=
  let get := tabAt 0 s.net.txget port
  let a := s.sideAt port
  let slot := a + 0x1000 + 2048 * (get % 16)
  let ((h, p), s1) := s.lndBytes netPort slot 8
  let len := leNat (h.take 2)
  let ok := !p && decide (60 ≤ len) && decide (len ≤ 1518)
  let ((d, _), s2) := if ok then s1.lndBytes netPort (slot + 32) len else (([], false), s1)
  let go := ok && !(ethParse d).ptpEvent
  let s3 := if go then s2.netSend (2 ^ port) (s2.sideFrame port d) else s2.sideLost port
  let n := (get + 1) % 2 ^ 32
  let s4 := ({ s3 with net := { s3.net with txget := tabPut 0 s3.net.txget port n } }).lndWrite netPort (a + 4) (leBytes 4 n)
  (if go then ((s.sideFrame port d).length + 24) * 8 else 0,
    if go && bitAt (leNat ((h.drop 2).take 2)) 0 then s4.sideStamp port (leNat ((h.drop 4).take 2)) (t % 2 ^ 64) else s4)

/-- Send the transmit slots up to TXPUT, in order, the next one at time `t`; a guard leaves the rest for the end of the
CYCLE_DOWN frames (R293). `fuel` bounds the slots. [DEDUCED, log 77] -/
def State.sideSend (port put : Nat) : Nat → Nat → State → State
  | 0, _, s => s
  | fuel + 1, t, s =>
    if tabAt 0 s.net.txget port = put then s
    else if s.guardAt port t then { s with net := { s.net with sidePend := setIns s.net.sidePend port } }
    else
      let (d, s1) := s.sideSlot port t
      State.sideSend port put fuel (t + d) s1

/-- Serve the transmit side of a port; a guard leaves it for the end of the CYCLE_DOWN frames (R293). [DEDUCED, log 77] -/
def State.sideServe (s : State) (port : Nat) : State :=
  if !s.bit Reg.NET_PCFG_EN port || !s.bit Reg.NET_PCFG_SIDEEN port || !s.bit Reg.NET_PSTAT_LINK port then s
  else if s.inGuard port then { s with net := { s.net with sidePend := setIns s.net.sidePend port } }
  else
    let ((put, p), s1) := s.lndWord netPort (s.sideAt port)
    if p then s1 else State.sideSend port put 16 s1.T s1
/-- SIDE_TRANSMIT. -/
def execSideTransmit (port : Fin 4) (s : State) : Host.Outcome State Fault Refusal := .next (s.sideServe port)

/-- Receive a side-path frame (R301), its tag removed (R291). [DEDUCED, log 77] -/
def State.sideReceive (s : State) (port : Nat) (frame : List Byte) : State :=
  let b := padTo 60 (untag frame)
  let a := s.sideAt port
  let put := tabAt 0 s.net.rxput port
  let ((get, _), s1) := s.lndWord netPort (a + 12)
  if (put + 2 ^ 32 - get) % 2 ^ 32 = 16 then s1.sideLost port
  else
    let slot := a + 0x10000 + 2048 * (put % 16)
    let s2 := s1.lndWrite netPort slot (leBytes 2 b.length ++ leBytes 6 0 ++ leBytes 8 s1.htime ++ leBytes 16 0 ++ b)
    let n := (put + 1) % 2 ^ 32
    ({ s2 with net := { s2.net with rxput := tabPut 0 s2.net.rxput port n } }).lndWrite netPort (a + 8) (leBytes 4 n)

/-- SIDE_FRAME_RECEIVE: a frame that is neither PTP nor Pennant. -/
def execSideFrameReceive (port : Fin 4) (frame : List Byte) (fcsOk : Bool) (s : State) : Host.Outcome State Fault Refusal :=
  match s.netArrive port frame fcsOk with
  | (none, s1) => .next s1
  | (some e, s1) => .next (if s1.netClass port e = .side then s1.sideReceive port frame else s1)

/-- An ADMIT frame goes out on a port, or waits for the end of a guard (R293). -/
def State.admitOut (s : State) (port : Nat) (frame : List Byte) : State :=
  if s.guardAt port s.T then { s with net := { s.net with admPend := s.net.admPend ++ [(port, frame)] } }
  else s.netSend (2 ^ port) frame

/-- What waited for the end of a guard goes out (R293): ADMIT frames, PTP messages, then the side paths. -/
def State.guardEnd (s : State) : State :=
  let ps := s.net.ptpPend
  let ss := s.net.sidePend
  let as_ := s.net.admPend
  let s0 := { s with net := { s.net with ptpPend := [], sidePend := [], admPend := [] } }
  let s1 := s0.over as_ fun (pf : Nat × List Byte) s => s.admitOut pf.1 pf.2
  let s2 := s1.over ps fun (pk : Nat × Nat) s =>
    if s.inGuard pk.1 then { s with net := { s.net with ptpPend := s.net.ptpPend ++ [pk] } } else s.ptpSend pk.1 pk.2
  s2.over ss fun p s => s.sideServe p

/-- Clear the counters of the island (NET_CTL.CLRCNT). -/
def State.netClrcnt (s : State) : State :=
  let s1 := s.over (upFrom 0 4) fun p s => ((s.wr Reg.NET_PCNT_FCS 0 p).wr Reg.NET_PCNT_TSOVF 0 p).wr Reg.NET_PRXD_DROP 0 p
  (s1.wr Reg.NET_PNCNT_LATEUP 0).wr Reg.NET_PNCNT_BAD 0
/-- NET_CLRCNT. -/
def execNetClrcnt (s : State) : Host.Outcome State Fault Refusal := .next s.netClrcnt

end Sys2Proof.Machine
end

