-- ==== Sys2Proof/Machine/Pennant.lean ====
section
/-! DEFINITION. Pennant (R302 to R317): frames, cyclic exchange, the life cycle of stations. -/
namespace Sys2Proof.Machine

/-! ### Station records and states -/

/-- Station states (R311). -/
def stnOff : Nat := 0
def stnIdle : Nat := 1
def stnQueued : Nat := 2
def stnAssign : Nat := 3
def stnParam : Nat := 4
def stnReadyWait : Nat := 5
def stnCyclic : Nat := 6
def stnDropped : Nat := 7

/-- A station. -/
def State.stn (s : State) (i : Nat) : StnSt := tabAt {} s.net.stations i
/-- Replace it. -/
def State.setStn (s : State) (i : Nat) (x : StnSt) : State := { s with net := { s.net with stations := tabPut {} s.net.stations i x } }

/-- Station numbers that have a record (R303). -/
def isStation (i : Nat) : Bool := decide (1 ≤ i) && decide (i ≤ 254)

/-- A record from its 64 bytes (R303). -/
def parseStnRec (b : List Byte) : StnRec :=
  let cfg := fieldAt b 7 1
  { en := bitAt cfg 7
    mac := b.take 6
    pmask := fieldAt b 6 1 % 16
    ring := cfg % 8
    inAddr := fieldAt b 8 4 / 8 * 8
    inLen := fieldAt b 12 2
    outLen := fieldAt b 14 2
    outAddr := fieldAt b 16 4 / 8 * 8
    pAddr := fieldAt b 20 4 / 8 * 8
    pLen := fieldAt b 24 2
    fb := (upFrom 0 8).filterMap fun i =>
      let w := fieldAt b (32 + 4 * i) 4
      if bitAt w 31 then some (bitsOf w 16 9, bitsOf w 0 7) else none }

/-- Read a station record; a poisoned record counts as not enabled. [DEDUCED, log 71] -/
def State.stnRecord (s : State) (i : Nat) : StnRec × State :=
  let ((b, p), s1) := s.lndBytes netPort (s.rd Reg.NET_STBASE_BASE * 16384 + 64 * i) 64
  (if p then {} else parseStnRec b, s1)

/-- Ring of each remote feedback record, from the enabled stations (R116). -/
def State.remRings (s : State) : State :=
  let t := s.net.stations.foldl (fun (t : Tab Nat) (p : Nat × StnSt) =>
    if p.2.rcd.en then p.2.rcd.fb.foldl (fun (t : Tab Nat) (rb : Nat × Nat) => tabPut 0 t rb.1 (p.2.rcd.ring + 1)) t else t) []
  { s with fbk := { s.fbk with remRing := t } }

/-- The status word of a station (R307). -/
def StnSt.word (x : StnSt) (i : Nat) : Nat :=
  x.phnum % 2 ^ 32 + b2n x.stale * 2 ^ 32 + b2n x.dropped * 2 ^ 33 + b2n x.psn * 2 ^ 34 + b2n x.subst * 2 ^ 35
    + b2n x.latedn * 2 ^ 36 + b2n x.enrej * 2 ^ 37 + b2n x.psnout * 2 ^ 38 + x.state * 2 ^ 40 + i * 2 ^ 48
    + Nat.min 255 x.stalecnt * 2 ^ 56

/-- Write the status word of a station. -/
def State.stnStatus (s : State) (i : Nat) (late : Bool := false) : State :=
  let x := s.stn i
  if !x.rcd.en then s
  else s.srcWrite netPort 6 (.hoist x.rcd.ring (s.ring x.rcd.ring).now) late x.rcd.inAddr [⟨BitVec.ofNat 64 (x.word i), false⟩]

/-- A station changes its state (R311): Tally, NET_STCYC, status word. Leaving CYCLIC sets DROPPED in the status word. -/
def State.stnTo (s : State) (i st : Nat) : State :=
  let x := s.stn i
  if x.state = st then s
  else
    let y : StnSt := { x with state := st, dropped := x.dropped || decide (x.state = stnCyclic), ready := false }
    let s1 := (s.setStn i y).tally 0x0901 i st x.state
    let s2 := if st = stnCyclic then s1.setBitOf Reg.NET_STCYC_ST (i % 32) (i / 32) else s1.clrBitOf Reg.NET_STCYC_ST (i % 32) (i / 32)
    s2.stnStatus i

/-- The queue of hails is shown in NET_PNSTAT. -/
def State.hailQueue (s : State) (q : List Nat) : State :=
  ({ s with net := { s.net with queue := q } }).wr Reg.NET_PNSTAT_HAILQ q.length

/-- EN of a record as the module finds it (R311). [DEDUCED, log 71] -/
def State.stnEnable (s : State) (i : Nat) : State :=
  if !isStation i then s
  else
    let (r, s1) := s.stnRecord i
    let x := s1.stn i
    if r.en then
      if x.state = stnOff then (((s1.setStn i { x with rcd := r }).remRings).stnTo i stnIdle)
      else if x.state = stnIdle then ((s1.setStn i { x with rcd := r }).remRings).stnStatus i
      else s1
    else if x.state = stnOff then s1
    else
      let s2 := s1.stnTo i stnOff
      ((s2.hailQueue (s2.net.queue.filter fun q => q ≠ i)).setStn i {}).remRings
/-- STATION_RECORD_ENABLE. -/
def execStationRecordEnable (st : Fin 256) (s : State) : Host.Outcome State Fault Refusal := .next (s.stnEnable st)

/-- NET_PNCFG.EN goes from 0 to 1: the module takes the station table. [DEDUCED, log 71] -/
def State.pennantStart (s : State) : State := s.over (upFrom 1 254) fun i s => s.stnEnable i

/-! ### Frames (R302) -/

/-- A Pennant header. -/
structure PnHdr where
  ver : Nat
  kind : Nat
  flags : Nat
  len : Nat
  claim : Nat
  hnum : Nat
  ring : Nat
  stn : Nat
  rest : List Byte
deriving DecidableEq, Repr

/-- Take a header apart. -/
def parsePn (b : List Byte) : PnHdr :=
  ⟨fieldAt b 0 1 / 16, fieldAt b 0 1 % 16, fieldAt b 1 1, fieldAt b 2 2, fieldAt b 4 4, fieldAt b 8 4, fieldAt b 12 1 % 8, fieldAt b 13 1,
   (b.drop 16).take 16⟩

/-- Whether LEN matches the data of a frame: no more than the padding of a short frame follows. [DEDUCED, log 80] -/
def PnHdr.lenOk (h : PnHdr) (data : List Byte) : Bool :=
  decide (32 + h.len ≤ data.length) && decide (data.length ≤ max 46 (32 + h.len))

/-- Build the data of a Pennant frame: header of 32 bytes and payload. -/
def State.pnData (s : State) (kind flags hnum ring stn seq : Nat) (rest payload : List Byte) : List Byte :=
  leBytes 1 (16 + kind) ++ leBytes 1 flags ++ leBytes 2 payload.length ++ leBytes 4 s.ensign ++ leBytes 4 hnum ++ leBytes 1 (ring % 8)
    ++ leBytes 1 stn ++ leBytes 2 seq ++ padTo 16 rest ++ payload

/-- The group address of frames to stations (R292). -/
def groupDown : List Byte := [0x03#8, 0x4B#8, 0x4E#8, 0x50#8, 0x4E#8, 0x00#8]

/-- Whether a port carries Pennant. -/
def State.pnPort (s : State) (port : Nat) : Bool := s.bit Reg.NET_PNCFG_EN && s.bit Reg.NET_PCFG_EN port && s.bit Reg.NET_PCFG_PNEN port

/-- FLAGS.FORCED (R180). -/
def State.forcedFlag (s : State) : Nat := b2n (s.bit Reg.TEX_PSTAT_FORCED)

/-- Send a frame to one station on its ports, if the unit sends Pennant frames (R376, R412); a guard holds an ADMIT back (R293). -/
def State.pnUnicast (s : State) (i kind : Nat) (rest payload : List Byte) : State :=
  let x := s.stn i
  if !s.enabled || s.replaying then s
  else
    s.over (upFrom 0 4) fun p s =>
      if bitAt x.rcd.pmask p && s.pnPort p then
        let f := s.ethFrame p x.rcd.mac (s.rd Reg.NET_PNETYPE_ETYPE)
          (s.pnData kind s.forcedFlag (s.ring x.rcd.ring).now x.rcd.ring i 0 rest payload)
        if kind = 2 then s.admitOut p f else s.netSend (2 ^ p) f
      else s

/-- A RELEASE frame waits for the end of the CYCLE_DOWN frames of the base ring (R293). -/
def State.pnRelease (s : State) (i cause : Nat) : State :=
  { s with net := { s.net with releases := s.net.releases ++ [(i, leBytes 1 cause)] } }

/-- A Pennant frame is discarded and counted (R302, R306). -/
def State.pnBad (s : State) : State := s.inc Reg.NET_PNCNT_BAD

/-- A frame that arrives as Pennant, with its header and payload; discarded and counted where it breaks R302. -/
def State.pnArrive (s : State) (port : Nat) (frame : List Byte) (fcsOk : Bool) : Option (EthIn × PnHdr × List Byte) × State :=
  match s.netArrive port frame fcsOk with
  | (none, s1) => (none, s1)
  | (some e, s1) =>
    if s1.netClass port e ≠ .pennant ∨ !s1.bit Reg.NET_PNCFG_EN then (none, s1)
    else
      let h := parsePn e.data
      if h.ver ≠ 1 ∨ h.kind = 0 ∨ 5 < h.kind ∨ !h.lenOk e.data then (none, s1.pnBad)
      else (some (e, h, (e.data.drop 32).take h.len), s1)

/-! ### Admission (R311 to R314) -/

/-- A station whose record has this MAC address. -/
def State.stnByMac (s : State) (mac : List Byte) : Option Nat :=
  (s.net.stations.find? fun (p : Nat × StnSt) => p.2.rcd.en && p.2.rcd.mac == mac).map Prod.fst

/-- Mark a station dropped (R315). -/
def State.stnDrop (s : State) (i : Nat) : State :=
  let x := s.stn i
  let s1 := (s.setStn i { x with dropped := true, run := 0, goNow := false }).setBitOf Reg.NET_STDRP_ST (i % 32) (i / 32)
  (s1.netEvent Reg.NET_EVSUM_DROP).stnTo i stnDropped

/-- Whether the module takes a station for CYCLIC: it is, or the unit yields and its record is enabled (R377). [DEDUCED, log 80] -/
def State.asCyclic (s : State) (i : Nat) : Bool :=
  let x := s.stn i
  decide (x.state = stnCyclic) || (!s.enabled && x.rcd.en && decide (x.state ≠ stnDropped))

/-- STATION_DROP: a CYCLIC station whose stale hoists have reached DROPN (R315). [DEDUCED, log 78] -/
def State.stnDropDue (s : State) (i : Nat) : State :=
  if s.asCyclic i && decide (max 1 (s.rd Reg.NET_PNCFG_DROPN) ≤ (s.stn i).run) then s.stnDrop i else s
/-- STATION_DROP. -/
def execStationDrop (st : Fin 256) (s : State) : Host.Outcome State Fault Refusal := .next (s.stnDropDue st)

/-- Put a hailing station into the queue (R312). [DEDUCED, log 80] -/
def State.hailEnter (s : State) (i : Nat) : State :=
  if s.net.queue.contains i then s.stnTo i stnQueued
  else if 32 ≤ s.net.queue.length then s.wrB Reg.NET_PNSTAT_QOVF true
  else
    let x := s.stn i
    ((s.hailQueue (s.net.queue ++ [i])).setStn i { x with due := false, wait := false, ready := false }).stnTo i stnQueued

/-- An admission fails (R313). -/
def State.admFail (s : State) (i cause : Nat) : State :=
  let x := s.stn i
  let s1 := ((s.setStn i { x with due := false, wait := false }).wrB Reg.NET_PNSTAT_ADMFAIL true).setBitOf Reg.NET_STFLT_ST (i % 32) (i / 32)
  ((s1.netEvent Reg.NET_EVSUM_ADM).pnRelease i cause).stnTo i stnIdle

/-- A HAIL DISCOVER of a station (R311). -/
def State.hailDiscover (s : State) (i : Nat) : State :=
  let st := (s.stn i).state
  if st = stnCyclic then
    let s1 := s.stnDrop i
    if s1.enabled then s1.hailEnter i else s1
  else if !s.enabled ∨ st = stnOff then s
  else s.hailEnter i

/-- A HAIL ACK (R311, R313): the next parameter offset. -/
def State.hailAck (s : State) (i parm : Nat) : State :=
  let x := s.stn i
  if x.state = stnAssign ∧ x.wait ∧ parm = 0 then
    (s.setStn i { x with wait := false, due := true, off := 0, resends := 0 }).stnTo i stnParam
  else if x.state = stnParam ∧ x.wait ∧ parm % 8 = 0 ∧ parm ≤ x.rcd.pLen then
    if parm = x.rcd.pLen then (s.setStn i { x with wait := false, due := false }).stnTo i stnReadyWait
    else s.setStn i { x with wait := false, due := true, off := parm, resends := 0 }
  else s

/-- A HAIL READY (R313, R314): the CFGID must be that of the block sent. -/
def State.hailReady (s : State) (i cfgid : Nat) : State :=
  let x := s.stn i
  if x.state ≠ stnReadyWait then s
  else if crc32c x.sent = cfgid then s.setStn i { x with ready := true }
  else s.admFail i 3

/-- A HAIL from a MAC without an enabled record (R311): the discovery list. -/
def State.hailUnknown (s : State) (port : Nat) (mac : List Byte) (devtype serial : List Byte) : State :=
  let s1 := (s.wrB Reg.NET_PNSTAT_UNKHAIL true).netEvent Reg.NET_EVSUM_HAIL
  let n := s1.net.disc.length
  if s1.net.disc.contains mac || decide (32 ≤ n) then s1
  else
    let e := mac ++ leBytes 1 port ++ leBytes 1 0 ++ devtype ++ leBytes 6 0 ++ serial ++ leBytes 8 s1.htime
    let s2 := s1.lndWrite netPort (s1.rd Reg.NET_DBASE_BASE * 1024 + 32 * n) e
    ({ s2 with net := { s2.net with disc := s2.net.disc ++ [mac] } }).wr Reg.NET_PNSTAT_DISC (n + 1)

/-- HAIL_RECEIVE. -/
def execHailReceive (port : Fin 4) (frame : List Byte) (fcsOk : Bool) (s : State) : Host.Outcome State Fault Refusal :=
  match s.pnArrive port frame fcsOk with
  | (none, s1) => .next s1
  | (some (e, h, _), s1) =>
    if h.kind ≠ 1 then .next s1
    else if h.len ≠ 0 then .next s1.pnBad
    else
      match s1.stnByMac e.src with
      | none => .next (s1.hailUnknown port e.src ((h.rest.drop 2).take 2) ((h.rest.drop 8).take 8))
      | some i =>
        let parm := fieldAt h.rest 4 4
        match fieldAt h.rest 0 1 with
        | 0 => .next (s1.hailDiscover i)
        | 1 => .next (s1.hailAck i parm)
        | 2 => .next (s1.hailReady i parm)
        | _ => .next s1

/-- Whether the record, the head of the parameter block and the ring agree (R313). -/
def State.stnFormat (s : State) (x : StnSt) : Bool × State :=
  let r := x.rcd
  let g := s.ringCfg r.ring
  let ((b, p), s1) := s.lndBytes netPort r.pAddr 32
  (!p && decide (1 ≤ fieldAt b 0 2) && decide (fieldAt b 0 2 ≤ 255) && fieldAt b 3 1 == r.ring && fieldAt b 4 4 == g.per
    && fieldAt b 8 4 == g.phase && fieldAt b 12 2 == r.inLen && fieldAt b 14 2 == r.outLen
    && decide (r.inLen % 8 = 0) && decide (r.inLen ≤ 1024) && decide (r.outLen % 8 = 0) && decide (r.outLen ≤ 1024)
    && decide (r.pLen % 8 = 0) && decide (32 ≤ r.pLen) && decide (r.pLen ≤ 16384), s1)

/-- Send ADMIT ASSIGN (R312, R313). -/
def State.admAssign (s : State) (i : Nat) : State :=
  let x := s.stn i
  (s.setStn i { x with wait := true, due := false, sentAt := s.net.bperiod }).pnUnicast i 2
    (leBytes 1 0 ++ leBytes 3 0 ++ leBytes 4 x.rcd.pLen) []

/-- Send the parameter frame at the station's offset (R313). -/
def State.admParam (s : State) (i : Nat) : State :=
  let x := s.stn i
  let n := Nat.min 1024 (x.rcd.pLen - x.off)
  let ((b, _), s1) := s.lndBytes netPort (x.rcd.pAddr + x.off) n
  (s1.setStn i { x with wait := true, due := false, sentAt := s1.net.bperiod, sent := x.sent.take x.off ++ b }).pnUnicast i 2
    (leBytes 1 1 ++ leBytes 1 0 ++ leBytes 2 n ++ leBytes 4 x.off) b

/-- The station at the head of the queue: it is checked and assigned, or released with cause FORMAT (R313). [DEDUCED, log 71] -/
def State.admHead (s : State) (i : Nat) : State :=
  let (r, s1) := s.stnRecord i
  let x := s1.stn i
  if !r.en then s1.stnEnable i
  else
    let y : StnSt := { x with rcd := r, resends := 0, off := 0, sent := [] }
    let (ok, s2) := ((s1.setStn i y).remRings).stnFormat y
    if ok then (s2.stnTo i stnAssign).admAssign i
    else (s2.pnRelease i 5).stnTo i stnIdle

/-- ASSIGN to stations from the head of the queue, `k` at most. [DEDUCED, log 81] -/
def State.admQueue : Nat → State → State
  | 0, s => s
  | k + 1, s =>
    match s.net.queue with
    | [] => s
    | i :: q =>
      let s1 := s.hailQueue q
      State.admQueue k (if (s1.stn i).state = stnQueued then
        let s2 := s1.admHead i
        { s2 with net := { s2.net with admits := s2.net.admits + 1 } } else s1)

/-- The outstanding frame of a station that is due, if it is in state `st` and fewer than `lim` went out in this base period. [DEDUCED, log 81] -/
def State.admDue (s : State) (st lim i : Nat) : State :=
  let x := s.stn i
  if x.state = st ∧ x.due ∧ s.net.admits < lim then
    let s1 := if st = stnAssign then s.admAssign i else s.admParam i
    { s1 with net := { s1.net with admits := s1.net.admits + 1 } }
  else s

/-- Stations whose GO is to come: their frames have a place among the eight. [DEDUCED, log 81] -/
def State.goWaits (s : State) : Nat :=
  (s.net.stations.filter fun (p : Nat × StnSt) => p.2.goNow || p.2.ready).length

/-- The ADMIT frames after the CYCLE_DOWN frames of the base ring (R312, R313): parameter frames first, then ASSIGN frames sent
again, then new stations; eight in all. [DEDUCED, log 81] -/
def State.admSend (s : State) : State :=
  let s1 := { s with net := { s.net with bperiod := s.net.bperiod + 1, releases := [] } }
  let s2 := s1.over s.net.releases fun (ib : Nat × List Byte) s => s.pnUnicast ib.1 5 ib.2 []
  if !s2.enabled || s2.replaying then s2
  else
    let lim := 8 - s2.goWaits
    let stns := s2.net.stations.map Prod.fst
    let s3 := (s2.over stns fun i s => s.admDue stnParam lim i).over stns fun i s => s.admDue stnAssign lim i
    let m := s3.rd Reg.NET_PNCFG_ADMMAX
    State.admQueue (Nat.min (lim - s3.net.admits) (if m = 0 then 1 else Nat.min 4 m)) s3

/-- ADMIT_RESEND: no ACK within 8 base periods (R313); the frame goes out again among those of the base ring's seal (R293,
R312). [DEDUCED, log 81] -/
def execAdmitResend (st : Fin 256) (s : State) : Host.Outcome State Fault Refusal :=
  let i := st.val
  let x := s.stn i
  if !x.wait || x.due || decide (s.net.bperiod < x.sentAt + 8) then .next s
  else if x.resends < 3 then .next (s.setStn i { x with resends := x.resends + 1, due := true })
  else .next (s.admFail i 4)

/-- The RELEASE command (R316). [DEDUCED, log 81] -/
def State.stnRelease (s : State) (i : Nat) : State :=
  let x := s.stn i
  if x.state = stnOff then s
  else
    let s1 := s.hailQueue (s.net.queue.filter fun q => q ≠ i)
    (((s1.setStn i { x with due := false, wait := false, goNow := false }).pnRelease i 1).stnTo i stnIdle)
/-- STATION_RELEASE. -/
def execStationRelease (st : Fin 256) (s : State) : Host.Outcome State Fault Refusal := .next (s.stnRelease st)

/-- Empty the discovery list (NET_CTL.DCLR). -/
def State.discClear (s : State) : State := ({ s with net := { s.net with disc := [] } }).wr Reg.NET_PNSTAT_DISC 0
/-- DISCOVERY_CLEAR. -/
def execDiscoveryClear (s : State) : Host.Outcome State Fault Refusal := .next s.discClear

/-! ### Cyclic exchange (R304 to R310) -/

/-- The codewords of a payload. -/
def payloadCws (psn : Bool) : Nat → List Byte → List Cw
  | 0, _ => []
  | fuel + 1, b => if b = [] then [] else ⟨BitVec.ofNat 64 (leNat (b.take 8)), psn⟩ :: payloadCws psn fuel (b.drop 8)

/-- Write an accepted CYCLE_UP (R306): payload, status word, feedback records, together under the station lock. [DEDUCED, log 78] -/
def State.upWrite (s : State) (u : HeldUp) (late : Bool) : State :=
  let x := s.stn u.stn
  let ring := x.rcd.ring
  let psn := bitAt u.flags 0
  let y : StnSt := { x with
    phnum := u.hnum, stale := if late then x.stale else false, stalecnt := if late then x.stalecnt else 0, run := if late then x.run else 0
    psn := psn, subst := bitAt u.flags 1, latedn := bitAt u.flags 2, enrej := bitAt u.flags 3, dropped := false }
  let s1 := (s.setStn u.stn y).srcWrite netPort 6 (.hoist ring u.hnum) late (x.rcd.inAddr + 8)
    (payloadCws psn (u.payload.length / 8 + 1) u.payload)
  let s2 := if s1.enabled then s1 else s1.stnTo u.stn stnCyclic
  let s3 := s2.stnStatus u.stn late
  let s4 := s3.over x.rcd.fb fun (rb : Nat × Nat) s =>
    s.remoteRecord rb.1 ring u.hnum (padTo 32 ((u.payload.drop (32 * rb.2)).take 32)) psn late
  if late then (s4.inc Reg.NET_PNCNT_LATEUP).wrB Reg.NET_PNSTAT_LATEUP true else s4

/-- The delivery margin of an accepted frame (R310): DRX lies before the apply time of the frame it refers to. [DEDUCED, log 79] -/
def State.upMargin (s : State) (i drx : Nat) : State :=
  let x := s.stn i
  let r := s.ring x.rcd.ring
  if drx = 0 then s
  else
    let low := decide (r.firstAfter (drx + 1) - drx < s.rd Reg.NET_PNMGN_THR * 100)
    let s1 := s.setStn i { x with marLow := low }
    if !low then s1
    else
      let s2 := (s1.setBitOf Reg.NET_STMAR_ST (i % 32) (i / 32)).netEvent Reg.NET_EVSUM_MGN
      if x.marLow then s2 else s2.tally 0x0904 i 0 (r.firstAfter (drx + 1) - drx)

/-- A CYCLE_UP frame (R306, R377). [DEDUCED, log 80] -/
def State.upReceive (s : State) (src : List Byte) (h : PnHdr) (payload : List Byte) : State :=
  let i := h.stn
  let x := s.stn i
  let r := s.ring x.rcd.ring
  if !x.rcd.en || decide (src ≠ x.rcd.mac) || !(s.asCyclic i || (!s.enabled && decide (x.state = stnDropped)))
      || decide (h.ring ≠ x.rcd.ring) || decide (h.len ≠ x.rcd.inLen) || !r.begun then s.pnBad
  else if h.hnum ≠ r.now then
    if sInt 32 (h.hnum + 2 ^ 32 - r.now) < 0 then (s.inc Reg.NET_PNCNT_LATEUP).wrB Reg.NET_PNSTAT_LATEUP true else s.pnBad
  else if x.got = h.hnum + 1 then s
  else
    let s1 := (s.setStn i { x with got := h.hnum + 1 }).upMargin i (fieldAt h.rest 8 8)
    let u : HeldUp := ⟨i, h.flags, h.hnum, payload⟩
    if !r.dDone then s1.upWrite u false
    else if !r.sDone then { s1 with net := { s1.net with held := s1.net.held ++ [u] } }
    else s1.upWrite u true

/-- CYCLE_UP_RECEIVE. -/
def execCycleUpReceive (port : Fin 4) (frame : List Byte) (fcsOk : Bool) (s : State) : Host.Outcome State Fault Refusal :=
  match s.pnArrive port frame fcsOk with
  | (none, s1) => .next s1
  | (some (e, h, pl), s1) => .next (if h.kind = 4 then s1.upReceive e.src h pl else s1)

/-- A claim in a CYCLE_DOWN frame (R375): only an active unit sends one, so a dipped unit has seen its partner active (R379). [DEDUCED, log 96] -/
def State.downClaim (s : State) (c : Nat) : State :=
  let s1 := s.seeClaim c
  if s1.role = roleDipped ∧ c ≠ 0 then s1.enterSync else s1

/-- CYCLE_DOWN_RECEIVE: the claim of another unit (R375). -/
def execCycleDownReceive (port : Fin 4) (frame : List Byte) (fcsOk : Bool) (s : State) : Host.Outcome State Fault Refusal :=
  match s.pnArrive port frame fcsOk with
  | (none, s1) => .next s1
  | (some (_, h, _), s1) => .next (if h.kind = 3 then s1.downClaim h.claim else s1)

/-- The stations of a ring at its input deadline (R308, R314, R315). [DEDUCED, log 78] -/
def State.netDeadline (s : State) (n : Nat) : State :=
  if !s.bit Reg.NET_PNCFG_EN then s
  else
    let k := (s.ring n).now
    s.over (s.net.stations.map Prod.fst) fun i s =>
      let x := s.stn i
      if !x.rcd.en || x.rcd.ring != n then s
      else
        let s1 := if x.ready && s.enabled then
            let s1 := s.stnTo i stnCyclic
            s1.setStn i { s1.stn i with goNow := true, run := 0, dropped := true }
          else s
        let y := s1.stn i
        if y.got = k + 1 ∧ y.phnum = k then
          (s1.setStn i { y with stale := false, stalecnt := 0, run := 0 }).stnStatus i
        else
          let s2 := (s1.setStn i { y with stale := true, stalecnt := Nat.min 255 (y.stalecnt + 1), run := y.run + 1 }).stnStatus i
          let s3 := s2.over y.rcd.fb fun (rb : Nat × Nat) s => s.remoteStale rb.1 n k
          -- a station that becomes CYCLIC here sends its first payload for the next hoist (R314)
          if x.ready && s.enabled then s3.setStn i { s3.stn i with run := 0 } else s3.stnDropDue i

/-- Latch the staging slot of a station (R304, R305): `none` where a word is poisoned. -/
def State.stnLatch (s : State) (i : Nat) : Option (List Byte) × State :=
  let x := s.stn i
  let (l, s1) := s.lndRead netPort x.rcd.outAddr (x.rcd.outLen / 8)
  let s2 := State.reportCws (.hoist x.rcd.ring (s1.ring x.rcd.ring).now) 12 false x.rcd.outAddr l s1
  if anyPoison l then
    let s3 := if x.psnout then s2 else s2.tally 0x0905 i
    (none, (s3.setStn i { x with psnout := true }).stnStatus i)
  else
    let s3 := if x.psnout then (s2.setStn i { x with psnout := false }).stnStatus i else s2
    (some (cwBytes l), s3)

/-- Pack whole blocks into frames of at most 1,468 bytes of data, in order. -/
def packBlocks (cur : List Byte) : List (List Byte) → List (List Byte)
  | [] => if cur = [] then [] else [cur]
  | b :: l => if cur = [] then packBlocks b l
      else if 1468 < cur.length + b.length then cur :: packBlocks b l else packBlocks (cur ++ b) l

/-- Stations whose GO goes out at a seal of ring `n`: as many as the eight ADMIT frames of the base period leave (R312, R314). [DEDUCED, log 81] -/
def State.goStations (s : State) (n : Nat) : List Nat :=
  ((s.net.stations.filter fun (p : Nat × StnSt) => p.2.goNow && p.2.rcd.ring == n).map Prod.fst).take (8 - s.net.admits)

/-- Whether a station gets blocks at this seal (R304, R315): the first together with its GO (R314). -/
def State.stnBlocks (s : State) (n i : Nat) : Bool :=
  decide ((s.stn i).rcd.ring = n) && s.asCyclic i && (!(s.stn i).goNow || (s.goStations n).contains i)

/-- The seal of a ring on the networks (R293, R304, R305, R312, R314, R444). [DEDUCED, log 78] -/
def State.netSeal (s : State) (n : Nat) : State :=
  if !s.bit Reg.NET_PNCFG_EN then s.guardEnd
  else
    let r := s.ring n
    let base := decide (s.rd Reg.NET_PNCFG_BRING = n)
    let s0 := if base then { s with net := { s.net with admits := 0 } } else s
    let go := s0.goStations n
    let (blocks, s1) := (s0.net.stations.map Prod.fst).foldl
      (fun (acc : List (Nat × List Byte) × State) i =>
        if acc.2.stnBlocks n i then
          match acc.2.stnLatch i with
          | (some b, s2) => (acc.1 ++ [(i, if s2.bit Reg.PWR_STAT_OUTREL then b else [])], s2)
          | (none, s2) => (acc.1, s2)
        else acc) ([], s0)
    let send := s1.sendsOn n && !s1.replaying
    let s2 := if !send then s1
      else s1.over (upFrom 0 4) fun p s =>
        if !s.pnPort p then s
        else
          let fr := packBlocks [] ((blocks.filter fun (ib : Nat × List Byte) => bitAt (s.stn ib.1).rcd.pmask p).map
            fun (ib : Nat × List Byte) => leBytes 1 ib.1 ++ leBytes 1 0 ++ leBytes 2 ib.2.length ++ ib.2)
          s.over ((upFrom 0 fr.length).zip fr) fun (qd : Nat × List Byte) s =>
            s.netSend (2 ^ p) (s.ethFrame p groupDown (s.rd Reg.NET_PNETYPE_ETYPE)
              (s.pnData 3 (s.forcedFlag + 2 * b2n (decide (qd.1 + 1 = fr.length))) r.now n 0 qd.1 (leBytes 8 (r.tk + r.perNs)) qd.2))
    let s3 := s2.over go fun i s =>
      let x := s.stn i
      if send then
        let s1 := (s.setStn i { x with goNow := false }).pnUnicast i 2 (leBytes 1 2 ++ leBytes 3 0 ++ leBytes 4 (crc32c x.sent)) []
        { s1 with net := { s1.net with admits := s1.net.admits + 1 } }
      else s
    (if base then s3.admSend else s3).guardEnd

/-- The late inputs of a ring on its seal edge (R44, R306). -/
def State.netHeld (s : State) (n : Nat) : State :=
  let mine := s.net.held.filter fun (u : HeldUp) => (s.stn u.stn).rcd.ring == n
  let s1 := { s with net := { s.net with held := s.net.held.filter fun (u : HeldUp) => (s.stn u.stn).rcd.ring != n } }
  s1.over mine fun u s => s.upWrite u true

/-- What events P, B, W and S leave of the networks beside the registers (R317). -/
def State.netClear (s : State) : State := ({ s with net := {} }).remRings

end Sys2Proof.Machine
end

