-- ==== Sys2Proof/Machine/Terha.lean ====
section
/-! DEFINITION. Redundant pairs over Terha (R370 to R392): reception, lanes, negotiation, take-over, hand-over, mirroring
and passes. -/
namespace Sys2Proof.Machine

/-- Landing port of the Terha island (R24). -/
def trhPort : Nat := 5

/-! ### Frames and lanes (R371, R372) -/

/-- A valid frame. -/
structure TrhHdr where
  type : Nat
  last : Bool
  hnum : Nat
  ring : Nat
  payload : List Byte
deriving DecidableEq, Repr

/-- Whether a payload length fits a type (R371, R372). -/
def trhLenOk (type len : Nat) : Bool :=
  match type with
  | 1 => decide (len = 40)
  | 2 => decide (len ≤ 2016)
  | 3 | 4 => decide (8 ≤ len) && decide (len ≤ 2016)
  | 5 => decide (len = 12)
  | 6 => decide (len = 0)
  | _ => false

/-- Read a frame: none for a bad CRC, a reserved TYPE or a wrong LEN (R371). -/
def trhParse (b : List Byte) : Option TrhHdr :=
  let n := b.length - 20
  let h : TrhHdr := { type := fieldAt b 0 1, last := bitAt (fieldAt b 1 1) 0, hnum := fieldAt b 8 4, ring := fieldAt b 12 1 % 8
                      payload := (b.drop 16).take n }
  if 20 ≤ b.length ∧ fieldAt b 2 2 = n ∧ trhLenOk h.type n ∧ fieldAt b (16 + n) 4 = crc32c (b.take (16 + n)) then some h else none

/-- 20 µs in CLK_TB edges: the silence after which a lane is down (R372). -/
def laneSilence : Nat := 20 * edgesPerUs

/-- A frame arrives on a lane (R371, R372): discarded and counted when it is not valid. With PAIR = 0 the lanes are off (R380). -/
def State.trhHear (s : State) (lane : Nat) (b : List Byte) : Option TrhHdr × State :=
  if !s.bit Reg.TRH_CTL_PAIR || s.pwr.standby then (none, s)
  else match trhParse b with
    | none => (none, s.inc Reg.TRH_CNT_BAD)
    | some h =>
      let e := s.time.edge
      let since := if tabAt 0 s.trh.laneLast lane + laneSilence < e then tabPut 0 s.trh.laneSince lane e else s.trh.laneSince
      (some h, { s with trh := { s.trh with laneLast := tabPut 0 s.trh.laneLast lane e, laneSince := since } })

/-- Run a reception: `f` handles a valid frame that is of the row's kind. -/
def State.onFrame (s : State) (lane : Nat) (b : List Byte) (want : TrhHdr → Bool) (f : TrhHdr → State → State) : State :=
  match s.trhHear lane b with
  | (some h, s1) => if want h then f h s1 else s1
  | (none, s1) => s1

/-- LANE_DOWN: 20 µs without a valid frame (R372). -/
def execLaneDown (lane : Fin 2) (s : State) : Host.Outcome State Fault Refusal :=
  if bitAt (s.rd Reg.TRH_STAT_LANEUP) lane then
    let s1 := s.advanceEdge (tabAt 0 s.trh.laneLast lane + laneSilence)
    .next (((s1.clrBitOf Reg.TRH_STAT_LANEUP lane).setSticky 12 Reg.TRH_STAT_LANEDN).tally 0x0C01 lane)
  else .next s

/-- LANE_UP: 1 ms of valid frames (R372). The first lane that comes up lets a unit in SYNC pull its pass. [DEDUCED, log 97] -/
def execLaneUp (lane : Fin 2) (s : State) : Host.Outcome State Fault Refusal :=
  let last := tabAt 0 s.trh.laneLast lane
  let due := tabAt 0 s.trh.laneSince lane + edgesPerMs
  if !bitAt (s.rd Reg.TRH_STAT_LANEUP) lane && s.bit Reg.TRH_CTL_PAIR && decide (last ≠ 0) && decide (due ≤ last + laneSilence)
      && decide (s.time.edge ≤ last + laneSilence) then
    let s1 := s.advanceEdge due
    let s2 := s1.setBitOf Reg.TRH_STAT_LANEUP lane
    .next (if s1.rd Reg.TRH_STAT_LANEUP = 0 ∧ s2.role = roleSync then s2.enterSync else s2)
  else .next s

/-! ### Claims (R372, R374 to R378) -/

/-- CLAIM_TRANSMIT: the CLAIM frame of every 10 µs. [DEDUCED, log 95] -/
def execClaimTransmit (s : State) : Host.Outcome State Fault Refusal :=
  let s1 := s.advanceEdge s.trh.nextClaim
  .next { s1.sendClaim with trh := { s1.sendClaim.trh with nextClaim := s1.time.edge + 10 * edgesPerUs } }

/-- CLAIM_WINDOW_EXPIRY: the oldest claim leaves the window (R375). -/
def execClaimWindowExpiry (s : State) : Host.Outcome State Fault Refusal :=
  match s.trh.claims with
  | [] => .next s
  | c :: l => .next (s.advanceEdge (l.foldl (fun (a : Nat) (x : Nat × Nat) => min a x.2) c.2 + s.claimWindow + 1)).claimHigh

/-- Take over (R389): raise the claim; each ring waits for its seal. Without a further epoch nothing is raised (R374). -/
def State.takeOver (s : State) : State :=
  if s.rd Reg.TRH_LASTEP_EP ≥ 0xFFFFFF then s.raiseClaim
  else
    let hold := (upFrom 0 8).map fun n => (n, 2)
    let s1 := ({ s with trh := { s.trh with ringHold := hold, takenAt := s.time.edge } }).raiseClaim
    ((s1.setSticky 12 Reg.TRH_STAT_TAKEN).inc Reg.TRH_CNT_TAKEOVER).tally 0x0C04 0 0 s1.ensign

/-- Whether a standby may take over: INSTEP, or SYNC with COLDTAKE (R389). [DEDUCED, log 96] -/
def State.mayTake (s : State) : Bool :=
  decide (s.role = roleInstep) || decide (s.role = roleSync) && s.bit Reg.TRH_CTL_COLDTAKE

/-- A signed difference of two HTIME values. -/
def htDiff (a b : Nat) : Int := sInt 64 (uOf 64 ((a : Int) - (b : Int)))

/-- The partner's time offset (R372). The half of an odd sum is a free choice between its two neighbours. [DEDUCED, log 95] -/
def State.timeOffset (s : State) (t1 t2 t3 t4 : Nat) : State :=
  let (i, s1) := s.draw
  let sum := htDiff t2 t1 + htDiff t3 t4 + (((Config.freeWord i).toNat % 2 : Nat) : Int)
  s1.wrS Reg.TRH_TOFS_NS (clampI (-(2 : Int) ^ 31) ((2 : Int) ^ 31 - 1) (sum / 2))

/-- A CLAIM payload is received (R372, R375, R378, R380, R381, R389). [DEDUCED, log 96] -/
def State.claimReceive (s : State) (b : List Byte) : State :=
  let ensign := fieldAt b 0 4
  let cand := fieldAt b 4 4
  let was := s.rd Reg.TRH_PENS_E
  let t4 := s.htime
  let s1 := ((s.timeOffset (fieldAt b 24 8) (fieldAt b 32 8) (fieldAt b 16 8) t4).wr Reg.TRH_PENS_E ensign).wr
    Reg.TRH_PIDENT_ID (fieldAt b 8 4)
  let s2 := { s1 with trh := { s1.trh with
    pht := fieldAt b 16 8, prx := t4, prole := fieldAt b 12 1, pstatus := fieldAt b 14 2, pseen := true
    pcand := if s1.role = roleNegotiate ∧ cand ≠ 0 then cand else s1.trh.pcand } }
  let s3 := if s2.role = roleNegotiate ∧ cand ≠ 0 ∧ cand % 2 = s2.rd Reg.TRH_CFG_UNIT then
      (s2.setSticky 12 Reg.TRH_STAT_UNITERR).wr Reg.TRH_STAT_ROLE roleIsolated else s2
  let s4 := s3.seeClaim ensign
  let s5 := if s4.role = roleDipped ∧ s4.trh.prole = roleActive then s4.enterSync else s4
  if was ≠ 0 ∧ ensign = 0 ∧ s5.mayTake then s5.takeOver else s5.stepCheck
/-- CLAIM_RECEIVE. -/
def execClaimReceive (lane : Fin 2) (frame : List Byte) (s : State) : Host.Outcome State Fault Refusal :=
  .next (s.onFrame lane frame (fun h => decide (h.type = 1)) fun h s => s.claimReceive h.payload)

/-- LOSSTO in edges (TRH_CFG): values below 20 act as 20. -/
def State.lossEdges (s : State) : Nat := max 20 (s.rd Reg.TRH_CFG_LOSSTO) * edgesPerUs

/-- LINK_LOSS_TIMEOUT: both lanes have been silent for LOSSTO (R389). [DEDUCED, log 96] -/
def execLinkLossTimeout (s : State) : Host.Outcome State Fault Refusal :=
  let s1 := s.advanceEdge (max (tabAt 0 s.trh.laneLast 0) (tabAt 0 s.trh.laneLast 1) + s.lossEdges)
  .next (if s1.mayTake then s1.takeOver else s1)

/-- NEGOTIATION_END: 50 ms of negotiation have passed (R380). [DEDUCED, log 96] -/
def execNegotiationEnd (s : State) : Host.Outcome State Fault Refusal :=
  if s.role = roleNegotiate then
    let s1 := s.advanceEdge (s.trh.negAt + 50 * edgesPerMs)
    if s1.trh.negClaim then .next s1.enterSync
    else if !s1.bit Reg.TRH_CTL_PAIR || decide (s1.trh.pcand < s1.cand) then
      .next ({ s1 with trh := { s1.trh with ringHold := [] } }).raiseClaim
    else .next s1.enterSync
  else .next s

/-- The negotiation begins (R379, R380). -/
def State.trhStart (s : State) : State :=
  { (s.wr Reg.TRH_STAT_ROLE roleNegotiate) with trh := { s.trh with negAt := s.time.edge, negClaim := false, pcand := 0, nextClaim := s.time.edge } }

/-! ### Hand-over (R390) -/

/-- A write of 1 to HANDOVER: refused with HOREJ unless the partner is in step. [DEDUCED, log 97] -/
def State.handover (s : State) : State :=
  if s.role ≠ roleActive then s
  else if s.partnerInStep then { s with trh := { s.trh with handover := true } }
  else s.setSticky 12 Reg.TRH_STAT_HOREJ
/-- HANDOVER. -/
def execHandover (s : State) : Host.Outcome State Fault Refusal := .next s.handover

/-- The seal of HR0 with a hand-over asked for: the dip, or HOREJ if the partner is no longer in step. -/
def State.handoverDip (s : State) : State :=
  if !s.trh.handover then s
  else
    let s1 := { s with trh := { s.trh with handover := false } }
    if s1.role ≠ roleActive then s1
    else if s1.partnerInStep then s1.dip 5
    else s1.setSticky 12 Reg.TRH_STAT_HOREJ
/-- HANDOVER_DIP: at the next seal of HR0. [DEDUCED, log 97] -/
def execHandoverDip (s : State) : Host.Outcome State Fault Refusal := .next (s.advanceTo (s.ring 0).seal_).handoverDip

/-- A ring's seal on its way after a take-over (R389): 400 ticks after the raise at the earliest. -/
def State.takeSeal (s : State) (n : Nat) : State :=
  if tabAt 0 s.trh.ringHold n = 2 ∧ s.trh.takenAt + 400 ≤ s.time.edge then
    { s with trh := { s.trh with ringHold := tabPut 0 s.trh.ringHold n 1 } }
  else s

/-- The apply instant after that seal (R389). -/
def State.takeApply (s : State) (n : Nat) : State :=
  if tabAt 0 s.trh.ringHold n = 1 then { s with trh := { s.trh with ringHold := tabDel s.trh.ringHold n } } else s

/-- The ring's seal with or without late producers: DIP cause LATE at the second late seal in a row (R387). -/
def State.lateDip (s : State) (n : Nat) (late : Bool) : State :=
  let was := s.trh.lateRings.contains n
  let s1 := { s with trh := { s.trh with lateRings := setTo s.trh.lateRings n late } }
  if late && was then s1.dip 9 else s1

/-! ### Mirroring: the active unit (R384) -/

/-- The loops of a ring's chain, from HEAD to END (R65). -/
def State.chainLoops (s : State) : Nat → Nat → List Nat × State
  | 0, _ => ([], s)
  | k + 1, l =>
    let (c, s1) := s.lndRead trhPort (s.loopAt l) 1
    if psnOf c 0 || bitAt (loOf c 0) 27 then ([l], s1)
    else
      let (r, s2) := State.chainLoops s1 k (loOf c 0 % 4096)
      (l :: r, s2)

/-- The record of a loop with MIRROR = 1. -/
def State.loopRecord (s : State) (l : Nat) : PsnData × State :=
  let (c, s1) := s.lndRead trhPort (s.loopAt l) 1
  if psnOf c 0 || !bitAt (loOf c 0) 26 then (([], []), s1)
  else
    let (i, s2) := s1.lndRead trhPort (s1.loopAt l + 0x60) 1
    ((leBytes 2 (1 * 8192 + l) ++ leBytes 2 0 ++ cwBytes i, if psnOf i 0 then [4] else []), s2)

/-- Seconds from nanoseconds, binary64. -/
def secs64 (ns : Nat) : Nat := code64 ((ns : Rat) / 1000000000)

/-- The records of an axis. -/
def State.axisRecord (s : State) (a : Nat) : PsnData × State :=
  let x := s.axis a
  let ((stat, _), s1) := s.lndWord trhPort (s.axisAt a + 8)
  let st := bitsOf stat 24 3 + bitsOf stat 1 4 * 8
  let tau := match x.plan with | some p => to32 (secs64 p.tau) | none => 0
  let r1 := leBytes 2 (2 * 8192 + a) ++ leBytes 2 st ++ leBytes 12 (uOf 96 x.pos) ++ leBytes 8 x.vi ++ leBytes 8 x.ai
    ++ leBytes 4 tau ++ leBytes 4 0
  let r2 := leBytes 2 (4 * 8192 + a) ++ leBytes 1 x.badN ++ leBytes 1 (b2n (decide (x.badN ≠ 0)) + 2 * b2n x.engaging)
    ++ leBytes 12 (uOf 96 x.q) ++ leBytes 8 x.wd ++ leBytes 8 (posCode x.delta) ++ leBytes 12 (uOf 96 x.p0) ++ leBytes 8 x.v0
    ++ leBytes 8 (secs64 x.t) ++ leBytes 4 0
  ((if x.mode = amGear ∨ x.mode = amCam ∨ x.mode = amTrack ∨ x.engaging then r1 ++ r2 else r1, []), s1)

/-- The record of a step list. -/
def State.listRecord (s : State) (m : Nat) : List Byte :=
  leBytes 2 (3 * 8192 + m) ++ leBytes 1 (s.lstState m) ++ leBytes 1 0 ++ leBytes 2 (s.rd Reg.HST_LSTAT_STEP m) ++ leBytes 2 0
    ++ leBytes 4 (s.rd Reg.HST_LCNT_CNT m)

/-- Data behind data. -/
def PsnData.app (a b : PsnData) : PsnData := (a.1 ++ b.1, a.2 ++ psnAfter a.1.length b.2)

/-- Gather data over a list of objects. -/
def State.gatherBytes (s : State) (l : List Nat) (f : State → Nat → PsnData × State) : PsnData × State :=
  l.foldl (fun (a : PsnData × State) x => let (b, t) := f a.2 x; (a.1.app b, t)) (([], []), s)

/-- The HOIST records of a ring: loops, axes, lists not in IDLE (R383, R384). [DEDUCED, log 98] -/
def State.hoistRecords (s : State) (n : Nat) : PsnData × State :=
  let (ls, s1) := s.chainLoops (s.rd Reg.CLE_PCH_LEN n) (s.rd Reg.CLE_PCH_HEAD n)
  let (b1, s2) := s1.gatherBytes ls fun t l => t.loopRecord l
  let (b2, s3) := s2.gatherBytes (s2.axMembers n) fun t a => t.axisRecord a
  let lists := (upFrom 0 256).filter fun m => decide (s3.lstState m ≠ lsIdle) && (s3.lst m).ring == n
  ((b1.app b2).app (lists.flatMap s3.listRecord, []), s3)

/-- Send the HOIST frames of a ring: at least one, LAST on the final one (R384). [DEDUCED, log 98] -/
def State.sendHoist (s : State) (n : Nat) : State :=
  let (b, s1) := s.hoistRecords n
  let cs := if b.1 = [] then [[]] else cutBytes 2016 (b.1.length / 2016 + 1) b.1
  ((upFrom 1 cs.length).zip cs).foldl
    (fun a ic => a.trhData 2 (decide (ic.1 = cs.length)) ((s.ring n).now) n ic.2 (psnPart b.2 (2016 * (ic.1 - 1)) 2016)) s1

/-- After the seal of a ring (R384). -/
def State.mirrorSeal (s : State) (n : Nat) : State := if s.mirroring then s.sendHoist n else s

/-! ### Mirroring: the standby (R385, R386) -/

/-- HOIST_FRAME_RECEIVE: a standby keeps the records for the ring's next input deadline. [DESIGN CHOICE, log 99] -/
def State.hoistReceive (s : State) (h : TrhHdr) (psn : List Nat) : State :=
  if s.role ≠ roleSync ∧ s.role ≠ roleInstep then s
  else
    let x := tabAt {} s.trh.hoistIn h.ring
    let old : PsnData := if x.hnum = h.hnum ∧ !x.last then (x.bytes, x.psn) else ([], [])
    let d := old.app (h.payload, psn)
    let y : HoistIn := { seen := true, hnum := h.hnum, bytes := d.1, psn := d.2, last := h.last }
    { s with trh := { s.trh with
      hoistIn := tabPut {} s.trh.hoistIn h.ring y
      passSeen := s.trh.passSeen + (if s.bit Reg.TRH_PASS_BUSY then h.payload.length else 0) } }
/-- HOIST_FRAME_RECEIVE. -/
def execHoistFrameReceive (lane : Fin 2) (frame : List Byte) (psn : List Nat) (s : State) : Host.Outcome State Fault Refusal :=
  .next (s.onFrame lane frame (fun h => decide (h.type = 2)) fun h s => s.hoistReceive h psn)

/-- A loop record. -/
def State.takeLoop (s : State) (st : RsStamp) (l : Nat) (d : PsnData) : State :=
  if l < 4096 then s.srcWriteBytes trhPort 13 st (s.loopAt l + 0x60) ((d.1.drop 4).take 8) (d.2.contains 4) else s

/-- An axis record: position, motion and flags; a plan is made anew at the next evaluation (R385). [DEDUCED, log 100] -/
def State.takeAxis (s : State) (st : RsStamp) (a : Nat) (b : List Byte) : State :=
  if 512 ≤ a then s
  else
    let f := fieldAt b 2 2
    let pos := sInt 96 (fieldAt b 4 12)
    let y : AxisSt := { s.axis a with
      mode := f % 8, engaging := bitAt f 6, engaged := bitAt f 5, inpos := bitAt f 3, pos := pos, vi := fieldAt b 16 8
      ai := fieldAt b 24 8, plan := none }
    let s1 := s.setAxis a y
    let s2 := s1.srcWriteBytes trhPort 13 st (s1.axisAt a + 0x68) (leBytes 8 (pubPos pos))
    let ((stat, _), s3) := s2.lndWord trhPort (s2.axisAt a + 8)
    let keep := stat - bitsOf stat 24 3 * 2 ^ 24 - bitsOf stat 1 4 * 2
    s3.srcWriteBytes trhPort 13 st (s3.axisAt a + 8) (leBytes 4 (keep + f % 8 * 2 ^ 24 + bitsOf f 3 4 * 2))

/-- A following record: the state of the demand (R104 to R108). The gear demand of an engagement follows from δ. [DEDUCED, log 100] -/
def State.takeFollow (s : State) (a : Nat) (b : List Byte) : State :=
  if 512 ≤ a then s
  else
    let x := s.axis a
    let q := sInt 96 (fieldAt b 4 12)
    let wd := fieldAt b 16 8
    let dl := posOf (fieldAt b 24 8)
    let (d, s1) := s.lndRead trhPort (s.axisAt a + 0x30) 2
    let gofs := sInt 64 (d.getD 1 Cw.lost).data.toNat * 2 ^ 32
    let k := sInt 64 (d.getD 0 Cw.lost).data.toNat
    let t := ((ratOf b64 (fieldAt b 52 8) * 1000000000 + 1 / 2).floor).toNat
    let y : AxisSt := { x with
      badN := fieldAt b 2 1, q := q, wd := wd, delta := dl, gofs := gofs
      gear := if x.engaging then gofs * 2 ^ 32 + k * dl else q * 2 ^ 32
      p0 := sInt 96 (fieldAt b 32 12), v0 := fieldAt b 44 8, t := t
      trkPrev := if x.mode = amTrack then some (q, wd) else x.trkPrev }
    s1.setAxis a y

/-- A list record: a list that stands in IDLE here takes its run's RING, LBASE and LAST from the registers. [DEDUCED, log 100] -/
def State.takeList (s : State) (m : Nat) (b : List Byte) : State :=
  if 256 ≤ m then s
  else
    let c := fieldAt b 2 1 % 8
    let step := fieldAt b 4 2 % 4096
    let x0 := s.lst m
    let x := if s.lstState m = lsIdle then
        { x0 with ring := s.rd Reg.HST_LCTL_RING m, base := s.rd Reg.HST_LBASE_BASE m / 32 * 32, last := s.rd Reg.HST_LCTL_LAST m } else x0
    let s1 := ((s.wr Reg.HST_LSTAT_STATE c m).wr Reg.HST_LSTAT_STEP step m).wr Reg.HST_LCNT_CNT (fieldAt b 8 4) m
    if c = lsRun ∨ c = lsHeld then
      let ((sb, _), s2) := s1.lndBytes hstPort (x.base + 32 * step) 32
      let p := parseStep sb
      let ((ab, _), s3) := if p.acnt = 0 then (([], false), s2) else s2.lndBytes hstPort p.aaddr (16 * p.acnt)
      s3.setLst m { x with step := sb, acts := ab }
    else s1.setLst m x

/-- The records of a seal, in order; `fuel` bounds them. -/
def State.takeRecords (st : RsStamp) : Nat → PsnData → State → State
  | 0, _, s => s
  | fuel + 1, d, s =>
    let b := d.1
    let next := fun n => (b.drop n, psnPart d.2 n b.length)
    if b.length < 12 then s
    else
      let w := fieldAt b 0 2
      let i := w % 8192
      match w / 8192 with
      | 1 => State.takeRecords st fuel (next 12) (s.takeLoop st i d)
      | 2 => State.takeRecords st fuel (next 40) (s.takeAxis st i b)
      | 3 => State.takeRecords st fuel (next 12) (s.takeList i b)
      | 4 => State.takeRecords st fuel (next 64) (s.takeFollow i b)
      | _ => s

/-- The input deadline of a ring on a standby (R385): the records of the hoist before, or a late period. -/
def State.mirrorDeadline (s : State) (n : Nat) : State :=
  if (s.role ≠ roleSync ∧ s.role ≠ roleInstep) ∨ s.replaying then s
  else
    let x := tabAt {} s.trh.hoistIn n
    let k := ((s.ring n).now + 0xFFFFFFFF) % 2 ^ 32
    if !x.seen then s
    else if x.last && decide (x.hnum = k) then
      let s1 := State.takeRecords (.hoist n k) (x.bytes.length / 12 + 1) (x.bytes, x.psn) s
      s1.mirrorOnTime n
    else s.mirrorLate n k

/-- RET_FRAME_RECEIVE: retained data for the task's next release (R386). [DESIGN CHOICE, log 99] -/
def State.retReceive (s : State) (h : TrhHdr) (psn : List Nat) : State :=
  if s.role ≠ roleSync ∧ s.role ≠ roleInstep then s
  else
    let t := fieldAt h.payload 4 1
    let x := s.task t
    let old := if x.retLast then [] else x.retIn
    s.setTask t { x with retIn := old ++ [(fieldAt h.payload 0 4, h.payload.drop 8, psnPart psn 8 h.payload.length)], retLast := h.last }
/-- RET_FRAME_RECEIVE. -/
def execRetFrameReceive (lane : Fin 2) (frame : List Byte) (psn : List Nat) (s : State) : Host.Outcome State Fault Refusal :=
  .next (s.onFrame lane frame (fun h => decide (h.type = 3)) fun h s => s.retReceive h psn)

/-! ### Passes (R391) -/

/-- The pass segments of the mirror table (R383): offset and length. -/
def State.passSegs (s : State) : List (Nat × Nat) × State :=
  let (b, s1) := s.mirrorTable
  let nret := Nat.min (fieldAt b 0 2) 1024
  ((upFrom 0 (Nat.min (fieldAt b 2 2) 1024)).map fun j =>
    (fieldAt b (16 + 16 * (nret + j)) 4, fieldAt b (20 + 16 * (nret + j)) 4), s1)

/-- The data of the pass segments, one per segment. -/
def State.passData (s : State) (segs : List (Nat × Nat)) : List (Nat × PsnData) × State :=
  segs.foldl
    (fun (a : List (Nat × PsnData) × State) sg =>
      let (b, t) := a.2.lndBytesPsn trhPort sg.1 sg.2
      (a.1 ++ [(sg.1, b)], t)) ([], s)

/-- Send data as PASSDATA frames. [DESIGN CHOICE, log 99] -/
def State.sendPass (s : State) (off : Nat) (b : PsnData) : State :=
  (cutData off b).foldl (fun a ic => a.trhData 4 false 0 0 (leBytes 4 ic.1 ++ leBytes 4 0 ++ ic.2.1) (psnAfter 8 ic.2.2)) s

/-- Send PASSCTL. What START and ROUND2 carry as the CRC, and ROUND2 and END as the byte count, is free. [DESIGN CHOICE, log 99] -/
def State.passCtl (s : State) (code : Nat) (bytes crc : Option Nat) : State :=
  let (i, s1) := s.draw
  let w := (Config.freeWord i).toNat
  s1.trhData 5 false 0 0 (leBytes 1 code ++ leBytes 3 0 ++ leBytes 4 (bytes.getD w) ++ leBytes 4 (crc.getD (w / 2 ^ 32)))

/-- PULL: the active unit begins a pass (R391): START and every pass segment; blocks written from now on are dirty. [DESIGN CHOICE, log 99] -/
def State.pullReceive (s : State) : State :=
  if s.role ≠ roleActive then s
  else
    let (segs, s1) := s.passSegs
    let (recs, s2) := s1.gatherBytes (upFrom 0 8) fun t n => t.hoistRecords n
    let total := segs.foldl (fun (a : Nat) sg => a + sg.2) recs.1.length
    let s3 := ((s2.wrB Reg.TRH_PASS_BUSY true).wrB Reg.TRH_PASS_R2 false).wr Reg.TRH_PASS_PROG 0
    let s4 := s3.passCtl 1 (some total) none
    let (data, s5) := s4.passData segs
    let s6 := data.foldl (fun a ob => a.sendPass ob.1 ob.2) s5
    { s6 with lnd := { s6.lnd with dirtyOn := true, dirty := [] } }
/-- PULL_RECEIVE. -/
def execPullReceive (lane : Fin 2) (frame : List Byte) (s : State) : Host.Outcome State Fault Refusal :=
  .next (s.onFrame lane frame (fun h => decide (h.type = 6)) fun _ s => s.pullReceive)

/-- PASSCTL_END_SEND: round 2 with the dirty blocks, the records, and END with the CRC of the segments (R391). [DESIGN CHOICE, log 99] -/
def execPassctlEndSend (s : State) : Host.Outcome State Fault Refusal :=
  if s.role ≠ roleActive ∨ !s.bit Reg.TRH_PASS_BUSY then .next s
  else
    let (segs, s1) := (s.wrB Reg.TRH_PASS_R2 true).passSegs
    let s2 := s1.passCtl 2 none none
    let dirty := s2.lnd.dirty.filter fun b => segs.any fun sg => decide (sg.1 ≤ 4096 * b) && decide (4096 * b < sg.1 + sg.2)
    let s3 := s2.over dirty fun b t => let (d, t1) := t.lndBytesPsn trhPort (4096 * b) 4096; t1.sendPass (4096 * b) d
    let s4 := s3.over (upFrom 0 8) fun n t => t.sendHoist n
    let (data, s5) := s4.passData segs
    let s6 := s5.passCtl 3 none (some (crc32c (data.flatMap fun (ob : Nat × PsnData) => ob.2.1)))
    .next (s6.passStop.wr Reg.TRH_PASS_PROG 1000)

/-- PASSCTL START on a standby. -/
def State.passStart (s : State) (bytes : Nat) : State :=
  if s.role ≠ roleSync then s
  else
    let s1 := ((s.wrB Reg.TRH_PASS_BUSY true).wrB Reg.TRH_PASS_R2 false).wr Reg.TRH_PASS_PROG 0
    { s1 with trh := { s1.trh with passOk := false, passBytes := bytes, passSeen := 0, hoistIn := [], mirLate := [] } }
/-- PASS_START_RECEIVE. -/
def execPassStartReceive (lane : Fin 2) (frame : List Byte) (s : State) : Host.Outcome State Fault Refusal :=
  .next (s.onFrame lane frame (fun h => decide (h.type = 5) && decide (fieldAt h.payload 0 1 = 1)) fun h s => s.passStart (fieldAt h.payload 4 4))

/-- PASSDATA on a standby: the data goes to its Landing. [DEDUCED, log 100] -/
def State.passdata (s : State) (b : List Byte) (psn : List Nat) : State :=
  if !s.bit Reg.TRH_PASS_BUSY || decide (s.role ≠ roleSync) then s
  else
    let s1 := s.srcWritePsn trhPort 13 (.hoist 0 0) (fieldAt b 0 4) (b.drop 8, psnPart psn 8 b.length)
    let seen := s1.trh.passSeen + (b.length - 8)
    ({ s1 with trh := { s1.trh with passSeen := seen } }).wr Reg.TRH_PASS_PROG (Nat.min 1000 (seen * 1000 / max 1 s1.trh.passBytes))
/-- PASSDATA_RECEIVE. -/
def execPassdataReceive (lane : Fin 2) (frame : List Byte) (psn : List Nat) (s : State) : Host.Outcome State Fault Refusal :=
  .next (s.onFrame lane frame (fun h => decide (h.type = 4)) fun h s => s.passdata h.payload psn)

/-- PASS_ROUND2_RECEIVE. -/
def execPassRound2Receive (lane : Fin 2) (frame : List Byte) (s : State) : Host.Outcome State Fault Refusal :=
  .next (s.onFrame lane frame (fun h => decide (h.type = 5) && decide (fieldAt h.payload 0 1 = 2)) fun _ s =>
    if s.bit Reg.TRH_PASS_BUSY ∧ s.role = roleSync then s.wrB Reg.TRH_PASS_R2 true else s)

/-- PASSCTL END on a standby: compare the CRC; INSTEP if R381 holds, otherwise another pull (R391). -/
def State.passEndReceive (s : State) (crc : Nat) : State :=
  if !s.bit Reg.TRH_PASS_BUSY || decide (s.role ≠ roleSync) then s
  else
    let s0 := ((s.wrB Reg.TRH_PASS_BUSY false).wrB Reg.TRH_PASS_R2 false).wr Reg.TRH_PASS_PROG 1000
    let (segs, s1) := s0.passSegs
    let (data, s2) := s1.passData segs
    let s3 := { s2 with trh := { s2.trh with passOk := decide (crc32c (data.flatMap fun (ob : Nat × PsnData) => ob.2.1) = crc) } }
    if s3.inStepNow then (s3.wr Reg.TRH_STAT_ROLE roleInstep).wrB Reg.TRH_STAT_INSTEP true
    else s3.trhData 6 false 0 0 []
/-- PASS_END_RECEIVE. -/
def execPassEndReceive (lane : Fin 2) (frame : List Byte) (s : State) : Host.Outcome State Fault Refusal :=
  .next (s.onFrame lane frame (fun h => decide (h.type = 5) && decide (fieldAt h.payload 0 1 = 3)) fun h s => s.passEndReceive (fieldAt h.payload 8 4))

/-! ### Resets and counters -/

/-- CLRCNT. -/
def State.trhClrcnt (s : State) : State :=
  ((s.wr Reg.TRH_CNT_TAKEOVER 0).wr Reg.TRH_CNT_MIRLATE 0).wr Reg.TRH_CNT_BAD 0
/-- TERHA_CLRCNT. -/
def execTerhaClrcnt (s : State) : Host.Outcome State Fault Refusal := .next s.trhClrcnt

/-- Events C and H on a standby: SYNC and a new pass (R392). -/
def State.trhRestart (s : State) : State := if s.role = roleSync ∨ s.role = roleInstep then s.enterSync else s

/-- PAIR is written: with 0 the lanes are off (R380). [DEDUCED, log 97] -/
def State.trhPair (s : State) (b : Bool) : State :=
  let s1 := s.wrB Reg.TRH_CTL_PAIR b
  if b then s1 else s1.wr Reg.TRH_STAT_LANEUP 0

end Sys2Proof.Machine
end

