-- ==== Sys2Proof/Machine/Hoists.lean ====
section
/-! DEFINITION. A period of a hoist ring (R38, R41 to R49): the instant, the input deadline with its task releases and
online changes, the seal. -/
namespace Sys2Proof.Machine

/-! ### What looks at a ring's configuration -/

/-- The configuration of a ring has changed: the feedback channels and converters on it are judged anew (R120, R144). [DEDUCED, log 38 and 43] -/
def State.ringClients (s : State) (n : Nat) : State :=
  (s.over (upFrom 0 24) fun c a => if a.rd Reg.FBK_CFG_RING c = n then a.fbConfig c else a).over (upFrom 0 16) fun k a =>
    if a.rd Reg.CNV_CFG_RING k = n then a.adcConfig k else a

/-- RING_ENABLE. -/
def execRingEnable (n : Fin 8) (s : State) : Host.Outcome State Fault Refusal := .next ((s.ringEnable n).ringClients n)
/-- RING_DISABLE. -/
def execRingDisable (n : Fin 8) (s : State) : Host.Outcome State Fault Refusal := .next ((s.ringDisable n).ringClients n)

/-! ### Task releases (R162, R167) -/

/-- Whether an instant of a ring is a release instant under DIV and OFS (R162). -/
def RingSt.dueAt (r : RingSt) (divm1 ofs : Nat) : Bool := decide (r.quot r.tk % ((divm1 : Int) + 1) = (ofs : Int))

/-- What the release of a cyclic task at the ring's deadline fixes (R162, R164, R172). -/
def RingSt.releaseOf (r : RingSt) (divm1 : Nat) : Release :=
  { tt := r.tk % 2 ^ 64, hnum := r.now, period := (divm1 + 1) * r.per, tk := r.tk, k := (r.quot r.tk).toNat
    pubAt := r.tk + divm1 * r.perNs + r.dlin * 5, sealAt := r.tk + divm1 * r.perNs + r.slin * 5 }

/-- A cyclic task at the deadline of its ring: released, skipped while its cycle runs, or left alone. -/
def State.releaseDue (s : State) (n t : Nat) : State :=
  let x := s.task t
  let r := s.ring n
  if !s.releasing || x.kind != 1 || x.ring != n || !r.dueAt x.divm1 x.ofs || x.relTk == r.tk then s
  else if x.toPublish then
    let s1 := s.publish t
    s1.release t (r.releaseOf x.divm1)
  else if x.isOpen then s.skipRelease t r.now
  else s.release t (r.releaseOf x.divm1)

/-! ### The switch of an online change (R181) -/

/-- Whether `u` is a deadline of ring `m` at which a task with DIV and OFS is due. -/
def State.dueOn (s : State) (u m divm1 ofs : Nat) : Bool :=
  let r := s.ring m
  r.live && r.begun && r.sampled && r.deadline == u && r.dueAt divm1 ofs

/-- Whether the armed change may switch at the deadline `u` (R181). [DEDUCED, log 53] -/
def State.ocReady (s : State) (u : Nat) : Bool :=
  match s.tex.oc with
  | none => false
  | some (aff, _) => aff.all fun t =>
      let x := s.task t
      (x.kind != 1 || s.dueOn u x.ring x.divm1 x.ofs)
        && (s.rd Reg.TEX_TCFG_KIND t != 1 || s.dueOn u (s.rd Reg.TEX_TCFG_RING t) (s.rd Reg.TEX_TCFG_DIVM1 t) (s.rd Reg.TEX_TCFG_OFS t))
        && !x.isOpen && !x.toPublish

/-- A cycle of an affected task that ended publishes at this deadline before the change looks at it (R164). -/
def State.ocPublish (s : State) : State :=
  match s.tex.oc with
  | none => s
  | some (aff, _) => s.over aff fun t a => if (a.task t).toPublish ∧ (a.task t).pubAt ≤ a.T then a.publish t else a

/-- Switch at the deadline `u` if the change may. [DEDUCED, log 53] -/
def State.ocCheck (s : State) (u : Nat) : State :=
  let s1 := s.ocPublish
  if s1.ocReady u then
    match s1.tex.oc with
    | some (aff, _) => s1.ocSwitch aff
    | none => s1
  else s1

/-! ### The input deadline (R44, R49) -/

/-- The deadline of a ring: stations are looked at in every period (R308), the rest follows an instant that sampled. `axes` are
the axes that the generator pass gets to before the seal. [DEDUCED, log 12 and 13] -/
def State.inputDeadline (s : State) (n axes : Nat) : State :=
  let r := s.ring n
  if !r.live || !r.begun || r.dDone then s
  else
    let s0 := ((s.advanceTo r.deadline).setRing n { r with dDone := true }).netDeadline n
    if !r.sampled then s0
    else
      let s1 := (s0.fbDeadline n).mirrorDeadline n
      let s2 := (((s1.ocCheck r.deadline).listsDeadline n).axPass n axes).passReady n
      s2.over allTasks fun t a => a.releaseDue n t
/-- INPUT_DEADLINE. [DEDUCED, log 11] -/
def execInputDeadline (n : Fin 8) (axes : Nat) (s : State) : Host.Outcome State Fault Refusal := .next (s.inputDeadline n axes)

/-- ONLINE_CHANGE_SWITCH: the next deadline of an affected task's ring, with all that a deadline does (R174, R181), or at
once where no affected task is cyclic. [DEDUCED, log 53] -/
def execOnlineChangeSwitch (s : State) : Host.Outcome State Fault Refusal :=
  match s.tex.oc with
  | none => .next s
  | some (aff, _) =>
    match aff.find? fun t => (s.task t).kind == 1 || s.rd Reg.TEX_TCFG_KIND t == 1 with
    | none => .next (s.ocCheck s.T)
    | some t => .next (s.inputDeadline (if (s.task t).kind = 1 then (s.task t).ring else s.rd Reg.TEX_TCFG_RING t) 512)

/-! ### The seal (R44 to R48) -/

/-- Late cycles of a ring's tasks at its seal (R165). -/
def State.tasksSeal (s : State) (n : Nat) : Bool × State :=
  allTasks.foldl
    (fun (a : Bool × State) t =>
      if (a.2.task t).ring = n ∧ a.2.lateAtSeal t then (true, a.2.markLate t (a.2.ring n).now) else a) (false, s)

/-- The seal of a ring: a deadline still to come runs first, with its whole generator pass. [DEDUCED, log 11 and 12] -/
def State.ringSeal (s : State) (n : Nat) : State :=
  let r := s.ring n
  if !r.live || !r.begun || r.sDone then s
  else
    let s0 := (if r.dDone then s else s.inputDeadline n 512).advanceTo r.seal_
    let s1 := (s0.setRing n { s0.ring n with sDone := true }).takeSeal n
    let s2 := if n = 0 then s1.handoverDip else s1
    let (l1, s3) := s2.passSeal n
    let (l2, s4) := s3.axPassSeal n
    let (l3, s5) := s4.tasksSeal n
    let late := l1 || l2 || l3
    let s6 := (if late then s5.ringLate n else s5).lateDip n late
    ((((((s6.netHeld n).dacSeal n).dioSeal n).emuSeal n).netSeal n).mirrorSeal n)
/-- RING_SEAL. [DESIGN CHOICE, log 3] -/
def execRingSeal (n : Fin 8) (s : State) : Host.Outcome State Fault Refusal := .next (s.ringSeal n)

/-! ### The instant (R38, R41, R42, R45) -/

/-- The pending outputs of a ring apply (R45, R389). [DEDUCED, log 11] -/
def State.ringApply (s : State) (n : Nat) : State := (((s.takeApply n).dacApply n).dioApply n).emuApply n

/-- The next instant of a ring: what is still to come of the present period runs first. Inputs show the outputs as they
were before the apply. [DEDUCED, log 12] -/
def State.hoistInstant (s : State) (n dio asleep : Nat) : State :=
  if !(s.ring n).live then s
  else
    let s0 := s.ringSeal n
    let r := s0.ring n
    let k := r.hnum r.next
    let (turn, sT) := (s0.advanceTo r.next).ringTurn n
    let s1 := if s0.bit Reg.HST_RINGCTL_RELOAD n || turn == .stop then sT.ringClients n else sT
    match turn with
    | .go true => ((s1.cnvInstant n false asleep).hostInstant n k r.next).hoistWake n false
    | .go false =>
      let s2 := (((s1.cnvInstant n true asleep).fbHoist n k).dioSample n dio).ringApply n
      (s2.hostInstant n k r.next).hoistWake n false
    | .stop =>
      let s2 := if r.blank then s1 else s1.ringApply n
      (((s2.cnvIdle n).listsRingStop n).hoistWake n true).athStop n
    | .gap =>
      let s2 := if r.blank then s1 else s1.ringApply n
      s2.cnvIdle n
/-- HOIST_INSTANT. [DESIGN CHOICE, log 3] -/
def execHoistInstant (n : Fin 8) (dio : BitVec 48) (asleep : BitVec 16) (s : State) : Host.Outcome State Fault Refusal :=
  .next (s.hoistInstant n dio.toNat asleep.toNat)

/-- ATH_RELEASE: the instant at which the held command is due, or at which its ring stops; NORING at once where the ring does
not run (R283). [DEDUCED, log 103] -/
def execAthRelease (s : State) : Host.Outcome State Fault Refusal :=
  match s.hif.cmds with
  | c :: _ =>
    let n := c.d.hring.toNat % 8
    let g := s.ring n
    if !c.held then .next s
    else if !s.bit Reg.HST_RSTAT_RUN n then .next (s.athStop n)
    else if !s.bit Reg.HST_RINGCTL_EN n || decide (sInt 32 (c.d.hnum.toNat + 2 ^ 32 - g.hnum g.next) ≤ 0) then
      .next (s.hoistInstant n s.dio.ext 0)
    else .next s
  | [] => .next s

/-- SETPOINT_PERFORM: the next instant of a stream's ring, where the stream's head descriptor is due at it (R287, R288). -/
def execSetpointPerform (r : Fin 32) (s : State) : Host.Outcome State Fault Refusal :=
  let n := s.rd Reg.HIF_SPCFG_RING (r + 2)
  let g := s.ring n
  match tabAt [] s.hif.sps (r + 2) with
  | d :: _ =>
    if s.bit Reg.HIF_RSTAT_RUN (r + 2) && decide (sInt 32 (d.hnum + 2 ^ 32 - g.hnum g.next) ≤ 0) then
      .next (s.hoistInstant n s.dio.ext 0)
    else .next s
  | [] => .next s

/-- RELOAD_TAKE: the instant at which a pending reload is taken (R40); lines show what they showed last. [DEDUCED, log 14] -/
def execReloadTake (n : Fin 8) (s : State) : Host.Outcome State Fault Refusal :=
  .next (if s.bit Reg.HST_RINGCTL_RELOAD n then s.hoistInstant n s.dio.ext 0 else s)

end Sys2Proof.Machine
end

