-- ==== Sys2Proof/Machine/SafeIsland.lean ====
section
/-! DEFINITION. The safety island (R335 to R368). -/
namespace Sys2Proof.Machine

/-! ### Parameter block (R361) -/

/-- A field of the block in use; 0 without a block. -/
def State.blk (s : State) (off n : Nat) : Nat := match s.saf.block with | some b => fieldAt b off n | none => 0

/-- Entry offsets of the block. -/
def inAt (n : Nat) : Nat := 0x20 + 16 * n
def grpAt (g : Nat) : Nat := 0xE0 + 128 * g
def brkAt (b : Nat) : Nat := 0x4E0 + 32 * b
def monAt (g m : Nat) : Nat := grpAt g + 0x20 + 24 * m

/-- MODE of an input. -/
def State.inMode (s : State) (n : Nat) : Nat := s.blk (inAt n) 1
/-- FUNC of a group. -/
def State.grpFunc (s : State) (g : Nat) : Nat := s.blk (grpAt g) 1
/-- Whether a brake is in use, and its group. -/
def State.brkOn (s : State) (b : Nat) : Bool := bitAt (s.blk (brkAt b) 1) 7
def State.brkGroup (s : State) (b : Nat) : Nat := s.blk (brkAt b) 1 % 8

/-- Bytes `[lo, lo + n)` of a block are all 0. -/
def zeroBytes (b : List Byte) (lo n : Nat) : Bool := ((b.drop lo).take n).all fun (x : Byte) => decide (x = 0#8)

/-- A value lies in a range. -/
def within (lo hi v : Nat) : Bool := decide (lo ≤ v) && decide (v ≤ hi)

/-- A binary32 field that must be finite and not below 0. -/
def okFloat (x : Nat) : Bool := fIsFin b32 x && !fLt b32 x 0

/-- Whether an input entry is in range (R361). [DEDUCED, log 92] -/
def inputOk (b : List Byte) (n : Nat) : Bool :=
  let o := inAt n
  let mode := fieldAt b o 1
  decide (mode ≤ 3) && decide (fieldAt b (o + 1) 1 ≤ 1) && zeroBytes b (o + 6) 10
    && (mode == 0 || within 1 20 (fieldAt b (o + 2) 2))
    && (mode == 0 || mode == 3 || within 2 1000 (fieldAt b (o + 4) 2))

/-- Whether a monitor entry is in range. -/
def monitorOk (b : List Byte) (g m : Nat) : Bool :=
  let o := monAt g m
  let c := fieldAt b o 1
  decide (c / 32 % 4 = 0) && (!bitAt c 7 || decide (c % 32 < 24)) && zeroBytes b (o + 1) 3
    && okFloat (fieldAt b (o + 4) 4) && okFloat (fieldAt b (o + 8) 4) && okFloat (fieldAt b (o + 12) 4) && okFloat (fieldAt b (o + 16) 4)
    && zeroBytes b (o + 20) 4

/-- Whether a group entry is in range. [DEDUCED, log 92] -/
def groupOk (b : List Byte) (g : Nat) : Bool :=
  let o := grpAt g
  let func := fieldAt b o 1
  let dm := fieldAt b (o + 2) 2
  let rs := fieldAt b (o + 4) 1
  let isReset (n : Nat) : Bool := fieldAt b (inAt n) 1 == 3
  decide (func ≤ 3) && decide (fieldAt b (o + 1) 1 ≤ 3) && decide (dm < 4096) && zeroBytes b (o + 5) 1
    && ((upFrom 0 12).all fun n => !bitAt dm n || !isReset n)
    && (func == 0 || rs == 0xFF || (decide (rs < 12) && isReset rs))
    && decide (fieldAt b (o + 6) 2 ≤ 300) && (func == 0 || within 10 30000 (fieldAt b (o + 8) 4))
    && decide (fieldAt b (o + 12) 1 / 32 % 4 = 0) && zeroBytes b (o + 14) 18
    && ((upFrom 0 4).all fun m => monitorOk b g m)

/-- Whether a brake entry is in range. -/
def brakeOk (b : List Byte) (i : Nat) : Bool :=
  let o := brkAt i
  let cfg := fieldAt b o 1
  let used := bitAt cfg 7
  decide (cfg / 8 % 16 = 0) && (!used || decide (fieldAt b (grpAt (cfg % 8)) 1 ≠ 0)) && decide (fieldAt b (o + 1) 1 < 24)
    && (!used || within 100 10000 (fieldAt b (o + 2) 2)) && decide (fieldAt b (o + 12) 4 % 4 = 0) && zeroBytes b (o + 18) 14

/-- Whether a block is well formed (R361, R362). -/
def blockOk (b : List Byte) : Bool :=
  fieldAt b 0 4 == 0x4B534146 && fieldAt b 4 2 == 1 && fieldAt b 6 2 == 2048 && within 1 3600 (fieldAt b 8 2)
    && within 10 1000 (fieldAt b 10 2) && within 100 10000 (fieldAt b 12 2) && zeroBytes b 14 18
    && ((upFrom 0 12).all fun n => inputOk b n) && ((upFrom 0 8).all fun g => groupOk b g)
    && ((upFrom 0 4).all fun i => brakeOk b i) && zeroBytes b 0x560 0x29C

/-- The stored and the computed check value of a block. -/
def blockCrc (b : List Byte) : Nat := crc32c (b.take 0x7FC)
def blockCrcOk (b : List Byte) : Bool := fieldAt b 0x7FC 4 == blockCrc b

/-! ### States and outputs -/

/-- Module safety states (R354). -/
def msInit : Nat := 0
def msUnconf : Nat := 1
def msNormal : Nat := 2
def msHalfmast : Nat := 3
def msSafe : Nat := 4

/-- Group states (R346). -/
def gsSto : Nat := 0
def gsRun : Nat := 1
def gsSs1 : Nat := 2
def gsBtest : Nat := 3

/-- MSTATE. -/
def State.mstate (s : State) : Nat := s.rd Reg.SAF_STAT_MSTATE
/-- State of a group. -/
def State.gstate (s : State) (g : Nat) : Nat := s.rd Reg.SAF_GSTAT_STATE g
/-- A group. -/
def State.grp (s : State) (g : Nat) : GroupSt := tabAt {} s.saf.groups g
/-- Replace it. -/
def State.setGrp (s : State) (g : Nat) (x : GroupSt) : State := { s with saf := { s.saf with groups := tabPut {} s.saf.groups g x } }
/-- A brake. -/
def State.brk (s : State) (b : Nat) : BrakeSt := tabAt {} s.saf.brakes b
/-- Replace it. -/
def State.setBrk (s : State) (b : Nat) (x : BrakeSt) : State := { s with saf := { s.saf with brakes := tabPut {} s.saf.brakes b x } }
/-- An input. -/
def State.sin (s : State) (n : Nat) : InputSt := tabAt {} s.saf.inputs n
/-- Replace it. -/
def State.setSin (s : State) (n : Nat) (x : InputSt) : State := { s with saf := { s.saf with inputs := tabPut {} s.saf.inputs n x } }

/-- A summary event of the island. -/
def State.safEvent (s : State) (f : Field) (b : Nat) : State := s.setSummary 11 f b

/-- MSTATE changes: REL is 1 in NORMAL and HALFMAST alone (R354), and its fall takes the output release (R355, R443).
SDIS closes when NORMAL is reached with SDIS tested (R337). -/
def State.setMstate (s : State) (m : Nat) : State :=
  let rel := decide (m = msNormal) || decide (m = msHalfmast)
  let s1 := (s.wr Reg.SAF_STAT_MSTATE m).wrB Reg.SAF_STAT_REL rel
  let s2 := if m = msNormal ∧ s1.saf.sdisTested ∧ !s1.saf.wdog then { s1 with saf := { s1.saf with sdis := true } } else s1
  if rel then s2 else s2.outHold

/-- Whether SDIS is closed: it stays open in replay (R368). [DEDUCED, log 94] -/
def State.sdisClosed (s : State) : Bool := s.saf.sdis && !s.replaying

/-- Whether STOg is commanded on (R337, R346). -/
def State.stoOn (s : State) (g : Nat) : Bool := s.sdisClosed && !s.saf.wdog && decide (s.gstate g ≠ gsSto)

/-- Whether BRKb is commanded on (R346, R350, R352): never under test, and not once the brakes lead. -/
def State.brakeOn (s : State) (b : Nat) : Bool :=
  let g := s.brkGroup b
  s.brkOn b && s.sdisClosed && !s.saf.wdog
    && (decide (s.gstate g = gsRun) || (decide (s.gstate g = gsSs1) && (s.grp g).lead.isNone))

/-- Whether output `o` is commanded on: STO0 to STO7, BRK0 to BRK3. -/
def State.outputOn (s : State) (o : Nat) : Bool := if o < 8 then s.stoOn o else s.brakeOn (o - 8)

/-- The HEALTH land (R339): in HALFMAST a square wave of 1 Hz, whose phase the manual does not give. [DEDUCED, log 94] -/
def State.health (s : State) : Bool :=
  decide (s.mstate = msNormal) ||
    (decide (s.mstate = msHalfmast) &&
      decide ((s.time.edge - s.saf.hmAt + (Config.freeWord s.saf.hmPhase).toNat) / (500 * edgesPerMs) % 2 = 0))

/-- Whether a group has a lock (R353, R357). -/
def State.grpBtLock (s : State) (g : Nat) : Bool := (upFrom 0 4).any fun b => (s.brk b).lock && s.brkGroup b == g
def State.grpLock (s : State) (g : Nat) : Bool :=
  (s.grp g).outflt || (s.grp g).envbr || (s.grp g).hmbr || s.grpBtLock g

/-- The lock bits of a group's status register. -/
def State.grpShow (s : State) (g : Nat) : State :=
  (s.wrB Reg.SAF_GSTAT_OUTFLT (s.grp g).outflt g).wrB Reg.SAF_GSTAT_BTLOCK (s.grpBtLock g) g

/-! ### Brake tests that end (R352, R353) -/

/-- Write the test torque word (R352): source SAF. -/
def State.torqueWrite (s : State) (b v : Nat) : State :=
  s.srcWriteBytes 7 10 (.tick s.dtick) (s.blk (brkAt b + 12) 4) (leBytes 4 v)

/-- Results of a brake test. -/
def btPass : Nat := 1
def btFail : Nat := 2
def btAborted : Nat := 3
def btRefused : Nat := 4

/-- A test ends with a result: 0.0 is written if the torque was. [DEDUCED, log 91] -/
def State.testEnd (s : State) (b result : Nat) : State :=
  let x := s.brk b
  let s1 := s.torqueWrite b 0
  let s2 := (s1.setBrk b { x with run := false, torque := none }).wrB Reg.SAF_BTSTAT_RUN false b
  ((s2.wr Reg.SAF_BTSTAT_RESULT result b).safEvent Reg.SAF_EVSUM_BT 0).tally 0x0B03 b result

/-- The running tests of a group. -/
def State.testsOf (s : State) (g : Nat) : List Nat := (upFrom 0 4).filter fun b => (s.brk b).run && s.brkGroup b == g

/-! ### Group transitions (R346 to R350) -/

/-- A group changes its state; `cause` is the fault that put it into STO, or 0. A running test ends ABORTED unless it ended
already. -/
def State.grpTo (s : State) (g st cause : Nat) : State :=
  if s.gstate g = st then s
  else
    let s0 := if s.gstate g = gsBtest then s.over (s.testsOf g) fun b s => s.testEnd b btAborted else s
    let s1 := (s0.wr Reg.SAF_GSTAT_STATE st g).setGrp g { s0.grp g with tau := 0, lead := none, ready := false }
    let s2 := if st = gsSto then
        (s1.wrB Reg.SAF_GSTAT_HMBR (decide (cause = 0x25)) g).wrB Reg.SAF_GSTAT_ENVBR (decide (cause = 0x24)) g
      else s1
    let s3 := (s2.safEvent Reg.SAF_EVSUM_GRP g).grpShow g
    let evt := s3.blk (grpAt g + 12) 2
    if bitAt evt 7 then s3.flagSet 2 4 (evt / 256) (2 ^ (evt % 32)) else s3

/-- A fault ends every running test, with ABORTED (R352). [DEDUCED, log 91] -/
def State.testsAbort (s : State) : State :=
  s.over (upFrom 0 4) fun b s => if (s.brk b).run then s.grpTo (s.brkGroup b) gsSto 0 else s

/-- Every group goes to STO at once. -/
def State.allSto (s : State) : State := s.over (upFrom 0 8) fun g s => s.grpTo g gsSto 0

/-- Whether every group is in STO. -/
def State.everySto (s : State) : Bool := (upFrom 0 8).all fun g => s.gstate g == gsSto

/-! ### Faults (R356, R357) -/

/-- Class of a fault code, as its letter in ASCII. [DEDUCED, log 88] -/
def faultClass (code : Nat) : Nat :=
  if code < 0x10 then 0x43
  else if code < 0x20 then 0x4E
  else if code = 0x21 ∨ code = 0x22 then 0x49
  else 0x47

/-- Groups that an input demands. -/
def State.inputGroups (s : State) (n : Nat) : Nat :=
  (upFrom 0 8).foldl (fun a g => a + b2n (bitAt (s.blk (grpAt g + 2) 2) n) * 2 ^ g) 0

/-- Enter SAFE (R357, R359): dip, every output off, SDIS open. [DEDUCED, log 94] -/
def State.enterSafe (s : State) : State :=
  let s1 := (s.dip 1).allSto
  let now := s1.time.edge
  let l := now :: (s1.saf.safeTimes.filter fun t => decide (now ≤ t + 600000 * edgesPerMs))
  let s2 := ({ s1 with saf := { s1.saf with sdis := false, safeAt := some now, safeTimes := l } }).setMstate msSafe
  if 3 ≤ l.length then s2.wrB Reg.SAF_STAT_SAFELOCK true else s2

/-- A fault is found: code and the group, input or brake it names. [DEDUCED, log 88] -/
def State.safFault (s : State) (code obj : Nat) : State :=
  if s.mstate = msSafe then s
  else
    let cls := faultClass code
    let mask := if cls = 0x43 then 0xFF else if cls = 0x49 then s.inputGroups obj else 2 ^ obj
    let s1 := (s.wr Reg.SAF_STAT_FCODE code).safEvent Reg.SAF_EVSUM_FLT 0
    let s2 :=
      if cls = 0x43 then s1.enterSafe
      else if cls = 0x4E then
        if s1.mstate = msNormal then
          let (i, s2) := ((s1.dip 1).setMstate msHalfmast).draw
          { s2 with saf := { s2.saf with hmAt := s2.time.edge, hmPhase := i, hmOverTime := false } }
        else s1
      else if cls = 0x49 then
        let x := s1.sin obj
        ((s1.setSin obj { x with flt := true, seen := false }).setBitOf Reg.SAF_SINST_FLT obj).safEvent Reg.SAF_EVSUM_SIN obj
      else
        let x := s1.grp obj
        let y := if code = 0x20 then { x with outflt := true } else if code = 0x24 then { x with envbr := true }
          else if code = 0x25 then { x with hmbr := true } else x
        ((s1.setGrp obj y).grpTo obj gsSto code).grpShow obj
    s2.testsAbort.tally 0x0B01 code cls mask

/-- A fault found between cycle ends: the engine takes it at the end of the cycle (R335). [DEDUCED, log 88] -/
def State.safNote (s : State) (code obj : Nat) : State := { s with saf := { s.saf with found := s.saf.found ++ [(code, obj)] } }

/-- A condition found between cycle ends: a fault when it appears. [DEDUCED, log 88] -/
def State.noteCond (s : State) (code obj : Nat) (now : Bool) : State :=
  let k := code * 64 + obj
  let s1 := { s with saf := { s.saf with conds := setTo s.saf.conds k now } }
  if now && !s.saf.conds.contains k then s1.safNote code obj else s1

/-- The faults found since the last cycle end, class C first (R335, R357). [DEDUCED, log 88] -/
def State.takeFound (s : State) : State :=
  let c := s.saf.found.filter fun p => faultClass p.1 == 0x43
  let r := s.saf.found.filter fun p => faultClass p.1 != 0x43
  ({ s with saf := { s.saf with found := [] } }).over (c ++ r) fun p s => s.safFault p.1 p.2

/-- A condition of the diagnostics: a fault when it appears. [DEDUCED, log 88] -/
def State.safCond (s : State) (code obj : Nat) (now : Bool) : State :=
  let k := code * 64 + obj
  let was := s.saf.conds.contains k
  let s1 := { s with saf := { s.saf with conds := setTo s.saf.conds k now } }
  if now && !was then s1.safFault code obj else s1

/-! ### Monitors (R349, R351, R358) -/

/-- Whether monitor `m` of group `g` is enabled; its channel. -/
def State.monOn (s : State) (g m : Nat) : Bool := decide (s.grpFunc g ≠ 0) && bitAt (s.blk (monAt g m) 1) 7
def State.monChan (s : State) (g m : Nat) : Nat := s.blk (monAt g m) 1 % 32

/-- Island counts to channel counts (R351): 2^CSH / 4 in the SINCOS modes. -/
def State.islandScale (s : State) (c : Nat) : Rat :=
  let m := s.rd Reg.FBK_CFG_MODE c
  if m = fmSincos ∨ m = fmBoth then ((2 ^ s.rd Reg.FBK_CFG_CSH c : Nat) : Rat) / 4 else 1

/-- Count difference over the last four cycle ends. -/
def State.islandDiff (s : State) (c : Nat) : Nat :=
  match s.saf.hist with
  | [a, _, _, _, e] => (a.getD c 0 - e.getD c 0).natAbs
  | _ => 0

/-- |v| in channel counts per second for a count difference. [DEDUCED, log 91] -/
def State.speedOf (s : State) (c d : Nat) : Rat := (d : Rat) * s.islandScale c * 1000

/-- Whether the receiver of a monitored channel is in order. -/
def State.monValid (s : State) (c : Nat) : Bool := (s.fb c).run && !(s.fb c).line && !(s.fb c).ampFlt

/-- A binary32 field of a monitor as a rational. -/
def State.monParm (s : State) (g m off : Nat) : Rat := ratOf b32 (s.blk (monAt g m + off) 4)

/-- The monitors of a group that are enabled. -/
def State.monitors (s : State) (g : Nat) : List Nat := (upFrom 0 4).filter fun m => s.monOn g m

/-- The channels a monitor of a used group names. -/
def State.monChans (s : State) : List Nat :=
  (upFrom 0 24).filter fun c => (upFrom 0 8).any fun g => (s.monitors g).any fun m => s.monChan g m == c

/-- The absolute value of a rational number. -/
def ratAbs (x : Rat) : Rat := if x < 0 then -x else x

/-- PLAUS of one channel (R351): more than four island counts apart at two cycle ends in a row. -/
def State.plausCheck (s : State) (counts : List Int) (c : Nat) : State :=
  let far := s.monValid c &&
    decide (4 * s.islandScale c < ratAbs ((counts.getD c 0 : Rat) * s.islandScale c - ((s.fb c).pos : Rat) / 65536))
  let n := if far then Nat.min 2 (tabAt 0 s.saf.plaus c + 1) else 0
  let s1 := { s with saf := { s.saf with plaus := tabPut 0 s.saf.plaus c n } }
  let g := ((upFrom 0 8).find? fun g => (s.monitors g).any fun m => s.monChan g m == c).getD 0
  let k := 0x11 * 64 + 8 + c
  let was := s1.saf.conds.contains k
  let s2 := { s1 with saf := { s1.saf with conds := setTo s1.saf.conds k (decide (n = 2)) } }
  if n = 2 ∧ !was then s2.safFault 0x11 g else s2

/-- Half-mast limits of a group (R358). -/
def State.hmCheck (s : State) (g : Nat) : State :=
  s.over (s.monitors g) fun m s =>
    let c := s.monChan g m
    let vhm := s.monParm g m 16
    let tooFast := decide (s.mstate = msHalfmast) && decide (0 < vhm) && decide (vhm < s.speedOf c (s.islandDiff c))
    let n := if tooFast then Nat.min 2 (tabAt 0 s.saf.hmOver (4 * g + m) + 1) else 0
    let s1 := { s with saf := { s.saf with hmOver := tabPut 0 s.saf.hmOver (4 * g + m) n } }
    if n = 2 ∧ tabAt 0 s.saf.hmOver (4 * g + m) ≠ 2 then s1.safFault 0x25 g else s1

/-- The envelope of a group in SS1 (R349): breach, and the speeds at or below VSTOP. [DEDUCED, log 91] -/
def State.envelope (s : State) (g tau : Nat) : Bool × Bool :=
  let ms := s.monitors g
  let v0 := (s.grp g).v0
  let breach := ms.any fun m =>
    let c := s.monChan g m
    let d := s.speedOf c (v0.getD m 0) - s.monParm g m 4 * ((tau : Rat) / 4000)
    let lim := (if 0 < d then d else 0) + s.monParm g m 8
    !s.monValid c || decide (lim < s.speedOf c (s.islandDiff c))
  let still := decide (ms ≠ []) && ms.all fun m =>
    let c := s.monChan g m
    decide (s.speedOf c (s.islandDiff c) ≤ s.monParm g m 12)
  (breach, still)

/-! ### Inputs (R340 to R344) -/

/-- Whether a contact is accepted in its demand state (R340): a RESET input has contact A alone, and its no-demand state is
open. [DEDUCED, log 146] -/
def State.contactDem (s : State) (n : Nat) (b : Bool) : Bool :=
  let reset := decide (s.inMode n = 3)
  let x := tabAt ({} : ContactSt) s.saf.contacts (2 * n + b2n (b && !reset))
  if reset || (decide (s.inMode n = 2) && b) then x.acc else !x.acc

/-- Whether an input has two contacts that can disagree. -/
def State.twoContacts (s : State) (n : Nat) : Bool := decide (s.inMode n = 1) || decide (s.inMode n = 2)

/-- SAFE_INPUT_CHANGE. -/
def execSafeInputChange (n : Fin 12) (contactB closed : Bool) (s : State) : Host.Outcome State Fault Refusal :=
  let i := 2 * n.val + b2n contactB
  let x := tabAt ({} : ContactSt) s.saf.contacts i
  if x.raw = closed then .next s
  else
    let y : ContactSt := { x with raw := closed, since := s.time.edge }
    .next { s with saf := { s.saf with contacts := tabPut {} s.saf.contacts i y } }

/-- The accepted state of contact A of a reset input: the opening after 100 ms to 3 s is a reset (R344). -/
def InputSt.resetEdge (x : InputSt) (closed : Bool) (now : Nat) : InputSt :=
  if closed then { x with closedAt := some now }
  else match x.closedAt with
    | some t => { x with closedAt := none, reset := x.reset || (decide (t + 100 * edgesPerMs ≤ now) && decide (now ≤ t + 3000 * edgesPerMs)) }
    | none => x

/-- Since when the accepted states of an input's two contacts disagree (R342). -/
def State.discTrack (s : State) (n : Nat) : State :=
  let x := s.sin n
  if !s.twoContacts n || s.contactDem n false == s.contactDem n true then s.setSin n { x with disc := none, discTold := false }
  else s.setSin n { x with disc := some (x.disc.getD s.time.edge) }

/-- After a contact has been accepted: discrepancy and the travel that clears a fault (R342, R343). [DEDUCED, log 146] -/
def State.inputTravel (s : State) (n : Nat) : State :=
  let s0 := s.discTrack n
  let a := s0.contactDem n false
  let b := s0.contactDem n true
  let x := s0.sin n
  let seen := x.seen || (x.flt && a && b)
  let clear := x.flt && seen && !a && !b
  let s1 := s0.setSin n { x with seen := seen && !clear, flt := x.flt && !clear }
  if clear then s1.clrBitOf Reg.SAF_SINST_FLT n else s1

/-- CONTACT_ACCEPTED: a contact state has stood FILT ms (R342). -/
def execContactAccepted (n : Fin 12) (contactB : Bool) (s : State) : Host.Outcome State Fault Refusal :=
  let i := 2 * n.val + b2n contactB
  let x := tabAt ({} : ContactSt) s.saf.contacts i
  if x.raw = x.acc ∨ s.inMode n = 0 then .next s
  else
    let s1 := s.advanceEdge (x.since + s.blk (inAt n + 2) 2 * edgesPerMs)
    let s2 := { s1 with saf := { s1.saf with contacts := tabPut {} s1.saf.contacts i { x with acc := x.raw } } }
    if s2.inMode n = 3 then
      .next (if contactB then s2 else (s2.setSin n ((s2.sin n).resetEdge x.raw s2.time.edge)).inputTravel n)
    else .next (s2.inputTravel n)

/-- DISCREPANCY_TIMEOUT: the accepted states have disagreed for DISC ms (R342). -/
def execDiscrepancyTimeout (n : Fin 12) (s : State) : Host.Outcome State Fault Refusal :=
  match (s.sin n).disc with
  | none => .next s
  | some t =>
    if (s.sin n).discTold then .next s
    else
      let s1 := s.advanceEdge (t + s.blk (inAt n + 4) 2 * edgesPerMs)
      .next ((s1.setSin n { s1.sin n with discTold := true }).safNote 0x22 n)

/-- What a test pulse shows of an input (R341): a fault when it appears, and again where its latch has cleared. [DEDUCED, log 146] -/
def State.pulseInput (s : State) (n : Nat) (sourceB bad : Bool) : State :=
  let k := 0x21 * 64 + n + 16 * b2n sourceB
  let was := s.saf.conds.contains k && (s.sin n).flt
  let s1 := { s with saf := { s.saf with conds := setTo s.saf.conds k bad } }
  if bad && !was then s1.safNote 0x21 n else s1

/-- TEST_PULSE: a source pulls low; contacts of the source that stay high, and of the other that go low (R341). -/
def execTestPulse (sourceB : Bool) (staysHigh crossLow : BitVec 12) (s : State) : Host.Outcome State Fault Refusal :=
  if s.saf.block.isNone then .next s
  else
    let i := b2n sourceB
    let per := s.blk 10 2 * edgesPerMs
    let due := match tabAt 0 s.saf.pulses i with
      | 0 => (match tabAt 0 s.saf.pulses (1 - i) with | 0 => s.time.edge | t => t + per / 2)
      | t => t + per
    let s1 := s.advanceEdge due
    let s2 := { s1 with saf := { s1.saf with pulses := tabPut 0 s1.saf.pulses i (max 1 s1.time.edge) } }
    .next (s2.over (upFrom 0 12) fun n s =>
      let used (b : Bool) : Bool := decide (s.inMode n ≠ 0) && (!b || s.twoContacts n)
      let bad := (used sourceB && bitAt staysHigh.toNat n) || (used (!sourceB) && bitAt crossLow.toNat n)
      s.pulseInput n sourceB (bitAt (s.blk (inAt n + 1) 1) 0 && bad))

/-- The inputs at a cycle end (R342, R343). -/
def State.inputsEval (s : State) : State :=
  s.over (upFrom 0 12) fun n s =>
    let s := s.discTrack n
    let x := s.sin n
    let dem := if s.saf.block.isNone then true else if s.inMode n = 0 then false
      else x.flt || (s.twoContacts n && (s.contactDem n false || s.contactDem n true))
    let s1 := s.setSin n { x with dem := dem }
    if dem then s1.setBitOf Reg.SAF_SINST_DEM n else s1.clrBitOf Reg.SAF_SINST_DEM n

/-! ### Groups at a cycle end (R345 to R350) -/

/-- Whether a group demands (R345, R366); `req` is the request word. -/
def State.demands (s : State) (g req : Nat) : Bool :=
  let dm := s.blk (grpAt g + 2) 2
  decide (s.grpFunc g ≠ 0) && (((upFrom 0 12).any fun n => bitAt dm n && (s.sin n).dem)
    || (bitAt (s.blk (grpAt g + 1) 1) 0 && bitAt req g) || (decide (s.mstate = msHalfmast) && s.saf.hmOverTime))

/-- Whether a reset for the group has arrived since the last cycle end (R347). [DEDUCED, log 90] -/
def State.resetFor (s : State) (g : Nat) : Bool :=
  let rs := s.blk (grpAt g + 4) 1
  (decide (rs < 12) && (s.sin rs).reset) || (bitAt (s.blk (grpAt g + 1) 1) 1 && (s.grp g).ack)

/-- A group in STO (R347): a reset given after every other condition held releases it, or clears its locks first. -/
def State.grpRelease (s : State) (g : Nat) (dem : Bool) : State :=
  let x := s.grp g
  let cond := decide (s.mstate = msNormal) && s.bit Reg.SAF_STAT_REL && decide (s.progState = 1) && !dem && !s.replaying
  if !cond then s.setGrp g { x with ready := false }
  else if x.ready && s.resetFor g then
    if s.grpLock g then ((s.setGrp g { x with outflt := false, envbr := false, hmbr := false, ready := false }).grpShow g)
    else s.grpTo g gsRun 0
  else s.setGrp g { x with ready := true }

/-- A group in SS1 (R349, R350). [DEDUCED, log 91] -/
def State.grpSs1 (s : State) (g : Nat) : State :=
  let x := s.grp g
  let tau := x.tau + 1
  let s1 := s.setGrp g { x with tau := tau }
  let (breach, still) := s1.envelope g tau
  let r := decide (s1.grpFunc g = 3)
  if r && breach then s1.safFault 0x24 g
  else match x.lead with
  | some e => if e ≤ s1.time.edge then s1.grpTo g gsSto 0 else s1
  | none =>
    if decide (s1.blk (grpAt g + 8) 4 * 4 ≤ tau) || (r && still) then
      let lead := s1.blk (grpAt g + 6) 2
      if lead = 0 then s1.grpTo g gsSto 0 else s1.setGrp g { s1.grp g with lead := some (s1.time.edge + lead * edgesPerMs) }
    else s1

/-- A group at a cycle end. -/
def State.grpEval (s : State) (g req : Nat) : State :=
  let dem := s.demands g req
  let s := s.wrB Reg.SAF_GSTAT_DEM dem g
  if s.grpFunc g = 0 ∨ !s.bit Reg.SAF_STAT_REL ∨ s.replaying then (s.grpTo g gsSto 0).setGrp g { s.grp g with ready := false, lead := none }
  else if s.gstate g = gsSto then s.grpRelease g dem
  else if s.gstate g = gsRun then
    if !dem then s
    else if s.grpFunc g = 1 then s.grpTo g gsSto 0
    else
      let s1 := s.grpTo g gsSs1 0
      s1.setGrp g { s1.grp g with v0 := (upFrom 0 4).map fun m => s1.islandDiff (s1.monChan g m) }
  else if s.gstate g = gsSs1 then s.grpSs1 g
  else if dem then s.grpTo g gsSto 0 else s

/-- The brake tests at a cycle end: the drift limit (R352). [DEDUCED, log 91] -/
def State.driftCheck (s : State) (counts : List Int) (b : Nat) : State :=
  let x := s.brk b
  if !x.run then s
  else
    let c := s.blk (brkAt b + 1) 1
    let moved : Rat := ratAbs ((counts.getD c 0 - x.p0 : Int) : Rat) * s.islandScale c
    if (s.blk (brkAt b + 4) 4 : Rat) < moved then
      let s1 := s.testEnd b btFail
      (s1.setBrk b { s1.brk b with lock := true }).safFault 0x23 (s1.brkGroup b)
    else s

/-- Hours of AGE, and DUE (R353). -/
def State.brakeDue (s : State) (b : Nat) : State :=
  let int := s.blk (brkAt b + 16) 2
  if s.brkOn b && decide (int ≠ 0) && decide (int ≤ s.rd Reg.SAF_BTSTAT_AGE b) && !s.bit Reg.SAF_BTSTAT_DUE b then
    (s.wrB Reg.SAF_BTSTAT_DUE true b).tally 0x0B04 b
  else s
/-- BRAKE_TEST_DUE. -/
def execBrakeTestDue (b : Fin 4) (s : State) : Host.Outcome State Fault Refusal := .next (s.brakeDue b)

/-- One hour in CLK_TB edges. -/
def edgesPerHour : Nat := 3600000 * edgesPerMs

/-- Count the hours since the last pass. [DEDUCED, log 94] -/
def State.ageCount (s : State) (b : Nat) : State :=
  let x := s.brk b
  let n := (s.time.edge - x.ageAt) / edgesPerHour
  if n = 0 then s
  else
    let s1 := s.setBrk b { x with ageAt := x.ageAt + n * edgesPerHour }
    (s1.wr Reg.SAF_BTSTAT_AGE (Nat.min 0xFFFF (s1.rd Reg.SAF_BTSTAT_AGE b + n)) b).brakeDue b

/-! ### The cycle (R335, R365, R366) -/

/-- The status record (R365). -/
def State.safRecord (s : State) : List Byte :=
  let grps := (upFrom 0 8).foldl (fun a g =>
    a + (s.gstate g + b2n (s.bit Reg.SAF_GSTAT_DEM g) * 4 + b2n (s.grpLock g) * 8) * 16 ^ g) 0
  let stop := (upFrom 0 8).foldl (fun a g => a + b2n (decide (s.gstate g = gsSs1)) * 2 ^ g) 0
  leBytes 4 s.saf.cyc ++ leBytes 1 (s.mstate + b2n (s.bit Reg.SAF_STAT_REL) * 128) ++ leBytes 1 0 ++ leBytes 2 (s.rd Reg.SAF_HMREM_S)
    ++ leBytes 4 grps ++ leBytes 2 (s.rd Reg.SAF_SINST_DEM) ++ leBytes 2 (s.rd Reg.SAF_SINST_FLT)
    ++ leBytes 1 stop ++ leBytes 1 (s.rd Reg.SAF_STAT_FCODE) ++ leBytes 2 0 ++ leBytes 8 s.htime ++ leBytes 4 s.saf.cyc

/-- HMREM and the end of the half-mast time (R358). -/
def State.hmTime (s : State) : State :=
  if s.mstate ≠ msHalfmast then s.wr Reg.SAF_HMREM_S 0
  else
    let total := s.blk 8 2 * 1000 * edgesPerMs
    let gone := s.time.edge - s.saf.hmAt
    let ended := s.saf.hmOverTime || decide (total ≤ gone)
    let left := if ended then 0 else (total - gone + (1000 * edgesPerMs - 1)) / (1000 * edgesPerMs)
    ({ s with saf := { s.saf with hmOverTime := ended } }).wr Reg.SAF_HMREM_S left

/-- The faults that the diagnostics show, class C first. [DEDUCED, log 87] -/
def State.safDiag (s : State) (d : SafObs) : State :=
  let s1 := (((((s.safCond 3 0 d.smem).safCond 4 0 d.flow).safCond 5 0 d.pcrc).safCond 8 0 d.rail).safCond 9 0 d.tempC)
  let s2 := s1.over (upFrom 0 12) fun o s => s.safCond 6 o (bitAt d.readOn.toNat o && !s.outputOn o)
  let s3 := s2.safCond 0x10 0 d.tempN
  let s4 := s3.over s3.monChans fun c s => s.plausCheck d.counts c
  let s5 := s4.over (upFrom 0 8) fun g s =>
    s.safCond 0x12 g (decide (s.gstate g = gsRun) && (s.monitors g).any fun m => !s.monValid (s.monChan g m))
  s5.over (upFrom 0 12) fun o s =>
    if bitAt d.readOff.toNat o && s.outputOn o then s.safFault 0x20 (if o < 8 then o else s.brkGroup (o - 8)) else s

/-- Whether a class N cause persists. -/
def State.nCause (s : State) : Bool := s.saf.conds.any fun k => decide (0x10 ≤ k / 64) && decide (k / 64 ≤ 0x12)

/-- A request to leave HALFMAST (R358). -/
def State.hmAck (s : State) : State :=
  let s1 := { s with saf := { s.saf with fack := false } }
  if s.saf.fack && decide (s.mstate = msHalfmast) && s.everySto && !s.nCause then
    ({ s1 with saf := { s1.saf with hmOverTime := false } }).setMstate msNormal
  else s1

/-- The end of a safety cycle (R335). -/
def State.safCycle (s : State) (d : SafObs) : State :=
  let s0 := s.advanceEdge (s.saf.cycAt + 50000)
  let s1 := { s0 with saf := { s0.saf with
    cyc := (s0.saf.cyc + 1) % 2 ^ 32, cycAt := s0.time.edge, heartbeat := s0.time.edge, hist := (d.counts :: s0.saf.hist).take 5 } }
  let s2 := s1.takeFound.safDiag d
  let s3 := (s2.over (upFrom 0 8) fun g s => s.hmCheck g).over (upFrom 0 4) fun b s => s.driftCheck d.counts b
  let s4 := s3.inputsEval.hmTime
  let ((w, p), s5) := s4.lndWord 7 (s4.rd Reg.SAF_RBASE_BASE * 64 + 32)
  let req := if p then 0xFFFFFFFF else w
  let s6 := s5.hmAck.over (upFrom 0 8) fun g s => s.grpEval g req
  let s7 := s6.over (upFrom 0 8) fun g s => (s.setGrp g { s.grp g with ack := false }).grpShow g
  let s8 := (s7.over (upFrom 0 12) fun n s => s.setSin n { s.sin n with reset := false }).over (upFrom 0 4) fun b s => s.ageCount b
  let s9 := s8.wrB Reg.SAF_STAT_SDISDUE (decide (s8.saf.sdisAt + 30 * 24 * edgesPerHour < s8.time.edge))
  s9.srcWriteBytes 7 10 (.tick s9.dtick) (s9.rd Reg.SAF_RBASE_BASE * 64) s9.safRecord

/-- SAFETY_CYCLE. [DEDUCED, log 87] -/
def execSafetyCycle (d : SafObs) (s : State) : Host.Outcome State Fault Refusal := .next (s.safCycle d)

/-! ### Further events -/

/-- OUTPUT_TEST_PULSE: the off-pulse of an energised output, every TPOUT ms (R356). -/
def execOutputTestPulse (out : Fin 12) (stayedOn : Bool) (s : State) : Host.Outcome State Fault Refusal :=
  if !s.outputOn out then .next s
  else
    let i := 2 + out.val
    let per := s.blk 12 2 * edgesPerMs
    let s1 := match tabAt 0 s.saf.pulses i with | 0 => s | t => s.advanceEdge (t + per)
    let s2 := { s1 with saf := { s1.saf with pulses := tabPut 0 s1.saf.pulses i (max 1 s1.time.edge) } }
    .next (if stayedOn then s2.safNote 6 0 else s2)

/-- OUTPUT_WATCHDOG: no heartbeat for 3 ms (R338); the output die opens within 1 ms and latches the event. -/
def execOutputWatchdog (s : State) : Host.Outcome State Fault Refusal :=
  let s1 := s.advanceEdge (s.saf.heartbeat + 3 * edgesPerMs)
  .next { s1 with saf := { s1.saf with sdis := false, wdog := true } }

/-- CLOCK_CHECK: deviation of CLK_TB in ppm, shown by SAFXOK (R23), and what device time advanced in 1 ms of CLK_SAF, ns (R356). [DEDUCED, log 87] -/
def execClockCheck (ppm : Int) (advanced : Nat) (s : State) : Host.Outcome State Fault Refusal :=
  let s1 := s.advanceEdge s.saf.nextClock
  let s2 := { s1 with saf := { s1.saf with nextClock := s1.time.edge + edgesPerMs } }
  let s3 := s2.wrB Reg.SYS_CLKSTAT_SAFXOK (decide (ppm.natAbs ≤ 30000))
  .next ((s3.noteCond 1 0 (decide (30000 < ppm.natAbs))).noteCond 2 0 (decide (advanced < 970000) || decide (1030000 < advanced)))

/-- SDIS_TEST (R337): at INIT, and with every group in STO when the last test is more than 24 h old. -/
def execSdisTest (ok : Bool) (s : State) : Host.Outcome State Fault Refusal :=
  let due := decide (s.mstate = msInit) || (decide (s.mstate ≠ msSafe) && s.everySto
    && decide (s.saf.sdisAt + 24 * edgesPerHour < s.time.edge))
  if !due then .next s
  else if ok then .next ({ s with saf := { s.saf with sdisTested := true, sdisAt := s.time.edge } }.wrB Reg.SAF_STAT_SDISDUE false)
  else .next (s.safNote 7 0)

/-- GROUP_RESET: resets through SAF_CMD.ACK (R347). [DEDUCED, log 89] -/
def State.grpAck (s : State) (mask : Nat) : State :=
  s.over (upFrom 0 8) fun g s => if bitAt mask g then s.setGrp g { s.grp g with ack := true } else s
/-- GROUP_RESET. -/
def execGroupReset (mask : BitVec 8) (s : State) : Host.Outcome State Fault Refusal := .next (s.grpAck mask.toNat)

/-- A write of HMEND (R358). [DEDUCED, log 89] -/
def State.hmEnd (s : State) : State :=
  if s.mstate = msHalfmast then ({ s with saf := { s.saf with hmOverTime := true } }).wr Reg.SAF_HMREM_S 0 else s
/-- HALFMAST_END. -/
def execHalfmastEnd (s : State) : Host.Outcome State Fault Refusal := .next s.hmEnd

/-- HALFMAST_TIMEOUT: HMTIME has elapsed (R358). -/
def execHalfmastTimeout (s : State) : Host.Outcome State Fault Refusal :=
  if s.mstate = msHalfmast then .next (s.advanceEdge (s.saf.hmAt + s.blk 8 2 * 1000 * edgesPerMs)).hmEnd else .next s

/-- A write of FACK: the engine decides at the cycle end (R335, R358). [DEDUCED, log 89] -/
def State.hmFack (s : State) : State := { s with saf := { s.saf with fack := true } }
/-- HALFMAST_ACK. -/
def execHalfmastAck (s : State) : Host.Outcome State Fault Refusal := .next s.hmFack

/-- BRAKE_LEAD_END: BLEAD ms after the brakes dropped (R350). -/
def execBrakeLeadEnd (g : Fin 8) (s : State) : Host.Outcome State Fault Refusal :=
  match (s.grp g).lead with
  | some e => if s.gstate g = gsSs1 then .next ((s.advanceEdge e).grpTo g gsSto 0) else .next s
  | none => .next s

/-- START of a brake test (R352). [DEDUCED, log 89 and 90] -/
def State.brakeTest (s : State) (b : Nat) : State :=
  let g := s.brkGroup b
  let x := s.grp g
  let ok := s.brkOn b && decide (s.gstate g = gsSto) && !s.bit Reg.SAF_GSTAT_DEM g && !(x.outflt || x.envbr || x.hmbr)
    && decide (s.mstate = msNormal) && decide (s.progState = 1) && !s.replaying
  if !ok then ((s.wr Reg.SAF_BTSTAT_RESULT btRefused b).safEvent Reg.SAF_EVSUM_BT 0).tally 0x0B03 b btRefused
  else
    let c := s.blk (brkAt b + 1) 1
    let p0 := match s.saf.hist with | l :: _ => l.getD c 0 | [] => 0
    let s1 := (s.grpTo g gsBtest 0).setBrk b { s.brk b with run := true, p0 := p0, start := s.time.edge, torque := none }
    (s1.wrB Reg.SAF_BTSTAT_RUN true b).wr Reg.SAF_BTSTAT_RESULT 0 b
/-- BRAKE_TEST_START. -/
def execBrakeTestStart (b : Fin 4) (s : State) : Host.Outcome State Fault Refusal := .next (s.brakeTest b)

/-- BRAKE_TEST_TORQUE: 200 ms into a test. -/
def execBrakeTestTorque (b : Fin 4) (s : State) : Host.Outcome State Fault Refusal :=
  let x := s.brk b
  if !x.run || x.torque.isSome then .next s
  else
    let s1 := s.advanceEdge (x.start + 200 * edgesPerMs)
    .next ((s1.setBrk b { x with torque := some s1.time.edge }).torqueWrite b (s1.blk (brkAt b + 8) 4))

/-- BRAKE_TEST_PASS: TTEST ms after the torque write (R352, R353). -/
def execBrakeTestPass (b : Fin 4) (s : State) : Host.Outcome State Fault Refusal :=
  match (s.brk b).torque with
  | none => .next s
  | some t =>
    if !(s.brk b).run then .next s
    else
      let s1 := (s.advanceEdge (t + s.blk (brkAt b + 2) 2 * edgesPerMs)).testEnd b btPass
      let s2 := (s1.setBrk b { s1.brk b with lock := false, ageAt := s1.time.edge }).wr Reg.SAF_BTSTAT_AGE 0 b
      let s3 := s2.wrB Reg.SAF_BTSTAT_DUE false b
      .next (((s3.grpTo (s3.brkGroup b) gsSto 0)).grpShow (s3.brkGroup b))

/-- ABORT of the running test (R352). -/
def State.brakeAbort (s : State) : State :=
  s.over (upFrom 0 4) fun b s => if (s.brk b).run then (s.testEnd b btAborted).grpTo (s.brkGroup b) gsSto 0 else s
/-- BRAKE_TEST_ABORT. -/
def execBrakeTestAbort (s : State) : Host.Outcome State Fault Refusal := .next s.brakeAbort

/-! ### Parameter blocks (R362 to R364) -/

/-- A refusal of a parameter command. -/
def State.parmReject (s : State) (cause : Nat) : State :=
  ((s.wrB Reg.SAF_PSTAT_REJ true).wr Reg.SAF_PSTAT_CAUSE cause).safEvent Reg.SAF_EVSUM_PLD 0

/-- LOAD (R362). [DEDUCED, log 89 and 92] -/
def State.parmLoad (s : State) : State :=
  if !s.everySto || s.replaying || decide (s.mstate = msInit) || decide (s.mstate = msHalfmast) || decide (s.mstate = msSafe) then
    s.parmReject 1
  else
    let ((b, p), s1) := s.lndBytes 7 (s.rd Reg.SAF_PADDR_ADDR * 8) 2048
    if p then s1.parmReject 5
    else if !blockOk b then s1.parmReject 2
    else if !blockCrcOk b then s1.parmReject 3
    else
      let s2 := ({ s1 with saf := { s1.saf with staged := some b } }).setMstate msUnconf
      ((s2.wrB Reg.SAF_PSTAT_STAGED true).wr Reg.SAF_PCRC_CRC (blockCrc b)).safEvent Reg.SAF_EVSUM_PLD 0
/-- PARAM_LOAD. -/
def execParamLoad (s : State) : Host.Outcome State Fault Refusal := .next s.parmLoad

/-- The two copies in the SAFETY region (R266, R363): the block, then a mark; their places and the mark are the model's. [DESIGN CHOICE, log 93] -/
def copyAt (i : Nat) : Nat := 0x480000 + 0x20000 * i
def confirmMark : Nat := 0x00000000C0F1C0F1

/-- Write a copy with its mark. [DESIGN CHOICE, log 93] -/
def State.copyPut (s : State) (i : Nat) (b : List Byte) : State :=
  (s.mramPut (copyAt i) b).mramPut (copyAt i + 2048) (leBytes 8 confirmMark)

/-- Read a copy: `none` unless it is good (R364). [DESIGN CHOICE, log 93] -/
def State.copyGet (s : State) (i : Nat) : Option (List Byte) × State :=
  let ((b, p), s1) := s.mramGet (copyAt i) 2048
  let ((m, q), s2) := s1.mramGet (copyAt i + 2048) 8
  (if !p && !q && blockCrcOk b && leNat m == confirmMark then some b else none, s2)

/-- CONFIRM (R363). [DEDUCED, log 92] -/
def State.parmConfirm (s : State) : State :=
  match s.saf.staged with
  | none => s.parmReject 6
  | some b =>
    if s.mstate ≠ msUnconf then s.parmReject 1
    else if blockCrc b ≠ s.rd Reg.SAF_PCONF_CRC then s.parmReject 4
    else
      let old := s.rd Reg.SAF_PACT_CRC
      let s1 := (s.copyPut 0 b).copyPut 1 b
      let s2 := ({ s1 with saf := { s1.saf with staged := none, block := some b } }).wrB Reg.SAF_PSTAT_STAGED false
      let s3 := ((s2.wrB Reg.SAF_STAT_CONF true).wr Reg.SAF_PACT_CRC (blockCrc b)).setMstate msNormal
      (s3.tally 0x0B02 0 0 (old + blockCrc b * 2 ^ 32)).safEvent Reg.SAF_EVSUM_PLD 0
/-- PARAM_CONFIRM. -/
def execParamConfirm (s : State) : Host.Outcome State Fault Refusal := .next s.parmConfirm

/-- DISCARD (R363). -/
def State.parmDiscard (s : State) : State :=
  if s.saf.staged.isNone then s
  else
    let s1 := ({ s with saf := { s.saf with staged := none } }).wrB Reg.SAF_PSTAT_STAGED false
    if s1.saf.block.isSome && decide (s1.mstate = msUnconf) then s1.setMstate msNormal else s1
/-- PARAM_DISCARD. -/
def execParamDiscard (s : State) : Host.Outcome State Fault Refusal := .next s.parmDiscard

/-- The block found at INIT (R364). -/
def State.copiesRead (s : State) : Option (List Byte) × State :=
  let (a, s1) := s.copyGet 0
  let (b, s2) := s1.copyGet 1
  match a, b with
  | none, none => (none, s2)
  | some x, none => (some x, (s2.copyPut 1 x).tally 0x0B05 2 1 (blockCrc x))
  | none, some y => (some y, (s2.copyPut 0 y).tally 0x0B05 1 1 (blockCrc y))
  | some x, some y => if x = y then (some x, s2) else (some y, (s2.copyPut 0 y).tally 0x0B05 1 2 (blockCrc y))

/-- SAFETY_INIT_DONE: the self-test and the SDIS test have passed (R337, R354, R364); a watchdog event that the output die
latched is reported as WDOG (R338). -/
def execSafetyInitDone (s : State) : Host.Outcome State Fault Refusal :=
  if s.mstate ≠ msInit ∨ s.pwr.recovery ∨ !s.pwr.booted ∨ s.saf.found ≠ [] then .next s
  else if s.saf.wdog then .next (({ s with saf := { s.saf with wdog := false } }).safNote 10 0)
  else
    let (b, s1) := s.copiesRead
    let s2 := { s1 with saf := { s1.saf with sdisTested := true, sdisAt := s1.time.edge, block := b } }
    match b with
    | none => .next ((s2.wr Reg.SAF_PACT_CRC 0).setMstate msUnconf)
    | some x => .next (((s2.wr Reg.SAF_PACT_CRC (blockCrc x)).wrB Reg.SAF_STAT_CONF true).setMstate msNormal)

/-- What events P, B, W, S and standby leave of the island: switches open, INIT. The watchdog latch of the output die
outlives every event but P and standby, which take its supply, and the SAFE entries of the last minutes W and B. [DEDUCED, log 94] -/
def State.safClear (s : State) (latch keep : Bool) : State :=
  let e := s.time.edge
  { s with saf := { cycAt := e, heartbeat := e, nextClock := e + edgesPerMs, wdog := latch && s.saf.wdog
                    safeTimes := if keep then s.saf.safeTimes else []
                    brakes := s.saf.brakes.map fun (p : Nat × BrakeSt) => (p.1, { lock := p.2.lock, ageAt := e }) } }

end Sys2Proof.Machine
end

