-- ==== Sys2Proof/Machine/Restart.lean ====
section
/-! DEFINITION. Clock root (R20 to R23), events C and H (R185, R186), events P, B, W, S and K, the power stage and the
keep domain (R416 to R435, R443 to R446). -/
namespace Sys2Proof.Machine

/-! ### Cold and warm restart (R175, R185, R186) -/

/-- Code memories are loaded again with the configuration in use, as a restart in RUN does (R434). [DEDUCED, log 57] -/
def State.reloadCode (s : State) : State :=
  let l := (allTasks.filter fun t => kindEnabled (s.task t).kind).map fun t => (⟨t, (s.task t).desc, false⟩ : TaskDesc)
  (s.loadCode s.pool l l).2

/-- A checkpoint in progress gathers the areas of the abandoned cycles, before their variables take other values (R183). [DEDUCED, log 57] -/
def State.ckGatherRest (s : State) : State :=
  match s.tex.ck with
  | some ck => s.over ck.need fun t a => a.gather t
  | none => s

/-- What events C and H do to the islands (R53, R89, R99, R186, R206, R392), before anything is restored. -/
def State.restartClear (s : State) (warm : Bool) : State :=
  let s1 := (s.dip 4).wr Reg.TEX_PSTAT_STATE 2
  let s2 := if s1.tex.oc.isSome then s1.ocRefuse 5 else s1
  let s3 := s2.abandonAll.ckGatherRest
  let s4 := if warm then s3 else s3.dropForces
  let s5 := s4.listsClear.cleClear.axsClear.dispatcherClear
  let s6 := { s5 with regs := regsAfter (if warm then .h else .c) false allBlocks s5.regs }
  (s6.wr Reg.TEX_PSTAT_STATE 2).trhRestart

/-- A warm restart is refused (R185). [DEDUCED, log 57] -/
def State.warmRefused (s : State) (cause : Nat) : State :=
  ((s.enterStop).setSticky 7 Reg.TEX_PSTAT_WARMREJ).tally 0x0704 0 cause

/-- The restoration of a restart, and RUN (R185, R186): the init copies of events C and H come before any retained restore
(R247), so a warm restart that is refused has made them too. [DEDUCED, log 57] -/
def State.restartEnter (s : State) (warm : Bool) : State :=
  if !warm then (s.initAll.restartRun false).identUpdate
  else
    match s.initAll.newestSlot with
    | (none, s1) => s1.warmRefused 1
    | (some k, s1) =>
      if s1.retMatch k then ((s1.restoreRetained k).restartRun true).identUpdate else s1.warmRefused 2

/-- Event C or H. From STOP the configuration is taken into use as at RUN, and is refused as there; in RUN the one in use
stays. [DEDUCED, log 57] -/
def State.restart (s : State) (warm : Bool) : State :=
  if s.progState = 2 then s
  else
    let s1 := s.restartClear warm
    let (c, s2) := if s.progState = 0 then s1.takeConfig else (0, s1.reloadCode)
    if c = 0 then s2.restartEnter warm else s2.enterStop.runRefused c

/-- COLD_RESTART. -/
def execColdRestart (s : State) : Host.Outcome State Fault Refusal := .next (s.restart false)
/-- WARM_RESTART. -/
def execWarmRestart (s : State) : Host.Outcome State Fault Refusal := .next (s.restart true)

/-! ### Events P, B, W, S and K (R429, R434, R435) -/

/-- The LND island after a reset: with the Landing kept, its records of errors stay; what MRAM holds always stays. -/
def LndSt.afterReset (l : LndSt) (kept : Bool) : LndSt :=
  let m : LndSt := { retPages := l.retPages, retMap := l.retMap, retState := l.retState }
  if kept then { m with elog := l.elog, filter := l.filter, filterOrder := l.filterOrder, retSeen := l.retSeen, scrubPos := l.scrubPos
                        pass := l.pass, seq := l.seq }
  else m

/-- Registers that show the power stage as it stands show it on. [DEDUCED, log 107] -/
def State.showPower (s old : State) : State :=
  ((((((s.wr Reg.PWR_STAT_VBUSOK (old.rd Reg.PWR_STAT_VBUSOK)).wr Reg.PWR_STAT_PFW (old.rd Reg.PWR_STAT_PFW)).wr
    Reg.PWR_STAT_HURDY (old.rd Reg.PWR_STAT_HURDY)).wr Reg.PWR_STAT_PGANA (old.rd Reg.PWR_STAT_PGANA)).wr
    Reg.PWR_VBUS_MV (old.rd Reg.PWR_VBUS_MV)).wr Reg.PWR_VBUS_HUV (old.rd Reg.PWR_VBUS_HUV)).wrB Reg.PWR_KSTAT_KEEPSRC old.pwr.vkeep

/-- What the events leave (R13, R434): registers by their letters, MRAM, the keep domain, the Landing where it is kept;
every other memory clean, every island at rest, device time 0 until boot loads it. [DEDUCED, log 107] -/
def State.hardReset (s : State) (e : Event) (lndKept : Bool) : State :=
  let s1 : State :=
    { pending := s.pending, regs := regsAfter e lndKept allBlocks s.regs, time := { edge := s.time.edge }
      landing := if lndKept then s.landing else {}, mram := s.mram, keep := s.keep, lnd := s.lnd.afterReset lndKept
      pwr := { s.pwr with booted := false, recovery := false, gate := false, gateAt := 0, recs := [] }
      fresh := s.fresh, saf := s.saf, dio := { ext := s.dio.ext }
      trhOut := s.trhOut, netOut := s.netOut, canOut := s.canOut, hostOut := s.hostOut }
  let s2 : State := { s1 with lnd := { s1.lnd with scrubAt := s.time.edge } }
  (s2.safClear (decide (e = .w) || decide (e = .b) || decide (e = .s)) (decide (e = .w) || decide (e = .b))).showLines

/-- The cause that the coming boot shows (R429, R430). -/
def State.bootCause (s : State) (cause wdsrc : Nat) : State := { s with pwr := { s.pwr with cause := cause, wdsrc := wdsrc } }

/-- Whether the module runs, so that an event of the power stage can find it running. -/
def State.running (s : State) : Bool := s.pwr.rails && !s.pwr.brown && !s.pwr.standby

/-- Before events W and S: dip with cause RESET, 20 µs for the CLAIM frame, the Tally written (R430, R431). -/
def State.beforeReset (s : State) (letter : Nat) : State :=
  let s1 := s.dip 2
  ((s1.advanceEdge (s1.time.edge + 20 * edgesPerUs)).tally 0x0E03 0 letter).tallyPowerFail

/-- Event W (R430). -/
def State.eventW (s : State) (wdsrc : Nat) : State :=
  let s1 := s.beforeReset 0x57
  ((s1.hardReset .w true).showPower s1).bootCause 3 wdsrc

/-- MODULE_WATCHDOG_RESET: one of the four causes; SAFELOCK holds off the third (R359, R430). [DEDUCED, log 112] -/
def execModuleWatchdogReset (src : Fin 16) (s : State) : Host.Outcome State Fault Refusal :=
  if !s.running || decide (src.val = 0) || decide (4 < src.val) || (decide (src.val = 3) && s.bit Reg.SAF_STAT_SAFELOCK) then .next s
  else .next (s.eventW src)

/-- SAFE_RESET: 100 ms after SAFE (R359). -/
def execSafeReset (s : State) : Host.Outcome State Fault Refusal :=
  match s.saf.safeAt with
  | some t =>
    if s.mstate = msSafe ∧ !s.bit Reg.SAF_STAT_SAFELOCK ∧ s.running then .next ((s.advanceEdge (t + 100 * edgesPerMs)).eventW 3) else .next s
  | none => .next s

/-- A write to PWR_CMD (R431): event S with the key and SRST. -/
def State.pwrCmd (s : State) (v : Nat) : State :=
  if v / 65536 = 0x5253 ∧ v % 2 = 1 then
    let s1 := s.beforeReset 0x53
    ((s1.hardReset .s true).showPower s1).bootCause 4 0
  else s
/-- SOFTWARE_RESET. -/
def execSoftwareReset (v : Word) (s : State) : Host.Outcome State Fault Refusal := .next (s.pwrCmd v.toNat)

/-! ### REFCLK (R20 to R23) -/

/-- Whether REFCLK is reported lost (R20): no edge for `gap` ns, five nominal periods or more, or a frequency that, measured
over 1 ms, differs from the TCXO by `ppm`, more than 1,000. -/
def refclkLost (gap : Nat) (ppm : Int) : Bool := decide (200 ≤ gap) || decide (1000 < ppm.natAbs)

/-- REFCLK_FALLBACK (R20, R21): with what the module has measured of REFCLK. -/
def execRefclkFallback (gap : Nat) (ppm : Int) (s : State) : Host.Outcome State Fault Refusal :=
  if refclkLost gap ppm ∧ s.bit Reg.SYS_CLKSTAT_SRC ∧ s.bit Reg.SYS_CLKCTL_AUTOFB then
    .next ((((s.wrB Reg.SYS_CLKSTAT_SRC false).wrB Reg.SYS_CLKCTL_REFSEL false).wrB Reg.SYS_CLKSTAT_REFLOSS true).tally 0x0001)
  else .next s

/-- REFCLK_LOSS_CRITICAL (R20, R22): the dip, every group in STO, the Tally, event W. -/
def execRefclkLossCritical (gap : Nat) (ppm : Int) (s : State) : Host.Outcome State Fault Refusal :=
  if refclkLost gap ppm ∧ s.bit Reg.SYS_CLKSTAT_SRC ∧ !s.bit Reg.SYS_CLKCTL_AUTOFB then
    .next ((((s.wrB Reg.SYS_CLKSTAT_REFLOSS true).dip 3).allSto.tally 0x0002).eventW 2)
  else .next s

/-- A write to REFSEL (R23): 1 on the TCXO requests a switch, 0 withdraws it; 0 on REFCLK selects the TCXO. [DEDUCED, log 112] -/
def State.refsel (s : State) (b : Bool) : State :=
  let s1 := s.wrB Reg.SYS_CLKCTL_REFSEL b
  if b then s1 else s1.wrB Reg.SYS_CLKSTAT_SRC false
/-- REFSEL_REQUEST. -/
def execRefselRequest (s : State) : Host.Outcome State Fault Refusal := .next (s.refsel true)
/-- REFSEL_WITHDRAW. -/
def execRefselWithdraw (s : State) : Host.Outcome State Fault Refusal := .next (s.refsel false)

/-- REFCLK_SWITCH: a waiting request takes place (R23) once REFCLK has stood within ±50 ppm of 25 MHz for 1 ms without
interruption: `good` is for how many nanoseconds it has. -/
def execRefclkSwitch (good : Nat) (s : State) : Host.Outcome State Fault Refusal :=
  if s.bit Reg.SYS_CLKCTL_REFSEL ∧ 1000000 ≤ good then .next (s.wrB Reg.SYS_CLKSTAT_SRC true) else .next s

/-! ### The keep domain (R420, R440, R446) -/

/-- The keep domain's contents stand only while a source is present (R420): VKEEP, or VBUS. [DEDUCED, log 113] -/
def State.keepCheck (s : State) : State :=
  if s.pwr.vkeep || s.pwr.rails || s.pwr.standby then s
  else ({ s with keep := {}, pwr := { s.pwr with keepLost := true, rtcSec := 0, rtcFrac := 0 } }).wrB Reg.PWR_KSTAT_RTCVAL false

/-- KEEP_SOURCE_SWITCH (R420). [DEDUCED, log 113] -/
def execKeepSourceSwitch (vkeep : Bool) (s : State) : Host.Outcome State Fault Refusal :=
  .next ((({ s with pwr := { s.pwr with vkeep := vkeep } }).wrB Reg.PWR_KSTAT_KEEPSRC vkeep).keepCheck)

/-- Device time goes into the RTC (R440). -/
def State.rtcPut (s : State) : State :=
  ({ s with pwr := { s.pwr with rtcSec := s.time.sec, rtcFrac := s.time.ns * 32768 / 1000000000 } }).wrB Reg.PWR_KSTAT_RTCVAL true

/-- RTC_UPDATE: at the next change of SEC, while VBUS is present (R440). [DESIGN CHOICE, log 108] -/
def execRtcUpdate (s : State) : Host.Outcome State Fault Refusal :=
  if s.running then .next (s.advanceTo ((s.time.sec + 1) * 1000000000)).rtcPut else .next s

/-- A write to a word of the keep SRAM (R446): a partial write of its codeword. -/
def State.keepPut (s : State) (w v : Nat) : State :=
  s.writeCw .keep (w / 2) 6 (if w % 2 = 0 then 0x0F#8 else 0xF0#8) (BitVec.ofNat 64 (v % 2 ^ 32 * 2 ^ (32 * (w % 2)))) false
/-- KEEP_WRITE. -/
def execKeepWrite (w : Fin 8192) (v : Word) (s : State) : Host.Outcome State Fault Refusal := .next (s.keepPut w v.toNat)

/-- KEEP_READ (R446), with the errors that stand in the codeword. -/
def execKeepRead (w : Fin 8192) (upset : BitVec 80) (s : State) : Host.Outcome State Fault Refusal :=
  let s1 := { s with keep := s.keep.upset (w.val / 2) upset }
  let (c, s2) := s1.readCw .keep (w.val / 2) 6
  let s3 := if c.poison then s2.wrB Reg.PWR_KSTAT_KPSN true else s2
  .next (s3.toHost (.completion (leBytes 4 (bitsOf c.data.toNat (32 * (w.val % 2)) 32)) false))

/-! ### The power stage (R421 to R428, R432) -/

/-- Whether a number is drawn for VBUS, whose reading no command gives at this point. [DESIGN CHOICE, log 108] -/
def State.vbusRead (s : State) : State :=
  let (i, s1) := s.draw
  s1.wr Reg.PWR_VBUS_MV (Config.freeWord i).toNat

/-- POWER_ON_RESET: the rails come up in order and event P happens (R421, R429). [DESIGN CHOICE, log 6] -/
def execPowerOnReset (mv : BitVec 16) (s : State) : Host.Outcome State Fault Refusal :=
  if s.pwr.rails ∨ s.pwr.standby then .next s
  else
    let s1 := ({ s with pwr := { s.pwr with rails := true, analogue := true, brown := false, bankLow := false } }).hardReset .p false
    .next (((((s1.wrB Reg.PWR_STAT_VBUSOK true).wrB Reg.PWR_STAT_PGANA true).wr Reg.PWR_VBUS_MV mv.toNat).wrB
      Reg.PWR_KSTAT_KEEPSRC s1.pwr.vkeep).bootCause 1 0)

/-- ANALOGUE_RAIL_FAULT (R421): PG_ANA goes low, and what is being converted carries REFERR. [DEDUCED, log 48] -/
def execAnalogueRailFault (s : State) : Host.Outcome State Fault Refusal :=
  let s1 := ({ s with pwr := { s.pwr with analogue := false } }).wrB Reg.PWR_STAT_PGANA false
  .next (s1.over (upFrom 0 16) fun n a => if (a.adc n).todo = [] then a else a.setAdc n { a.adc n with refBad := true })

/-- HOLDUP_CHARGED (R427). -/
def execHoldupCharged (mv10 : BitVec 16) (s : State) : Host.Outcome State Fault Refusal :=
  if s.running then .next ((s.wrB Reg.PWR_STAT_HURDY true).wr Reg.PWR_VBUS_HUV mv10.toNat) else .next s

/-- VBUS falls below the warning level (R424): PFW, the Tally queue, a checkpoint, in that order. -/
def State.pfw (s : State) (mv : Nat) : State :=
  let s1 := ((s.wrB Reg.PWR_STAT_PFW true).wrB Reg.PWR_STAT_VBUSOK false).wr Reg.PWR_VBUS_MV mv
  (({ s1 with pwr := { s1.pwr with pfwAt := s1.time.edge } }).tallyPowerFail).ckTrigger true

/-- POWER_FAIL_WARNING. -/
def execPowerFailWarning (mv : BitVec 16) (s : State) : Host.Outcome State Fault Refusal :=
  if s.running && !s.bit Reg.PWR_STAT_PFW then .next (s.pfw mv.toNat) else .next s

/-- POWER_FAIL_CLEAR: VBUS has stood above the warning-clear level for 1 ms (R425). [DEDUCED, log 109] -/
def execPowerFailClear (lowest : BitVec 16) (dur : Word) (s : State) : Host.Outcome State Fault Refusal :=
  if s.running && s.bit Reg.PWR_STAT_PFW then
    let s1 := s.advanceEdge (s.pwr.pfwAt + dur.toNat * edgesPerUs + edgesPerMs)
    let s2 := (((s1.wrB Reg.PWR_STAT_PFW false).wrB Reg.PWR_STAT_VBUSOK true).wrB Reg.PWR_STAT_DIP true).setSticky 14 Reg.PWR_EVSUM_DIP
    let s3 := ((s2.inc Reg.PWR_DIPMIN_CNT).wr Reg.PWR_DIPMIN_MV lowest.toNat).wr Reg.PWR_DIPDUR_US dur.toNat
    .next (s3.vbusRead.tally 0x0E01 0 0 (lowest.toNat + 2 ^ 32 * dur.toNat))
  else .next s

/-- The commit on the hold-up bank (R426 steps 4 and 5, R427): tasks that still run are not waited for. When the bank was
not charged it may be cut short (`cut`), and the slot being written stays incomplete. [DEDUCED, log 110; DESIGN CHOICE, log 111] -/
def State.brownCommit (s : State) (cut : Bool) : State :=
  let s1 := s.ckTrigger true
  match s1.tex.ck with
  | none => s1
  | some ck =>
    let (areas, s2) := ck.need.foldl (fun (acc : List CkArea × State) t =>
      let (a, x) := acc.2.oldArea t
      (acc.1 ++ [a], x)) (ck.areas, s1)
    let ck' : CkSt := { ck with need := [], areas := areas, part := ck.part || decide (ck.need ≠ []) }
    if cut then
      let (nw, s3) := s2.newestSlot
      let base := match nw with | some k => if k.base = slotBase 0 then slotBase 1 else slotBase 0 | none => slotBase 0
      let s4 := s3.writeCw .mram (base / 8 + 7) 7 0xF0#8 0#64 false
      { s4 with pwr := { s4.pwr with commit := 2 } }
    else
      let s3 := s2.ckCommit ck'
      { s3 with pwr := { s3.pwr with commit := 1 } }

/-- BROWN_OUT: VBUS falls below the reset level (R426): dip, outputs, load shed, commit and Tally, event B. [DEDUCED, log 110] -/
def execBrownOut (mv : BitVec 16) (s : State) : Host.Outcome State Fault Refusal :=
  if !s.running then .next s
  else
    let s0 := if s.bit Reg.PWR_STAT_PFW then s else s.pfw mv.toNat
    let s1 := (s0.dip 2).allSto
    let s2 := (({ s1 with saf := { s1.saf with sdis := false } }).tally 0x0E02 0 0 mv.toNat).tally 0x0E03 0 0x42
    let s3 := (s2.wr Reg.PWR_SPSSTAT_ON 0).wr Reg.PWR_VBUS_MV mv.toNat
    let (i, s4) := s3.draw
    let cut := !s.bit Reg.PWR_STAT_HURDY && (Config.freeWord i).getLsbD 0
    let s5 := s4.brownCommit cut
    let s6 := (if cut then s5 else s5.tallyPowerFail).wrB Reg.PWR_STAT_HURDY false
    let s7 := ({ s6 with pwr := { s6.pwr with brown := true, bankLow := false } }).hardReset .b true
    .next ((s7.showPower s6).bootCause 2 0)

/-- HOLDUP_EXHAUSTED: the bank reaches its floor and the rails fall (R422, R427): the Landing is lost. [DEDUCED, log 110] -/
def execHoldupExhausted (s : State) : Host.Outcome State Fault Refusal :=
  if !s.pwr.brown then .next s
  else
    let s1 := ({ s with pwr := { s.pwr with rails := false, analogue := false, bankLow := true } }).hardReset .b false
    .next (s1.wrB Reg.PWR_KSTAT_KEEPSRC s1.pwr.vkeep).keepCheck

/-- STANDBY_ENTRY (R432): refused with STBYREJ unless the program stands in STOP and every group in STO. -/
def execStandbyEntry (s : State) : Host.Outcome State Fault Refusal :=
  if !s.running then .next s
  else
    let cause := b2n (decide (s.progState ≠ 0)) + 2 * b2n (!s.everySto)
    if cause ≠ 0 then .next (((s.wrB Reg.PWR_STAT_STBYREJ true).setSticky 14 Reg.PWR_EVSUM_STBYREJ).tally 0x0E05 0 cause)
    else
      let s1 := (s.tally 0x0E03 0 0x4B).tallyPowerFail
      let s2 := ({ s1 with pwr := { s1.pwr with rails := false, analogue := false, standby := true } }).hardReset .k false
      .next (s2.wrB Reg.PWR_KSTAT_KEEPSRC s2.pwr.vkeep)

/-! ### Output release (R443) and sensor supplies (R445) -/

/-- OUTPUT_RELEASE: the latch sets if it may, and a compare unit judges its head anew. -/
def execOutputRelease (s : State) : Host.Outcome State Fault Refusal :=
  let s1 := s.outRelease
  if s1.bit Reg.PWR_STAT_OUTREL && !s.bit Reg.PWR_STAT_OUTREL then .next (s1.over (upFrom 0 64) fun u a => State.ccJudge u 17 a)
  else .next s1

/-- A bit of PWR_SPSCTL.EN is written: its supply switches (R445). -/
def State.spsSwitch (s : State) (n : Nat) (b : Bool) : State :=
  if b then (s.setBitOf Reg.PWR_SPSCTL_EN n).setBitOf Reg.PWR_SPSSTAT_ON n
  else (s.clrBitOf Reg.PWR_SPSCTL_EN n).clrBitOf Reg.PWR_SPSSTAT_ON n
/-- SPS_SWITCH. -/
def execSpsSwitch (n : Fin 8) (enable : Bool) (s : State) : Host.Outcome State Fault Refusal := .next (s.spsSwitch n enable)

/-- SPS_LIMIT (R445). -/
def execSpsLimit (n : Fin 8) (s : State) : Host.Outcome State Fault Refusal :=
  if bitAt (s.rd Reg.PWR_SPSSTAT_ON) n then .next ((s.setBitOf Reg.PWR_SPSSTAT_LIM n).setSticky 14 Reg.PWR_EVSUM_SPSLIM) else .next s

end Sys2Proof.Machine
end

