-- ==== Sys2Proof/Machine/Record.lean ====
section
/-! DEFINITION. Record mode and replay (R404 to R408, R411 to R414): start, stop, the drain to the host, the injector's
reading of entries and the ends of a replay. -/
namespace Sys2Proof.Machine

/-! ### Identity of a configuration (R408) -/

/-- The blocks whose register writes are recorded (R404): SYS, HST, CLE, AXS, FBK, CNV, TEX, CAN and SAF. -/
def recBlocks : List Nat := [0, 2, 3, 4, 5, 6, 7, 10, 11]

/-- Whether a register holds a RW or BL field. [DEDUCED, log 124] -/
def holdsField (off : Nat) : Bool :=
  (fieldsAt off).any fun fij => decide (fij.1.acc = .rw) || decide (fij.1.acc = .bl)

/-- The offsets of the registers that hold a RW or BL field in the recorded blocks, ascending. [DEDUCED, log 124] -/
def recOffsets : List Nat := recBlocks.flatMap fun b => (upFrom 0 0x4000).filterMap fun k =>
  if holdsField (b * 0x10000 + 4 * k) then some (b * 0x10000 + 4 * k) else none

/-- CFGID now (R408): the CRC-32C over the values of those registers. [DEDUCED, log 124] -/
def State.cfgId (s : State) : Nat := crc32c (recOffsets.flatMap fun o => leBytes 4 (s.regWord o).toNat)

/-! ### Recording (R408) -/

/-- The conditions of R408. -/
def State.recReady (s : State) : Bool :=
  decide (s.progState = 0) && !s.bit Reg.CLE_CTL_EN && !s.bit Reg.AXS_CTL_EN && (upFrom 0 256).all fun m => s.lstState m == lsIdle

/-- A HDR entry (R404): FWID and CFGID, and the HTIME of the start. [DESIGN CHOICE, log 123] -/
def State.hdrEntry (s : State) (cfg : Nat) : State :=
  s.report (.tick s.dtick) 0 0 0 false ⟨BitVec.ofNat 64 (s.rd Reg.TLY_FWID_ID + cfg * 2 ^ 32), false⟩
    (some ⟨BitVec.ofNat 64 s.tly.rsStart, false⟩)

/-- A REG entry. -/
def State.regEntry (s : State) (off : Nat) (v : Nat) : State :=
  s.report (.tick s.dtick) off 1 0 false ⟨BitVec.ofNat 64 v, false⟩ none

/-- The BASE entries of one region of the region table (R408). [DEDUCED, log 125] -/
def State.baseRegion (s : State) (k : Nat) : State :=
  let ((b, p), s1) := s.lndBytes 7 (s.rd Reg.TLY_RTAB_BASE * 4096 + 8 * k) 8
  if p then s1
  else
    let off := leNat (b.take 4)
    let (l, s2) := s1.lndRead 7 off (leNat (b.drop 4) / 8)
    State.reportCws (.hoist 0 0) 2 false off l s2

/-- A write of 1 to ARM with MODE = 1 (R408). [DEDUCED, log 125] -/
def State.recordStart (s : State) : State :=
  if s.bit Reg.TLY_RSTAT_RUN then s
  else if !s.recReady || s.replaying then s.wrB Reg.TLY_RSTAT_REJ true
  else
    let s1 := (s.cleClear.axsClear.dispatcherClear).wrB Reg.TLY_RSTAT_RUN true
    let s2 := { s1 with tly := { s1.tly with rsStart := s1.htime, seqAt := [], seqNo := [], gapRun := 0 } }
    let cfg := s2.cfgId
    let s3 := (s2.hdrEntry cfg).over recOffsets fun o a => a.regEntry o (a.regWord o).toNat
    (s3.over (upFrom 0 (Nat.min 256 (s3.rd Reg.TLY_RTABN_N))) fun k a => a.baseRegion k).tally 0x0D05 0 1 cfg
/-- RECORD_START. -/
def execRecordStart (s : State) : Host.Outcome State Fault Refusal := .next s.recordStart

/-- A write of MODE = 0 while recording (R408). -/
def State.recordStop (s : State) : State :=
  if !s.bit Reg.TLY_RSTAT_RUN then s
  else
    let cfg := s.cfgId
    ((s.hdrEntry cfg).wrB Reg.TLY_RSTAT_RUN false).tally 0x0D05 0 0 cfg
/-- RECORD_STOP. -/
def execRecordStop (s : State) : Host.Outcome State Fault Refusal := .next s.recordStop

/-- Take the first staged entry whose RS ring has room out of the staging area. -/
def State.takeStaged (s : State) : List (Nat × Nat) → Option ((Nat × Nat) × List (Nat × Nat))
  | [] => none
  | x :: l =>
    if s.ringRoom (34 + x.1) then some (x, l)
    else (s.takeStaged l).map fun r => (r.1, x :: r.2)

/-- FULLWAIT of the RS rings: entries wait for free slots (R289, R407). -/
def State.rsWaits (s : State) : State := s.over (upFrom 0 8) fun k a => a.rsWait k

/-- RECORD_ENTRY_DRAIN: an entry goes from the staging area to its RS ring (R407), with the data as the Landing holds it. -/
def execRecordEntryDrain (s : State) : Host.Outcome State Fault Refusal :=
  match s.takeStaged s.tly.staged with
  | none => .next s.rsWaits
  | some (x, l) =>
    let ((b, _), s1) := s.lndBytes 7 (s.stagingOff x.2) 32
    let s2 := ({ s1 with tly := { s1.tly with staged := l } }).putEntry (34 + x.1) b
    .next s2.rsWaits

/-! ### Replay (R411 to R414) -/

/-- A replay is refused (R411). [DEDUCED, log 125] -/
def State.replayRefused (s : State) (cause : Nat) : State :=
  ((s.wrB Reg.TLY_RSTAT_REJ true).wr Reg.TLY_RPSTAT_CAUSE cause).setSticky 13 Reg.TLY_RPSTAT_END

/-- A write of 1 to ARM with MODE = 2 (R411). [DEDUCED, log 125] -/
def State.replayStart (s : State) : State :=
  if s.replaying then s
  else if !s.recReady || s.bit Reg.TLY_RSTAT_RUN || !s.everySto || (upFrom 0 8).any (fun n => s.bit Reg.HST_RINGCTL_EN n) then s.replayRefused 9
  else if s.cfgId ≠ s.rd Reg.TLY_RPCFG_ID then s.replayRefused 7
  else if s.rd Reg.TLY_FWID_ID ≠ s.rd Reg.TLY_RPFW_ID then s.replayRefused 8
  else
    let t := s.rd Reg.TLY_RPT0L_HT + s.rd Reg.TLY_RPT0H_HT * 2 ^ 32
    let s1 := ((s.wrB Reg.TEX_DCTL_DET true).loadTime (t / 1000000000) (t % 1000000000)).wrB Reg.HST_TCTL_SERVO false
    let s2 := (s1.wrB Reg.TLY_RPSTAT_RUN true).outHold
    { s2 with tly := { s2.tly with rpLast := 0, rpCount := [], rpDisp := [], rpFirst := true, rpPulled := s2.rd Reg.TLY_RPGET_CNT } }
/-- REPLAY_START. -/
def execReplayStart (s : State) : Host.Outcome State Fault Refusal := .next s.replayStart

/-- REPLAY_END: the replay ends with a cause (R413); `val` is the tick or hoist number. [DEDUCED, log 126] -/
def State.replayEnd (s : State) (cause val : Nat) : State :=
  let s1 := ((s.wrB Reg.TLY_RPSTAT_RUN false).wr Reg.TLY_RPSTAT_CAUSE cause).setSticky 13 Reg.TLY_RPSTAT_END
  let s2 := s1.over (upFrom 0 8) fun n a => if a.bit Reg.HST_RINGCTL_EN n then a.ringDisable n else a
  (s2.enterStop).tally 0x0D06 0 cause val

/-- A write of MODE = 0 during a replay (R413). -/
def State.replayAbort (s : State) : State := if s.replaying then s.replayEnd 6 s.dtick else s
/-- REPLAY_ABORT. -/
def execReplayAbort (s : State) : Host.Outcome State Fault Refusal := .next s.replayAbort

/-- An entry of the replay buffer, taken apart (R405). -/
structure RpEntry where
  raw : RsEntry
  stamp : Nat
  addr : Nat
  src : Nat
  ring : Nat
  tick : Bool
  p0 : Bool
  p1 : Bool
  half : Bool
  late : Bool
  seq : Nat
  aux : Nat
  d0 : Nat
  d1 : Nat
deriving DecidableEq, Repr

/-- Take an entry apart. -/
def rpParse (e : RsEntry) : RpEntry :=
  let v := e.toNat
  { raw := e, stamp := bitsOf v 0 32, addr := bitsOf v 32 32, src := bitsOf v 64 4, ring := bitsOf v 72 3, tick := bitAt v 75
    p0 := bitAt v 76, p1 := bitAt v 77, half := bitAt v 78, late := bitAt v 79, seq := bitsOf v 80 16, aux := bitsOf v 96 32
    d0 := bitsOf v 128 64, d1 := bitsOf v 192 64 }

/-- Entry number `c` of the replay buffer (R412). [DESIGN CHOICE, log 123] -/
def State.rpEntry (s : State) (c : Nat) : RpEntry × State :=
  let n := 2 ^ Nat.min 20 (max 8 (s.rd Reg.TLY_RPLEN_LOG2))
  let ((b, _), s1) := s.lndBytes 7 (s.rd Reg.TLY_RPBASE_BASE * 4096 + 32 * (c % n)) 32
  (rpParse (BitVec.ofNat 256 (leNat b)), s1)

/-- Whether an entry has an instant of its own: a BASE entry has none (R404). -/
def RpEntry.timed (e : RpEntry) : Bool := decide (e.src ≠ 2)

/-- The instant of an entry (R412): its tick, t_k, or the seal of its hoist; the stamp is taken nearest to now. -/
def State.rpInstant (s : State) (e : RpEntry) : Nat :=
  if !e.timed then s.tly.rpLast
  else if e.tick then (((s.dtick : Int) + sInt 32 ((e.stamp + 2 ^ 32 - s.dtick % 2 ^ 32) % 2 ^ 32)) * 1000).toNat
  else
    let r := s.ringCfg e.ring
    let q := r.quot s.T
    let k := q + sInt 32 ((e.stamp + 2 ^ 32 - uOf 32 q) % 2 ^ 32)
    let t := ((r.phase * 5 : Nat) : Int) + k * (r.perNs : Int)
    (t + (if e.late then ((r.slin * 5 : Nat) : Int) else 0)).toNat

/-- How long after its instant an entry may still be written: a tick until the next, a hoist entry until D, a late one
until the next instant of its ring. [DEDUCED, log 126] -/
def State.rpGrace (s : State) (e : RpEntry) : Nat :=
  let r := s.ringCfg e.ring
  if e.tick then 999 else if e.late then r.perNs - r.slin * 5 - 1 else r.dlin * 5

/-- The entries supplied from count `c` on that share the instant of the first, at most `fuel`. [DESIGN CHOICE, log 123; DEDUCED, log 126] -/
def State.rpGroup : Nat → Nat → Option Nat → State → List (Nat × RpEntry) × State
  | 0, _, _, s => ([], s)
  | fuel + 1, c, t, s =>
    if c = s.rd Reg.TLY_RPPUT_CNT then ([], s)
    else
      let (e, s1) := s.rpEntry c
      let at_ := s1.rpInstant e
      if t.all (fun x => x == at_) then
        let (l, s2) := State.rpGroup fuel ((c + 1) % 2 ^ 32) (some at_) s1
        ((c, e) :: l, s2)
      else ([], s1)

/-- Order of entries of one instant: ascending SRC and then SEQ (R412). -/
def rpBefore (a b : Nat × RpEntry) : Bool := decide (a.2.src < b.2.src) || (a.2.src == b.2.src && decide (a.2.seq ≤ b.2.seq))

/-- Insert into that order. -/
def rpInsert (x : Nat × RpEntry) : List (Nat × RpEntry) → List (Nat × RpEntry)
  | [] => [x]
  | y :: l => if rpBefore y x then y :: rpInsert x l else x :: y :: l

/-- The dispatcher effect that a DISP entry of ranks 1 to 4 holds (R405, R412). -/
def RpEntry.effect (e : RpEntry) : Option Effect :=
  let task := bitsOf e.aux 8 8
  let flume := bitsOf e.aux 16 12
  match bitsOf e.aux 4 4 with
  | 1 => some (.setF task (e.d0 % 2 ^ 32))
  | 2 => some (.clrF task (e.d0 % 2 ^ 32))
  | 3 => some (.post flume e.d1 e.p1 (bitsOf e.aux 0 3) task)
  | _ => none

/-- A boundary takes the DISP entries of its tick that the host has supplied: effects of ranks 1 to 4 are staged for it,
the others wait to be compared (R412, R414). -/
def State.rpTick (s : State) : State :=
  if !s.replaying then s
  else
    let put := s.rd Reg.TLY_RPPUT_CNT
    let get := s.rd Reg.TLY_RPGET_CNT
    let n := (put + 2 ^ 32 - get) % 2 ^ 32
    let (l, s1) := State.rpGroup n get (some (s.dtick * 1000)) s
    let disp := (l.filter fun x => x.2.tick && x.2.src == 11).foldl (fun a x => rpInsert x a) []
    let s2 := disp.foldl (fun (a : State) (x : Nat × RpEntry) =>
      let rank := bitsOf x.2.aux 0 3
      if decide (1 ≤ rank) && decide (rank ≤ 4) then
        match x.2.effect with
        | some f =>
          { a with tex := { a.tex with
            held := a.tex.held ++ [{ stamp := a.dtick - 1, rank := rank, k1 := 0, arrival := a.tex.arrival, eff := f }]
            arrival := a.tex.arrival + 1 } }
        | none => a
      else { a with tly := { a.tly with rpDisp := a.tly.rpDisp ++ [x.2.raw] } }) s1
    { s2 with tly := { s2.tly with rpPulled := (get + l.length) % 2 ^ 32 } }

end Sys2Proof.Machine
end

