-- ==== Sys2Proof/Machine/RegisterWrite.lean ====
section
/-! DEFINITION. Host writes to the registers of BAR0 (R9 to R12): every field by its access code, and the fields whose
write does something by the operation of the chapter that describes it. -/
namespace Sys2Proof.Machine

/-! ### Writes by access code (R10) -/

/-- The bits of a register write that fall on a field. -/
def Field.part (f : Field) (j v : Nat) : Nat := bitsOf v (f.lo + f.bs * j) f.w

/-- A write to one field by its access code; W1S and WO fields act in the handler of their register. -/
def State.fieldWrite (s : State) (v : Nat) (f : Field) (i j : Nat) : State :=
  let x := f.part j v
  match f.acc with
  | .rw => s.wr f x i j
  | .w1c => s.wr f (Nat.land (s.rd f i j) (2 ^ f.w - 1 - x)) i j
  | .bl => if s.bit Reg.PWR_BSTAT_BLAZE then s else s.wr f x i j
  | .w1s | .ro | .wo => s

/-- The fields at an offset, but for those in `skip`, are written by their access codes. -/
def State.plain (s : State) (off v : Nat) (skip : List Field := []) : State :=
  s.over (fieldsAt off) fun fij a => if skip.contains fij.1 then a else a.fieldWrite v fij.1 fij.2.1 fij.2.2

/-- Index and place within a group of registers. -/
def group (base stride count off : Nat) : Option (Nat × Nat) :=
  if base ≤ off ∧ off < base + stride * count then some ((off - base) / stride, (off - base) % stride) else none

/-- Run an operation for each set bit of a mask of `n` bits. -/
def State.eachBit (s : State) (mask n : Nat) (f : Nat → State → State) : State :=
  s.over (upFrom 0 n) fun k a => if bitAt mask k then f k a else a

/-! ### SYS, HST, CLE, AXS -/

/-- Block SYS: REFSEL (R23), digital lines (R453). -/
def State.sysWrite (s : State) (off v : Nat) : State :=
  if off = 0x10 then
    let s1 := s.plain off v [Reg.SYS_CLKCTL_REFSEL]
    if bitAt v 0 = s1.bit Reg.SYS_CLKCTL_REFSEL then s1 else s1.refsel (bitAt v 0)
  else if (group 0x200 4 48 off).isSome then (s.plain off v).dioSafe
  else s.plain off v

/-- Block HST: time (R32 to R35), rings (R41 to R43), step lists (R53); bits [4:0] of LBASE ignore writes (R59). -/
def State.hstWrite (s : State) (off v : Nat) : State :=
  if off = 0x20000 then
    let s1 := s.plain off v
    let s2 := if bitAt v 2 then s1.timeStep else s1
    if bitAt v 1 then s2.timeSnap else s2
  else if off = 0x20008 then (if s.bit Reg.HST_TCTL_SERVO then s else s.plain off v)
  else if off = 0x2000C then s.slewWrite v
  else match group 0x20100 32 8 off with
  | some (n, 0) =>
    let s1 := if bitAt v 0 then s.ringEnable n else if s.bit Reg.HST_RINGCTL_EN n then s.ringDisable n else s
    (if bitAt v 1 then s1.ringReload n else s1).ringClients n
  | some (n, _) => ((s.plain off v).ringFlags n).ringClients n
  | none =>
    match group 0x21000 16 256 off with
    | some (m, 0) => s.listControl m v
    | some (m, 4) => s.wr Reg.HST_LBASE_BASE (v / 32 * 32) m
    | _ => s.plain off v

/-- Block CLE (R64, R68, R76). -/
def State.cleWrite (s : State) (off v : Nat) : State :=
  if off = 0x30000 then
    let s1 := if bitAt v 0 then s.wrB Reg.CLE_CTL_EN true else if s.bit Reg.CLE_CTL_EN then s.cleDisable else s
    if bitAt v 1 then s1.cleClrmax else s1
  else if off = 0x30004 then s.cleDbase v
  else match group 0x31000 32 512 off with
  | some (f, 20) => if bitAt v 0 then s.fsetCommit f else s
  | some (f, _) => (s.plain off v).fsetPend f
  | none => s.plain off v

/-- Block AXS (R90, R91, R109). -/
def State.axsWrite (s : State) (off v : Nat) : State :=
  if off = 0x40000 then
    let s1 := if bitAt v 0 then s.wrB Reg.AXS_CTL_EN true else if s.bit Reg.AXS_CTL_EN then s.axisDisable else s
    if bitAt v 1 then s1.axisClrmax else s1
  else if off = 0x40004 then s.axsAbase v
  else if off = 0x40008 then s.ccBase v
  else match group 0x40040 4 64 off with
  | some (i, _) =>
    (upFrom 0 8).foldl (fun (a : State) j =>
      if bitAt v (4 * j + 3) && !s.bit Reg.AXS_AMAP_EN i j then a.axisEnabled (8 * i + j) else a) (s.plain off v)
  | none =>
    match group 0x41000 32 64 off with
    | some (u, 0) =>
      let s1 := (s.plain off v [Reg.AXS_CCCFG_EN]).ccEnable u (bitAt v 31)
      s1.showLines
    | _ => s.plain off v

/-! ### FBK, CNV -/

/-- Block FBK (R117, R122, R133): a channel's registers, the emulation stages. -/
def State.fbkWrite (s : State) (off v : Nat) : State :=
  if off = 0x50000 then (if bitAt v 0 then s.fbClrerr else s)
  else if off = 0x50004 then s.fbFbase v
  else if off = 0x50008 then s.fbRbase v
  else match group 0x50100 64 24 off with
  | some (c, 0x24) => if bitAt v 0 then s.zArm c else s
  | some (c, _) => (s.plain off v).fbConfig c
  | none =>
    match group 0x50800 32 8 off with
    | some (e, 0) => (s.plain off v [Reg.FBK_EMCFG_EN]).emuEnable e (bitAt v 31)
    | _ => s.plain off v

/-- Block CNV (R144, R146, R151, R156). -/
def State.cnvWrite (s : State) (off v : Nat) : State :=
  if off = 0x60000 then let s1 := s.plain off v; if bitAt v 1 then s1.cnvClrcnt else s1
  else if off = 0x60004 then (if (upFrom 0 16).any (fun n => s.bit Reg.CNV_CFG_EN n) then s else s.plain off v)
  else if off = 0x60008 then (if (upFrom 0 16).any (fun d => s.bit Reg.CNV_DCFG_EN d) then s else s.plain off v)
  else match group 0x60100 16 16 off with
  | some (n, 0) => s.adcCfgWrite n (bitAt v 31) fun a => a.plain off v [Reg.CNV_CFG_EN]
  | some (_, _) => s.plain off v
  | none =>
  match group 0x60400 16 8 off with
  | some (p, 0) => if (s.ilPair p).run then s else s.plain off v
  | some (_, _) => s.plain off v
  | none =>
  match group 0x60800 16 16 off with
  | some (d, 0) => ((s.plain off v [Reg.CNV_DCFG_EN]).dacEnable d (bitAt v 31)).dacSafe
  | some (_, _) => s.plain off v
  | none =>
  match group 0x61000 32 16 off with
  | some (n, _) => (s.plain off v).adcConfig n
  | none => s.plain off v

/-! ### TEX -/

/-- A write to TEX_PCMD (R175). -/
def State.programCmd (s : State) (cmd : Nat) : State :=
  match cmd with
  | 1 => s.programRun
  | 2 => s.programStop
  | 3 => s.restart false
  | 4 => s.restart true
  | 5 => s.checkpointCmd
  | _ => s

/-- PEND, CFGERR and, in STOP, STATE (R189) of a task after a write to its configuration: outside STOP the write goes to a shadow (R161, R181). [DEDUCED, log 59] -/
def State.taskCfgShow (s : State) (t : Nat) : State :=
  if s.progState = 0 then
    ((s.wrB Reg.TEX_TCFG_PEND false t).cfgErr t).setTstate t (if kindEnabled (s.rd Reg.TEX_TCFG_KIND t) then stIdle else stUnused)
  else
    let x := s.task t
    s.wrB Reg.TEX_TCFG_PEND (decide (s.rd Reg.TEX_TCFG_KIND t ≠ x.kind) || decide (s.rd Reg.TEX_TCFG_RING t ≠ x.ring)
      || decide (s.rd Reg.TEX_TCFG_PRIO t ≠ x.prio) || decide (s.rd Reg.TEX_TCFG_DIVM1 t ≠ x.divm1) || decide (s.rd Reg.TEX_TCFG_OFS t ≠ x.ofs)) t

/-- The base registers of the TEX block that take a write only in STOP. -/
def texStopOnly : List Nat := [0x73008, 0x75008, 0x7500C, 0x70004]

/-- Another table of descriptors: the init copies of every bank are due (R247). [DEDUCED, log 52] -/
def State.forgetInits (s : State) : State :=
  s.over allTasks fun t a => if (a.task t).inited = [] then a else a.setTask t { a.task t with inited := [] }

/-- After a write of a task's mask: an engine new in it may not hold the task's code, so DONE no longer holds (R222). -/
def State.affChanged (s old : State) (t : Nat) : State :=
  if kindEnabled (s.kindInUse t) then
    s.over allEngines fun e a => if a.inMask t e && !old.inMask t e then a.clrBitOf Reg.TEX_LOAD_DONE e else a
  else s

/-- Block TEX: the program (R175, R181, R183), tasks, forces (R177), the dispatcher (R194, R208 to R210). [DEDUCED, log 56 and 59 and 70] -/
def State.texWrite (s : State) (off v : Nat) : State :=
  if texStopOnly.contains off then
    (if s.progState ≠ 0 then s
     else if off = 0x73008 ∧ v / 0x8000 ≠ s.rd Reg.TEX_IBASE_BASE then (s.plain off v).forgetInits
     else s.plain off v)
  else if off = 0x73004 then s.programCmd (bitsOf v 0 3)
  else if off = 0x7300C then
    let s1 := s.plain off v
    { s1 with tex := { s1.tex with ckTimer := s1.time.edge } }
  else if off = 0x73020 then
    let s1 := s.plain off v
    let s2 := if bitAt v 30 then s1.ocAbort else s1
    if bitAt v 31 then s2.ocArm else s2
  else if off = 0x75000 then
    let s1 := if s.progState = 0 then s.plain off v else s
    if bitAt v 1 then s1.dispatchClr else s1
  else if off = 0x75010 then
    (s.eachBit (bitsOf v 0 8) 8 fun e a => a.engineLeave e).eachBit (bitsOf v 8 8) 8 fun e a => a.engineJoin e
  else match group 0x74000 16 256 off with
  | some (t, 0) => (s.plain off v).taskCfgShow t
  | some (_, _) => s.plain off v
  | none =>
  match group 0x75400 32 256 off with
  | some (t, 0) => ((s.plain off v).affChanged s t).strand t
  | some (t, 12) => s.flagSet 4 0 t v
  | some (t, 16) => s.flagClear 4 0 t v
  | some (_, _) => s.plain off v
  | none =>
  match group 0x78000 32 1024 off with
  | some (f, 0) =>
    let s1 := (s.plain off v).forcePend f
    if bitAt v 0 then s1.forceCommit f else s1
  | some (f, _) => (s.plain off v).forcePend f
  | none => s.plain off v

/-! ### LND, HIF, NET, CAN -/

/-- The MRAM window's command (R267). -/
def State.mramCmd (s : State) (v : Nat) : State :=
  let s1 := s.plain 0x8006C v
  if bitAt v 31 && bitAt v 30 then s1.wrB Reg.LND_MCTL_ERR true
  else if bitAt v 31 then s1.mramRead
  else if bitAt v 30 then s1.mramWrite
  else s1

/-- Block LND: counters and log (R253, R259), banks (R263 to R265), the window (R267), retirement (R260). [DEDUCED, log 69 and 70] -/
def State.lndRegWrite (s : State) (off v : Nat) : State :=
  if off = 0x80000 then let s1 := s.plain off v; if bitAt v 1 then s1.lndClrCnt else s1
  else if off = 0x80024 then (if bitAt v 0 then s.elogPop else s)
  else if off = 0x80040 then
    let s1 := s.plain off v
    let s2 := if bitAt v 30 then s1.copyAbort else s1
    if bitAt v 31 then s2.copyStart else s2
  else if off = 0x80048 then let s1 := s.plain off v; if bitAt v 31 then s1.testStart else s1
  else if off = 0x8006C then s.mramCmd v
  else match group 0x80400 8 256 off with
  | some (p, 0) => if s.bit Reg.LND_RCTL_VALID p then s else s.plain off v
  | some (p, 4) =>
    let s1 := s.plain off v [Reg.LND_RCTL_VALID]
    if bitAt v 31 then s1.pageRetire p else if s1.bit Reg.LND_RCTL_VALID p then s1.pageRestore p else s1
  | _ => s.plain off v

/-- Block HIF: host rings (R277), the MSI-X table (R273). -/
def State.hifWrite (s : State) (off v : Nat) : State :=
  if off = 0x10000 then (if bitAt v 0 then s.hifClrcnt else s)
  else match group 0x11000 64 42 off with
  | some (r, 0x10) =>
    let skip := if s.bit Reg.HIF_RCFG_EN r then [Reg.HIF_RCFG_EN, Reg.HIF_RCFG_LOG2] else [Reg.HIF_RCFG_EN]
    let s1 := s.plain off v skip
    if bitAt v 31 = s.bit Reg.HIF_RCFG_EN r then s1 else if bitAt v 31 then s1.hostRingEnable r else s1.hostRingDisable r
  | some (r, k) =>
    if [0, 4, 8, 0xC, 0x20, 0x24].contains k && s.bit Reg.HIF_RCFG_EN r then s else s.plain off v
  | none => if (group 0x18000 16 64 off).isSome then (s.plain off v).msixUnmask else s.plain off v

/-- Block NET: ports (R291), PTP (R294), Pennant (R303, R311, R316). -/
def State.netWrite (s : State) (off v : Nat) : State :=
  if off = 0x90000 then
    let s1 := if bitAt v 1 then s.discClear else s
    if bitAt v 0 then s1.netClrcnt else s1
  else if off = 0x90200 then (s.plain off v).ptpRefresh
  else if off = 0x90400 then
    let s1 := s.plain off v
    if s1.bit Reg.NET_PNCFG_EN && !s.bit Reg.NET_PNCFG_EN then s1.pennantStart else s1
  else if off = 0x90408 then (if s.bit Reg.NET_PNCFG_EN then s else s.plain off v)
  else if off = 0x9040C then (if (upFrom 0 4).any (fun p => s.bit Reg.NET_PCFG_SIDEEN p) then s else s.plain off v)
  else if off = 0x90420 then
    (if (Reg.NET_STCMD_RELEASE).part 0 v = 1 then s.stnRelease ((Reg.NET_STCMD_STN).part 0 v) else s)
  else match group 0x90100 32 4 off with
  | some (p, 0) => (s.plain off v).portConfig p
  | _ => s.plain off v

/-- Block CAN (R320, R321, R332). -/
def State.canRegWrite (s : State) (off v : Nat) : State :=
  if off = 0xA0000 then (if bitAt v 0 then s.canClrcnt else s)
  else if off = 0xA0004 then (if (upFrom 0 4).any (fun c => s.bit Reg.CAN_CCFG_EN c) then s else s.plain off v)
  else match group 0xA0100 64 4 off with
  | some (c, 0) => (s.plain off v [Reg.CAN_CCFG_EN]).canEnable c (bitAt v 31)
  | _ => s.plain off v

/-! ### SAF, TRH, TLY, PWR, doorbells -/

/-- Block SAF (R347, R352, R358, R361 to R363). [DEDUCED, log 70] -/
def State.safWrite (s : State) (off v : Nat) : State :=
  if off = 0xB0004 then
    let s1 := s.grpAck ((Reg.SAF_CMD_ACK).part 0 v)
    let s2 := if (Reg.SAF_CMD_HMEND).part 0 v = 1 then s1.hmEnd else s1
    if (Reg.SAF_CMD_FACK).part 0 v = 1 then s2.hmFack else s2
  else if off = 0xB0104 then
    let s1 := if (Reg.SAF_PCMD_LOAD).part 0 v = 1 then s.parmLoad else s
    let s2 := if (Reg.SAF_PCMD_CONFIRM).part 0 v = 1 then s1.parmConfirm else s1
    if (Reg.SAF_PCMD_DISCARD).part 0 v = 1 then s2.parmDiscard else s2
  else if off = 0xB0200 then
    let s1 := if (Reg.SAF_BTCMD_ABORT).part 0 v = 1 then s.brakeAbort else s
    if (Reg.SAF_BTCMD_START).part 0 v = 1 then s1.brakeTest ((Reg.SAF_BTCMD_BRK).part 0 v) else s1
  else s.plain off v

/-- Block TRH (R371, R380, R383, R390). -/
def State.trhWrite (s : State) (off v : Nat) : State :=
  if off = 0xC0000 then
    let s1 := (s.plain off v [Reg.TRH_CTL_PAIR]).trhPair ((Reg.TRH_CTL_PAIR).part 0 v = 1)
    let s2 := if (Reg.TRH_CTL_CLRCNT).part 0 v = 1 then s1.trhClrcnt else s1
    if (Reg.TRH_CTL_HANDOVER).part 0 v = 1 then s2.handover else s2
  else if off = 0xC0024 then (if decide (1 ≤ s.role) && decide (s.role ≤ 3) then s else s.plain off v)
  else s.plain off v

/-- Block TLY (R399, R400, R408 to R413). [DEDUCED, log 127] -/
def State.tlyWrite (s : State) (off v : Nat) : State :=
  if off = 0xD0004 then s.tallyUnlock v
  else if off = 0xD0008 then (if bitAt v 31 then s.tallyClear else s)
  else if off = 0xD000C then s.tallyShow (v % 32768)
  else if off = 0xD0010 then (if bitAt v 0 then s.tallyNext else s)
  else if off = 0xD0100 then
    let s1 := s.plain off v [Reg.TLY_TRCFG_EN]
    if bitAt v 31 then s1.traceEnable else s1.wrB Reg.TLY_TRCFG_EN false
  else if off = 0xD0104 then (if s.bit Reg.TLY_TRCFG_EN then s else s.plain off v)
  else if off = 0xD0208 ∨ off = 0xD020C then s.plain off (v &&& 0x77777777)
  else if off = 0xD0200 then
    let s1 := s.plain off v
    match v % 4, bitAt v 31 with
    | 0, _ => s1.recordStop.replayAbort
    | 1, true => s1.recordStart
    | 2, true => s1.replayStart
    | _, _ => s1
  else s.plain off v

/-- Block PWR (R431, R445, R446). -/
def State.pwrWrite (s : State) (off v : Nat) : State :=
  if off = 0xE0008 then s.pwrCmd v
  else if off = 0xE0020 then
    s.over (upFrom 0 8) fun n a => if bitAt v n = bitAt (a.rd Reg.PWR_SPSCTL_EN) n then a else a.spsSwitch n (bitAt v n)
  else match group 0xE8000 4 8192 off with
  | some (w, _) => s.keepPut w v
  | none => s.plain off v

/-- A write to a doorbell (R279). -/
def State.dblWrite (s : State) (off v : Nat) : State :=
  match group 0xF0000 4 42 off with
  | some (r, _) => s.doorbell r v []
  | none => s

/-- Whether an offset holds a register: a field lies there, a word of the keep SRAM or a doorbell; every other offset is
reserved (R12). -/
def hasReg (off : Nat) : Bool :=
  !(fieldsAt off).isEmpty || (group 0xE8000 4 8192 off).isSome || (group 0xF0000 4 42 off).isSome

/-- A register write takes effect (R9, R12): offset and value; reserved offsets do nothing. -/
def State.regWrite (s : State) (off v : Nat) : State :=
  if !hasReg off then s
  else match off / 0x10000 with
  | 0 => s.sysWrite off v
  | 1 => s.hifWrite off v
  | 2 => s.hstWrite off v
  | 3 => s.cleWrite off v
  | 4 => s.axsWrite off v
  | 5 => s.fbkWrite off v
  | 6 => s.cnvWrite off v
  | 7 => s.texWrite off v
  | 8 => s.lndRegWrite off v
  | 9 => s.netWrite off v
  | 10 => s.canRegWrite off v
  | 11 => s.safWrite off v
  | 12 => s.trhWrite off v
  | 13 => s.tlyWrite off v
  | 14 => s.pwrWrite off v
  | 15 => s.dblWrite off v
  | _ => s

/-- Whether an island runs in recovery (R437): the host interface, the MRAM window and the power manager. [DEDUCED, log 114] -/
def recoveryOpen (off : Nat) : Bool :=
  off / 0x10000 == 1 || off / 0x10000 == 14 || off / 0x10000 == 15 || (decide (0x80060 ≤ off) && decide (off ≤ 0x80070))

/-- A write of the host to BAR0 (R9, R273, R408, R437): other than an aligned write of 32 bits does nothing; while recording,
writes to the recorded blocks wait for the next tick boundary, and writes that come behind them with them. In D3hot the
interface takes none (R272). [DESIGN CHOICE, log 4; DEDUCED, log 114 and 130] -/
def State.hostWrite (s : State) (off width v : Nat) : State :=
  if s.hif.d3 then s.toHost .unsupported
  else if width ≠ 4 ∨ off % 4 ≠ 0 ∨ 0x100000 ≤ off then s
  else if s.pwr.recovery && !recoveryOpen off then s
  else if s.bit Reg.TLY_RSTAT_RUN && (recBlocks.contains (off / 0x10000) || s.tly.deferred != []) then
    { s with tly := { s.tly with deferred := s.tly.deferred ++ [(off, BitVec.ofNat 32 v, [])] } }
  else s.regWrite off v
/-- The bits `same` of a register that the module clears in the clock cycle of a host write, on completing the action of a
W1S bit (R11): cleared, so that the write starts the action again. [DEDUCED, log 130] -/
def State.sameDone (s : State) (off same : Nat) : State :=
  s.over (fieldsAt off) fun fij a =>
    if fij.1.acc = .w1s then
      a.wr fij.1 (Nat.land (a.rd fij.1 fij.2.1 fij.2.2) (2 ^ fij.1.w - 1 - fij.1.part fij.2.2 same)) fij.2.1 fij.2.2
    else a

/-- The W1C bits `same` that the module has set in the clock cycle of a host write read 1 after it (R11): `old` is the state
before the write. [DEDUCED, log 130] -/
def State.sameSet (s old : State) (off same : Nat) : State :=
  s.over (fieldsAt off) fun fij a =>
    if fij.1.acc = .w1c then
      a.wr fij.1 (Nat.lor (a.rd fij.1 fij.2.1 fij.2.2) (Nat.land (old.rd fij.1 fij.2.1 fij.2.2) (fij.1.part fij.2.2 same)))
        fij.2.1 fij.2.2
    else a

/-- A host write in whose clock cycle the module acts on the bits `same` of the register (R11): the module's end of a W1S
action goes before it, the module's setting of a W1C bit after it. [DEDUCED, log 130] -/
def State.hostWriteWith (s : State) (off width v same : Nat) : State :=
  if same = 0 ∨ width ≠ 4 ∨ off % 4 ≠ 0 then s.hostWrite off width v
  else ((s.sameDone off same).hostWrite off width v).sameSet s off same

/-- REGISTER_WRITE. [DEDUCED, log 127 and 130] -/
def execRegisterWrite (off width : Nat) (v same : Word) (s : State) : Host.Outcome State Fault Refusal :=
  .next (s.hostWriteWith off width v.toNat same.toNat)

/-- The value a read of a register shows (R9, R10): WO fields read 0, TLY_CFGID is computed (R408), the pending bits and
the keep SRAM come from where they are held. -/
def State.regRead (s : State) (off : Nat) : Word :=
  if off = 0xD0224 then BitVec.ofNat 32 s.cfgId
  else match group 0xE8000 4 8192 off with
  | some (w, _) => BitVec.ofNat 32 (bitsOf (s.keep.decode (w / 2)).1.data.toNat (32 * (w % 2)) 32)
  | none => s.regWord off

/-- One byte of the registers of BAR0 (R7): the byte with bits [7:0] has the lowest address. -/
def State.regByte (s : State) (a : Nat) : Byte :=
  if a < 0x100000 then (s.regRead (a / 4 * 4)).extractLsb' (8 * (a % 4)) 8 else 0#8

/-- What a host read of `width` bytes at a BAR0 offset returns (R9): the addressed bytes of the present values, at any width
and alignment. A read changes nothing. -/
def State.hostRead (s : State) (off width : Nat) : List Byte := (upFrom off width).map s.regByte

/-- One write that waited: a doorbell, or a register write, which is recorded where its block is. -/
def State.deferredWrite (s : State) (off v : Nat) (descs : List (BitVec 256)) : State :=
  if 0xF0000 ≤ off then s.doorbell ((off - 0xF0000) / 4) v descs
  else if recBlocks.contains (off / 0x10000) then (s.regWrite off v).regEntry off v
  else s.regWrite off v

/-- The writes that waited take effect after the boundary's dispatcher effects, and each is recorded (R408). [DEDUCED, log 127] -/
def State.deferredWrites (s : State) : State :=
  let l := s.tly.deferred
  ({ s with tly := { s.tly with deferred := [] } }).over l fun w a => a.deferredWrite w.1 w.2.1.toNat w.2.2

/-- The next boundary of the dispatcher tick (R199, R211, R408). -/
def State.tickBoundary (s : State) : State :=
  (((s.advanceTo ((s.dtick + 1) * 1000)).rpTick.tickEffects).postDecided).deferredWrites
/-- TICK_BOUNDARY. -/
def execTickBoundary (s : State) : Host.Outcome State Fault Refusal := .next s.tickBoundary

/-- ENGINE_POOL_ENTRY: a loaded engine enters on the next tick boundary, in deterministic mode among the effects of that
boundary (R209, R211). -/
def execEnginePoolEntry (e : Fin 8) (s : State) : Host.Outcome State Fault Refusal :=
  if s.tex.joining.contains e then
    .next (if s.det then (s.joinStage e).tickBoundary else (s.advanceTo ((s.dtick + 1) * 1000)).enterPool e)
  else .next s

/-! ### The injector (R412, R413) -/

/-- Write one entry at its instant: a recorded register write, or its words to the Landing. -/
def State.rpWrite (s : State) (e : RpEntry) : State :=
  if e.src = 1 then s.regWrite e.addr (e.d0 % 2 ^ 32)
  else if e.src = 0 ∨ e.src = 11 ∨ e.src = 12 ∨ 14 ≤ e.src then s
  else s.lndWriteCws 7 (e.addr / 8 * 8)
    (⟨BitVec.ofNat 64 e.d0, e.p0⟩ :: (if e.half then [] else [⟨BitVec.ofNat 64 e.d1, e.p1⟩]))

/-- Hoist entries of one instant need longer than D − 1 µs at 8 ns each (R413). -/
def State.rpOverrun (s : State) : Bool :=
  s.tly.rpCount.any fun (p : Nat × Nat) => decide ((s.ringCfg p.1).dlin * 5 < 8 * p.2 + 1000)

/-- Take one entry: a GAP or a stop entry ends the replay, a dispatcher effect must have met its boundary. -/
def State.rpTake (s : State) (c : Nat) (e : RpEntry) : State :=
  if !s.replaying then s
  else
    let s0 := s.wr Reg.TLY_RPGET_CNT (s.rd Reg.TLY_RPGET_CNT + 1)
    if e.src = 15 then s0.replayEnd 5 e.stamp
    else if e.src = 0 then
      if s0.tly.rpFirst then { s0 with tly := { s0.tly with rpFirst := false } } else s0.replayEnd 1 e.stamp
    else if e.src = 11 ∧ (c + 2 ^ 32 - s0.tly.rpPulled) % 2 ^ 32 < 2 ^ 31 then s0.replayEnd 2 e.stamp
    else s0.rpWrite e

/-- The entries of the next instant: they wait until it has come, and end the replay if it has passed, or lies before the
one before. [DEDUCED, log 126] -/
def State.rpInject (s : State) : State :=
  let get := s.rd Reg.TLY_RPGET_CNT
  let n := (s.rd Reg.TLY_RPPUT_CNT + 2 ^ 32 - get) % 2 ^ 32
  match State.rpGroup n get none s with
  | ([], s1) => s1
  | ((c, e) :: l, s1) =>
    let t := s1.rpInstant e
    if t < s1.tly.rpLast then s1.replayEnd 3 e.stamp
    else if s1.T < t then s1
    else if ((c, e) :: l).any (fun x => x.2.timed && decide (t + s1.rpGrace x.2 < s1.T)) then s1.replayEnd 2 e.stamp
    else
      let base := if t = s1.tly.rpLast then s1.tly.rpCount else []
      let cnt := ((c, e) :: l).foldl (fun (a : Tab Nat) x =>
        if x.2.timed && !x.2.tick && !x.2.late then tabPut 0 a x.2.ring (tabAt 0 a x.2.ring + 1) else a) base
      let s2 := { s1 with tly := { s1.tly with rpLast := t, rpCount := cnt } }
      if s2.rpOverrun then s2.replayEnd 4 e.stamp
      else (((c, e) :: l).foldl (fun a x => rpInsert x a) []).foldl (fun a x => a.rpTake x.1 x.2) s2
/-- REPLAY_INJECT. -/
def execReplayInject (s : State) : Host.Outcome State Fault Refusal := .next (if s.replaying then s.rpInject else s)

end Sys2Proof.Machine
end

