-- ==== Sys2Proof/Machine/Boot.lean ====
section
/-! DEFINITION. Boot (R401, R428, R436 to R442): the Tally, the firmware regions, the stored configuration, the blaze,
device time, the time gate and the start of the program; leaving standby (R432). -/
namespace Sys2Proof.Machine

/-! ### The Tally and the RETIRE region (R262, R401) -/

/-- Whether the 32 bytes of a Tally record are all zero. -/
def State.tallyBlank (s : State) (n : Nat) : Bool × State :=
  let ((b, _), s1) := s.mramGet (tallyOff n) 32
  (b.all fun x => x == 0#8, s1)

/-- The Tally records that hold a byte or an error at all; every other one reads as zeros. [DEDUCED, log 120] -/
def State.tallyTouched (s : State) : List Nat :=
  let ofByte := s.mram.cells.filterMap fun (p : Nat × Byte) =>
    if decide (0x500000 ≤ p.1) && decide (p.1 < 0x600000) then some ((p.1 - 0x500000) / 32) else none
  let ofCell := s.mram.flips.filterMap fun (p : Nat × BitVec 80) =>
    if decide (0x500000 ≤ p.1 * 8) && decide (p.1 * 8 < 0x600000) then some ((p.1 * 8 - 0x500000) / 32) else none
  (ofByte ++ ofCell).foldl (fun l n => setIns l n) []

/-- The number of records before the first one that is not in a rising list. -/
def firstGap : Nat → List Nat → Nat
  | n, [] => n
  | n, k :: l => if k = n then firstGap (n + 1) l else n

/-- NREC and the FULL state from the records themselves; an interrupted clear is completed first (R401). [DEDUCED, log 120] -/
def State.bootTally (s : State) : State :=
  let (recs, s1) := s.tallyTouched.foldl (fun (acc : List Nat × State) n =>
    let (z, x) := acc.2.tallyBlank n
    (if z then acc.1 else acc.1 ++ [n], x)) ([], s)
  let n := firstGap 0 recs
  let s2 := if n < recs.length then s1.tallyZero n else s1
  let code := leNat (s2.mramPeek (tallyOff 32767 + 8) 2)
  let s3 := (s2.wr Reg.TLY_STAT_NREC n).wrB Reg.TLY_STAT_FULL (decide (n = 32768) && decide (code = 0x0D01))
  if n = 0 then s3
  else
    let b := s3.mramPeek (tallyOff (n - 1)) 32
    { s3 with tly := { s3.tly with last := fieldAt b 24 4, repeats := fieldAt b 28 2, lastWrite := s3.time.edge } }

/-- Retired pages and the bank map are written back from the RETIRE region (R262, R434). [DESIGN CHOICE, log 68] -/
def State.bootRetire (s : State) : State :=
  let s1 := s.over s.lnd.retPages fun (p : Nat × Nat) a =>
    ((a.wr Reg.LND_RET_PAGE (p.2 - 1) p.1).wrB Reg.LND_RCTL_PERSIST true p.1).wrB Reg.LND_RCTL_VALID true p.1
  let s2 := s1.over s.lnd.retMap fun (p : Nat × Nat) a => a.wr Reg.LND_BMAP_PHYS (p.2 - 1) p.1
  s2.over s.lnd.retState fun (p : Nat × Nat) a => a.wr Reg.LND_PHSTAT_STATE (p.2 - 1) p.1

/-! ### What the events before leave for boot to show (R420, R427 to R430, R183) -/

/-- A keep domain that lost its contents (R420). -/
def State.bootKeep (s : State) : State :=
  if s.pwr.keepLost then
    let s1 := { s with pwr := { s.pwr with keepLost := false } }
    (((s1.wrB Reg.PWR_KSTAT_KLOST true).setSticky 14 Reg.PWR_EVSUM_KLOST).tally 0x0E04).wrB Reg.PWR_KSTAT_RTCVAL false
  else s

/-- The registers of the newest checkpoint, read from MRAM (R269). [DEDUCED, log 120] -/
def State.bootSlot (s : State) : Nat × State :=
  match s.newestSlot with
  | (some k, s1) => (k.seq, ((s1.wr Reg.TEX_CKSTAT_SEQ k.seq).wr Reg.TEX_CKTLO_HT k.ht).wr Reg.TEX_CKTHI_HT (k.ht / 2 ^ 32))
  | (none, s1) => (0, s1)

/-- CAUSE, LNDKEPT, COMMITOK and WDSRC, and the Tally records of a power-on and of an incomplete commit. [DEDUCED, log 110] -/
def State.bootCauses (s : State) : State :=
  let p := s.pwr
  let s1 := ((s.wr Reg.PWR_RSTAT_CAUSE p.cause).wrB Reg.PWR_RSTAT_LNDKEPT (p.cause == 2 && !p.bankLow)).wrB Reg.PWR_RSTAT_COMMITOK
    (p.commit == 1)
  let s2 := s1.wr Reg.PWR_RSTAT_WDSRC (if p.cause = 3 then p.wdsrc else 0)
  let s3 := if p.cause = 1 ∨ p.cause = 5 then s2.tally 0x0E03 0 0x50 else s2
  let (seq, s4) := s3.bootSlot
  if p.commit = 2 then ({ s4 with pwr := { s4.pwr with commit := 3 } }).tally 0x0E09 0 0 seq else s4

/-- The live signals, and the clocks that boot needs (R19, R421). [DESIGN CHOICE, log 111] -/
def State.bootPower (s : State) : State :=
  let s0 := if s.pwr.brown then
      (({ s with pwr := { s.pwr with brown := false, rails := true } }).wrB Reg.PWR_STAT_PFW false).vbusRead
    else s
  let s1 := (s0.wrB Reg.PWR_STAT_VBUSOK (!s0.bit Reg.PWR_STAT_PFW)).wrB Reg.PWR_STAT_PGANA s0.pwr.analogue
  let s2 := (s1.wrB Reg.PWR_KSTAT_KEEPSRC s1.pwr.vkeep).wrB Reg.SYS_CLKSTAT_PLLLOCK true
  { s2 with
    saf := { s2.saf with cycAt := s2.time.edge, heartbeat := s2.time.edge, nextClock := s2.time.edge + edgesPerMs } }

/-! ### Firmware (R436, R437) -/

/-- Read bytes of the MRAM by whole codewords, and whether any was poisoned. -/
def State.mramBytes (s : State) (off n : Nat) : (List Byte × Bool) × State :=
  let ((b, p), s1) := s.mramGet off ((n + 7) / 8 * 8)
  ((b.take n, p), s1)

/-- What boot makes of a firmware region: absent, invalid with a cause of 0x0E06, or valid with its FWID. -/
inductive FwCheck where
  | absent
  | bad (cause version : Nat)
  | good (version fwid : Nat)
deriving DecidableEq, Repr

/-- Check a firmware region (R436). [DEDUCED, log 116; DESIGN CHOICE, log 117] -/
def State.fwCheck (s : State) (base : Nat) : FwCheck × State :=
  let ((h, p), s1) := s.mramBytes base 128
  let ver := fieldAt h 4 4
  let len := fieldAt h 8 4
  if p then (.bad 3 ver, s1)
  else if h.all fun x => x == 0#8 then (.absent, s1)
  else if fieldAt h 0 4 ≠ 0x574D464B ∨ len < 4 ∨ 2097024 < len ∨ len % 4 ≠ 0 then (.bad 1 ver, s1)
  else
    let ((b, q), s2) := s1.mramBytes (base + 128) len
    if q then (.bad 3 ver, s2)
    else if crc32c b ≠ fieldAt h 12 4 then (.bad 2 ver, s2)
    else if Config.sigOk (h ++ b) then (.good ver (crc32c (h ++ b)), s2)
    else (.bad 4 ver, s2)

/-- A region that is present and invalid (R436). -/
def State.fwShow (s : State) (region : Nat) (f : Field) : FwCheck → State
  | .bad cause ver => (s.wrB f true).tally 0x0E06 region cause ver
  | _ => s

/-- The image boot runs: region, version and FWID (R436). [DEDUCED, log 116] -/
def fwPick : FwCheck → FwCheck → Option (Nat × Nat × Nat)
  | .good va ia, .good vb ib => if va < vb then some (1, vb, ib) else some (0, va, ia)
  | .good va ia, _ => some (0, va, ia)
  | _, .good vb ib => some (1, vb, ib)
  | _, _ => none

/-- Verify both regions and take an image into use; `false` if neither is valid. [DEDUCED, log 116] -/
def State.bootFirmware (s : State) : Bool × State :=
  let (a, s1) := s.fwCheck 0
  let (b, s2) := s1.fwCheck 0x200000
  let s3 := (s2.fwShow 0 Reg.PWR_BSTAT_FWABAD a).fwShow 1 Reg.PWR_BSTAT_FWBBAD b
  match fwPick a b with
  | some (r, ver, fwid) => (true, ((s3.wr Reg.PWR_BSTAT_FWSEL r).wr Reg.PWR_BSTAT_FWVER ver).wr Reg.TLY_FWID_ID fwid)
  | none => (false, s3.wrB Reg.PWR_BSTAT_NOFW true)

/-! ### The stored configuration (R438) -/

/-- CONFIG in the MRAM: its place and its length (R266). [PRESUMED, log 115] -/
def cfgBase : Nat := 0x400000
def cfgSize : Nat := 0x80000

/-- Check one record: `none` if its TYPE or a field is not as R438 lays down. [DEDUCED, log 118] -/
def cfgParse (b : List Byte) : Option CfgRec :=
  let ty := fieldAt b 0 1
  let off := fieldAt b 4 4
  let val := fieldAt b 8 4
  let src := fieldAt b 12 4
  if 1 < fieldAt b 1 1 ∨ fieldAt b 2 2 ≠ 0 then none
  else if ty = 2 then
    if off % 8 = 0 ∧ val % 8 = 0 ∧ src % 8 = 0 ∧ off + val ≤ lndSize ∧ src + val ≤ cfgSize then
      some ⟨false, true, fieldAt b 1 1 = 1, off, val, src⟩
    else none
  else if (ty = 1 ∨ ty = 3) ∧ src = 0 ∧ off % 4 = 0 ∧ off < 0x100000 then some ⟨ty = 3, false, fieldAt b 1 1 = 1, off, val, 0⟩
  else none

/-- All records, or the number of the first one that fails. [DEDUCED, log 118] -/
def cfgRecs (b : List Byte) (n : Nat) : List CfgRec × Option Nat :=
  (upFrom 0 n).foldl (fun (acc : List CfgRec × Option Nat) i =>
    match acc.2, cfgParse ((b.drop (16 * i)).take 16) with
    | some k, _ => (acc.1, some k)
    | none, some r => (acc.1 ++ [r], none)
    | none, none => (acc.1, some i)) ([], none)

/-- Stored configuration invalid: `none`, and its Tally record (R402). [DEDUCED, log 118] -/
def State.cfgFail (s : State) (rec cause off : Nat) : Option (List CfgRec) × State := (none, s.tally 0x0E07 rec cause off)

/-- Read and check the stored configuration. [PRESUMED, log 115] -/
def State.readConfig (s : State) : Option (List CfgRec) × State :=
  let ((h, p), s1) := s.mramBytes cfgBase 32
  let n := fieldAt h 8 4
  let len := fieldAt h 12 4
  if p then s1.cfgFail 0xFFFF 4 0
  else if fieldAt h 0 4 ≠ 0x4746434B ∨ fieldAt h 4 4 ≠ 1 ∨ len < 16 * n ∨ cfgSize < 32 + len then s1.cfgFail 0xFFFF 1 0
  else
    let ((b, q), s2) := s1.mramBytes (cfgBase + 32) len
    if q then
      match (upFrom 0 n).find? fun i => (s2.mram.stored (cfgBase / 8 + 4 + 2 * i)).poison || (s2.mram.stored (cfgBase / 8 + 5 + 2 * i)).poison with
      | some i => s2.cfgFail i 4 (32 + 16 * i)
      | none => s2.cfgFail 0xFFFF 4 0
    else if crc32c b ≠ fieldAt h 16 4 then s2.cfgFail 0xFFFF 3 0
    else
      match cfgRecs b n with
      | (_, some i) => s2.cfgFail i 2 (32 + 16 * i)
      | (l, none) => (some l, s2)

/-- Read `n` codewords of the MRAM from word `w` up. -/
def State.mramCws (s : State) (w n : Nat) : List Cw × State :=
  (upFrom w n).foldl (fun (acc : List Cw × State) i => let (c, s1) := acc.2.readCw .mram i 7; (acc.1 ++ [c], s1)) ([], s)

/-- Apply one record: a register write, or a copy into the Landing, which carries poison word by word (R253). [DEDUCED, log 118] -/
def State.cfgApply (s : State) (r : CfgRec) : State :=
  if r.load then
    let (l, s1) := s.mramCws ((cfgBase + r.src) / 8) (r.val / 8)
    s1.lndWriteCws 7 r.off l
  else s.regWrite r.off r.val

/-! ### Device time (R440), the start (R441) -/

/-- Device time from the RTC, which has run on since its last update; 0 without a valid time. [DESIGN CHOICE, log 108] -/
def State.bootTime (s : State) : State :=
  if s.bit Reg.PWR_KSTAT_RTCVAL then
    let (i, s1) := s.draw
    let t := s.pwr.rtcSec * 32768 + s.pwr.rtcFrac + (Config.freeWord i).toNat
    s1.loadTime (t / 32768) (t % 32768 * 1000000000 / 32768)
  else s.loadTime 0 0

/-- The code of the start: 0 STOP, 1 WARM, 2 COLD. [DEDUCED, log 54] -/
def State.startCode (s : State) : Nat :=
  match s.pwr.cause with
  | 2 => 1
  | 3 => s.rd Reg.PWR_BOOTCFG_STARTWS
  | 4 => s.rd Reg.PWR_BOOTCFG_STARTWS
  | _ => s.rd Reg.PWR_BOOTCFG_STARTP

/-- Start the program as configured, or set STARTPEND if an enabled task's bank in use has LOADED = 0 (R441). -/
def State.bootStart (s : State) : State :=
  let code := s.startCode
  if code = 1 ∨ code = 2 then
    let (l, s1) := s.readDescs (s.enabledTasks.map fun t => (t, s.rd Reg.TEX_TCFG_BANK t))
    if l.any fun td => !td.poison && !td.desc.loaded then s1.wrB Reg.PWR_BSTAT_STARTPEND true
    else s1.restart (decide (code = 1))
  else s

/-- Pass 3 and the start (R438, R441, R442). -/
def State.bootProceed (s : State) : State :=
  let l := s.pwr.recs
  (({ s with pwr := { s.pwr with gate := false, gateAt := 0, recs := [] } }).over l fun r a => a.cfgApply r).bootStart

/-- Whether the module is grandmaster: a port of it is in MASTER and none in SLAVE (R297). [DEDUCED, log 119] -/
def State.isGrandmaster (s : State) : Bool :=
  s.ptpSlavePort.isNone && (upFrom 0 4).any fun p => s.ptpOn p && s.ptpState p == 6

/-- Whether the time gate may open (R442). -/
def State.gateOpen (s : State) : Bool := s.bit Reg.NET_SRVSTAT_LOCKED || s.isGrandmaster

/-! ### Boot as a whole -/

/-- The blaze (R439). -/
def State.blaze (s : State) : State := s.wrB Reg.PWR_BSTAT_BLAZE true

/-- The islands begin to run: the pair negotiates, boot is complete. -/
def State.bootIslands (s : State) : State := ({ s with pwr := { s.pwr with booted := true } }).trhStart

/-- The three passes around the blaze, then the time gate or the start. -/
def State.bootConfig (s : State) (l : List CfgRec) : State :=
  let s1 := (s.over (l.filter (·.bl)) fun r a => a.cfgApply r).blaze
  let s2 := s1.bootTime.over (l.filter fun r => !r.bl && !r.defer) fun r a => a.cfgApply r
  let s3 := s2.bootIslands
  let s4 := { s3 with pwr := { s3.pwr with recs := l.filter fun r => !r.bl && r.defer } }
  if s4.bit Reg.PWR_BOOTCFG_TLOCK && !s4.gateOpen then
    { s4 with pwr := { s4.pwr with gate := true, gateAt := s4.time.edge } }
  else s4.bootProceed

/-- What boot does once power stands. [DEDUCED, log 120 and 121] -/
def State.boot (s : State) : State :=
  let s1 := s.bootPower.bootTally.bootKeep.bootCauses.bootRetire
  match s1.bootFirmware with
  | (false, s2) => let s3 := s2.blaze; { s3 with pwr := { s3.pwr with booted := true, recovery := true } }
  | (true, s2) =>
    match s2.readConfig with
    | (none, s3) => (s3.wrB Reg.PWR_BSTAT_CFGERR true).blaze.bootTime.bootIslands
    | (some l, s3) => s3.bootConfig l

/-- RESET_N (R452): low while an event P, B, W or S is in progress and until boot has completed pass 2 (R438). -/
def State.resetN (s : State) : Bool := s.pwr.booted && !s.pwr.recovery && !s.bit Reg.PWR_BSTAT_CFGERR
/-- PFW_N (R424), FORCED_N (R180) and PG_ANA (R421); HEALTH is `State.health`. -/
def State.pfwN (s : State) : Bool := s.pwr.rails && !s.bit Reg.PWR_STAT_PFW
def State.forcedN (s : State) : Bool := !s.tex.forcedPin
def State.pgAna (s : State) : Bool := s.bit Reg.PWR_STAT_PGANA

/-- BOOT: after events P, B, W and S; after B once VBUS has stood above the warning-clear level for 10 ms (R428). [DESIGN CHOICE, log 6; DEDUCED, log 120] -/
def execBoot (s : State) : Host.Outcome State Fault Refusal :=
  if s.pwr.booted || s.pwr.standby || !(s.pwr.rails || s.pwr.brown) then .next s else .next s.boot

/-- STANDBY_EXIT: event P with the keep domain kept, and boot (R429, R432). -/
def execStandbyExit (s : State) : Host.Outcome State Fault Refusal :=
  if !s.pwr.standby then .next s
  else
    let s1 := ({ s with pwr := { s.pwr with standby := false, rails := true, analogue := true } }).hardReset .p false
    .next (((s1.wrB Reg.PWR_STAT_VBUSOK true).vbusRead).bootCause 5 0).boot

/-- TIME_GATE_OPEN (R442). -/
def execTimeGateOpen (s : State) : Host.Outcome State Fault Refusal :=
  if s.pwr.gate && s.gateOpen then .next s.bootProceed else .next s

/-- TIME_GATE_TIMEOUT: after TLTMO seconds (R442). -/
def execTimeGateTimeout (s : State) : Host.Outcome State Fault Refusal :=
  if s.pwr.gate then
    let n := max 1 (s.rd Reg.PWR_BOOTCFG_TLTMO)
    .next (((s.advanceEdge (s.pwr.gateAt + n * 1000 * edgesPerMs)).tally 0x0E08 0 0 n).bootProceed)
  else .next s

end Sys2Proof.Machine
end

