-- ==== Sys2Proof/Machine/Control.lean ====
section
/-! DEFINITION. JV32 control transfers, control registers and system operations (R225, R230 to R236, R242). -/
namespace Sys2Proof.Machine

/-- The target of a J format instruction (R224). -/
def jTarget (pc : Word) (imm : BitVec 26) : Word := pc + 4#32 + imm.signExtend 32 * 4#32

/-- GO (R225). -/
def execGo (e : Fin 8) (imm : BitVec 26) (s : State) : Host.Outcome State Fault Refusal :=
  .next (s.issue e (.go e imm) [] fun c a => a.setCtx e { c with pc := jTarget c.pc imm })

/-- CALL (R216, R225): the link goes to g31. -/
def execCall (e : Fin 8) (imm : BitVec 26) (s : State) : Host.Outcome State Fault Refusal :=
  .next (s.issue e (.call e imm) [31] fun c a => a.setCtx e { (c.setG 31 (c.pc + 4#32) false) with pc := jTarget c.pc imm })

/-- GOR (R225, R238). -/
def execGor (e : Fin 8) (rd rs1 : Fin 32) (imm : BitVec 16) (s : State) : Host.Outcome State Fault Refusal :=
  .next (s.issue e (.gor e rd rs1 imm) [rd.val, rs1.val] fun c a =>
    if c.tag rs1 then a.exc e xPoison 3
    else a.setCtx e { (c.setG rd (c.pc + 4#32) false) with pc := (c.greg rs1 + sx imm) &&& ~~~3#32 })

/-- BREQ (R225). -/
def execBreq (e : Fin 8) (rs1 rs2 : Fin 32) (imm : BitVec 16) (s : State) : Host.Outcome State Fault Refusal :=
  .next (s.branch e (.breq e rs1 rs2 imm) rs1 rs2 imm fun x y => x == y)

/-- BRNE (R225). -/
def execBrne (e : Fin 8) (rs1 rs2 : Fin 32) (imm : BitVec 16) (s : State) : Host.Outcome State Fault Refusal :=
  .next (s.branch e (.brne e rs1 rs2 imm) rs1 rs2 imm fun x y => x != y)

/-- BRLT (R225). -/
def execBrlt (e : Fin 8) (rs1 rs2 : Fin 32) (imm : BitVec 16) (s : State) : Host.Outcome State Fault Refusal :=
  .next (s.branch e (.brlt e rs1 rs2 imm) rs1 rs2 imm fun x y => x.slt y)

/-- BRGE (R225). -/
def execBrge (e : Fin 8) (rs1 rs2 : Fin 32) (imm : BitVec 16) (s : State) : Host.Outcome State Fault Refusal :=
  .next (s.branch e (.brge e rs1 rs2 imm) rs1 rs2 imm fun x y => !x.slt y)

/-- BRLTU (R225). -/
def execBrltu (e : Fin 8) (rs1 rs2 : Fin 32) (imm : BitVec 16) (s : State) : Host.Outcome State Fault Refusal :=
  .next (s.branch e (.brltu e rs1 rs2 imm) rs1 rs2 imm fun x y => x.ult y)

/-- BRGEU (R225). -/
def execBrgeu (e : Fin 8) (rs1 rs2 : Fin 32) (imm : BitVec 16) (s : State) : Host.Outcome State Fault Refusal :=
  .next (s.branch e (.brgeu e rs1 rs2 imm) rs1 rs2 imm fun x y => !x.ult y)

/-! ### Control registers (R235) -/

/-- The value of a control register for the task on engine `e`, with the state after the read: HTLO latches HTHI, CYCCNT
is execution time and a free value; `none` for an unlisted number. [DESIGN CHOICE, log 61] -/
def State.getCtl (s : State) (e : Nat) (c : CtxSt) (n : Nat) : Option (Word × State) :=
  let w := fun (v : Word) => some (v, s)
  match n with
  | 0x000 => w (BitVec.ofNat 32 (b2n c.inHnd))
  | 0x001 => w (c.fsticky.setWidth 32)
  | 0x002 => w c.epc
  | 0x003 => w (c.ecause.setWidth 32)
  | 0x004 => w c.eval
  | 0x010 => w (BitVec.ofNat 32 (s.eng e).task)
  | 0x011 => w (BitVec.ofNat 32 e)
  | 0x012 => w (c.tt.setWidth 32)
  | 0x013 => w (c.tt.extractLsb' 32 32)
  | 0x014 => w c.hnum
  | 0x015 => w c.cycle
  | 0x016 => w c.hflags
  | 0x017 => w c.hdra
  | 0x018 => w c.tkflume
  | 0x019 => w c.tkstamp
  | 0x020 => let (k, s1) := s.draw
             some ((Config.freeWord k).setWidth 32, s1)
  | 0x021 => some (BitVec.ofNat 32 s.htime, s.setEng e { s.eng e with ctx := { (s.eng e).ctx with hthi := BitVec.ofNat 32 (s.htime / 2 ^ 32) } })
  | 0x022 => w (s.eng e).ctx.hthi
  | _ => none

/-- GETC (R235). -/
def execGetc (e : Fin 8) (rd : Fin 32) (imm : BitVec 16) (s : State) : Host.Outcome State Fault Refusal :=
  .next (s.issue e (.getc e rd imm) [rd.val] fun c a =>
    match a.getCtl e c imm.toNat with
    | some (v, b) => b.put e c rd v false
    | none => a.exc e xIllegal 0)

/-- PUTC (R235, R238): only FSTICKY and EPC are writable. -/
def execPutc (e : Fin 8) (imm : BitVec 16) (rs1 : Fin 32) (s : State) : Host.Outcome State Fault Refusal :=
  .next (s.issue e (.putc e imm rs1) [rs1.val] fun c a =>
    if imm.toNat ≠ 1 ∧ imm.toNat ≠ 2 then a.exc e xIllegal 0
    else if c.tag rs1 then a.exc e xPoison 4
    else if imm.toNat = 1 then a.setCtx e { c.step with fsticky := (c.greg rs1).setWidth 5 }
    else a.setCtx e { c.step with epc := c.greg rs1 })

/-! ### Task and system operations (R230 to R236, R242) -/

/-- CEND (R236, R242): fence, then the cycle ends; from the handler it is counted. -/
def execCend (e : Fin 8) (s : State) : Host.Outcome State Fault Refusal :=
  .next (s.issueFenced e (.cend e) fun c a =>
    let t := (a.eng e).task
    (if c.inHnd then a.inc Reg.TEX_XCNT_HANDLED t else a).cycleEnd e t)

/-- The wait condition of a WAITF (R195, R231). -/
def waitOf (s : State) (mask ctl : Word) (rd : Nat) : WaitSt :=
  ⟨mask.toNat, ctl.getLsbD 31, ctl.getLsbD 30, s.expiry (ctl.toNat % 2 ^ 24), some rd⟩

/-- WAITF (R231, R212, R238). -/
def execWaitf (e : Fin 8) (rd rs1 rs2 : Fin 32) (s : State) : Host.Outcome State Fault Refusal :=
  .next (s.issueFenced e (.waitf e rd rs1 rs2) fun c a =>
    let t := (a.eng e).task
    if a.det then a.exc e xDetwait 0
    else if c.tag rs1 || c.tag rs2 then a.exc e xPoison 6
    else
      let w := waitOf a (c.greg rs1) (c.greg rs2) rd
      if w.holds (a.flags t) then
        let r := Nat.land (a.flags t) w.mask
        let b := (if w.consume then a.rawFlags t (a.flags t - r) else a).wr Reg.TEX_DREL_R r t
        b.put e c rd (BitVec.ofNat 32 r) false
      else (a.setCtx e c.step).leaveFor e stWait fun x => { x with wait := some w })

/-- DELAY (R199, R231): 0 yields behind the READY tasks of its priority. -/
def execDelay (e : Fin 8) (rs1 : Fin 32) (s : State) : Host.Outcome State Fault Refusal :=
  .next (s.issueFenced e (.delay e rs1) fun c a =>
    let t := (a.eng e).task
    let d := (c.greg rs1).toNat % 2 ^ 24
    if a.det then a.exc e xDetwait 0
    else if c.tag rs1 then a.exc e xPoison 6
    else
      let b := a.setCtx e c.step
      if d = 0 then
        match b.takeOff e with
        | (true, b1) => b1.makeReady t false 1
        | (false, b1) => b1
      else b.leaveFor e stDelay fun x => { x with delayDue := some (b.dtick + d) })

/-- HWAIT (R198, R231). -/
def execHwait (e : Fin 8) (rd rs1 rs2 : Fin 32) (s : State) : Host.Outcome State Fault Refusal :=
  .next (s.issueFenced e (.hwait e rd rs1 rs2) fun c a =>
    let n := (c.greg rs1).toNat % 8
    let hn := (c.greg rs2).toNat
    if a.det then a.exc e xDetwait 0
    else if c.tag rs1 || c.tag rs2 then a.exc e xPoison 5
    else if !a.bit Reg.HST_RSTAT_RUN n then a.put e c rd 1#32 false
    else if sInt 32 (hn + 2 ^ 32 - a.rd Reg.HST_RHNUM_HNUM n) ≤ 0 then a.put e c rd 0#32 false
    else (a.setCtx e c.step).leaveFor e stDelay fun x => { x with hwait := some (n, hn, rd.val) })

/-- FSET (R232): source rank 5. -/
def execFset (e : Fin 8) (rs1 rs2 : Fin 32) (s : State) : Host.Outcome State Fault Refusal :=
  .next (s.issueFenced e (.fset e rs1 rs2) fun c a =>
    if c.tag rs1 then a.exc e xPoison 5
    else if c.tag rs2 then a.exc e xPoison 6
    else (a.setCtx e c.step).flagSet 5 (a.eng e).task ((c.greg rs1).toNat % 256) (c.greg rs2).toNat)

/-- FCLR (R232). -/
def execFclr (e : Fin 8) (rs1 rs2 : Fin 32) (s : State) : Host.Outcome State Fault Refusal :=
  .next (s.issueFenced e (.fclr e rs1 rs2) fun c a =>
    if c.tag rs1 then a.exc e xPoison 5
    else if c.tag rs2 then a.exc e xPoison 6
    else (a.setCtx e c.step).flagClear 5 (a.eng e).task ((c.greg rs1).toNat % 256) (c.greg rs2).toNat)

/-- FGET (R230): the task's own flags. -/
def execFget (e : Fin 8) (rd : Fin 32) (s : State) : Host.Outcome State Fault Refusal :=
  .next (s.issue e (.fget e rd) [rd.val] fun c a => a.put e c rd (BitVec.ofNat 32 (a.flags (a.eng e).task)) false)

/-- RGET (R230): the flags delivered last. -/
def execRget (e : Fin 8) (rd : Fin 32) (s : State) : Host.Outcome State Fault Refusal :=
  .next (s.issue e (.rget e rd) [rd.val] fun c a => a.put e c rd (BitVec.ofNat 32 (a.rd Reg.TEX_DREL_R (a.eng e).task)) false)

/-- POST (R233): the status is tagged by the ARG pair it read (R237). -/
def execPost (e : Fin 8) (rd rs1 rs2 : Fin 32) (s : State) : Host.Outcome State Fault Refusal :=
  .next (s.issueFenced e (.post e rd rs1 rs2) fun c a =>
    let t := (a.eng e).task
    if rs2.val % 2 = 1 then a.exc e xIllegal 0
    else if c.tag rs1 then a.exc e xPoison 5
    else
      let arg := pairWord (c.greg rs2) (c.greg (rs2 + 1))
      let (k, b) := a.postFrom 5 t ((c.greg rs1).toNat % 4096) arg.toNat (c.tag rs2 || c.tag (rs2 + 1)) t
      b.put e c rd (BitVec.ofNat 32 k) (c.tag rs2 || c.tag (rs2 + 1)))

/-- The item a TAKE by the task gets: from its slot, else in normal mode from the pool (R204, R212). -/
def State.takeItem (s : State) (t : Nat) : Option Item × State :=
  if !s.bit Reg.TEX_DCFG_GEN t then (none, s)
  else match firstHead (s.tex.items.filter fun i => i.place == .slot t) with
    | some i => (some i, s)
    | none => if s.det then (none, s) else s.nextHead (s.rd Reg.TEX_DCFG_GRP t)

/-- TAKE (R204, R233). -/
def execTake (e : Fin 8) (rd : Fin 32) (s : State) : Host.Outcome State Fault Refusal :=
  .next (s.issue e (.take e rd) [rd.val, rd.val + 1] fun c a =>
    let t := (a.eng e).task
    if rd.val % 2 = 1 then a.exc e xIllegal 0
    else match a.takeItem t with
      | (some i, b) =>
        let (w, b1) := (b.placeItem i (.taken t)).itemArg i (engPort e)
        b1.putPair e { c with tkflume := BitVec.ofNat 32 i.flume, tkstamp := BitVec.ofNat 32 i.stamp } rd w.data w.poison
      | (none, b) => b.putPair e { c with tkflume := c.tkflume ||| 0x80000000#32 } rd 0#64 false)

/-- DONE (R204, R211, R233). -/
def execDone (e : Fin 8) (rs1 : Fin 32) (s : State) : Host.Outcome State Fault Refusal :=
  .next (s.issueFenced e (.done e rs1) fun c a =>
    let t := (a.eng e).task
    let f := (c.greg rs1).toNat % 4096
    if c.tag rs1 then a.exc e xPoison 5
    else match (a.flumeItems f).find? fun i => i.place == .taken t with
      | none => a.exc e xDoneerr 0
      | some i =>
        let b := a.setCtx e c.step
        if b.det then (b.placeItem i .ended).stage 6 t (.fin t f) else (b.dropItem i).nowEligible f)

/-- FENCE (R220): with loads or accesses outstanding it waits for FENCE_RELEASE. -/
def execFence (e : Fin 8) (s : State) : Host.Outcome State Fault Refusal :=
  .next (s.issue e (.fence e) [] fun c a =>
    if (a.eng e).loads = [] ∧ !(a.lnd.waiting.any fun w => w.ofEngine e) then a.setCtx e c.step else a.setEng e { a.eng e with fence := true })

/-- XRET (R242). -/
def execXret (e : Fin 8) (s : State) : Host.Outcome State Fault Refusal :=
  .next (s.issue e (.xret e) [] fun c a => a.setCtx e { c with pc := c.epc &&& ~~~3#32, inHnd := false })

/-- TRAP (R230, R241): the code is in EVAL. -/
def execTrap (e : Fin 8) (code : BitVec 15) (s : State) : Host.Outcome State Fault Refusal :=
  .next (s.issue e (.trap e code) [] fun _ a => a.excAt e xTrap 0 (code.setWidth 32))

end Sys2Proof.Machine
end

