-- ==== Sys2Proof/Machine/Fpu.lean ====
section
/-! DEFINITION. JV32 floating-point instructions (R227, R228). -/
namespace Sys2Proof.Machine

/-- The operands of a two-source operation. -/
def opA (l : List Nat) : Nat := l.getD 0 0
def opB (l : List Nat) : Nat := l.getD 1 0
def opC (l : List Nat) : Nat := l.getD 2 0
/-- A result with no condition. -/
def plain (v : Nat) : FRes := (v, {})
/-- An integer conversion result as a 32-bit code. -/
def intRes (r : Int × FFlags) : FRes := (uOf 32 r.1, r.2)
/-- Magnitude of x with a sign bit (R227). -/
def withSign (x : Nat) (neg : Bool) : Nat := x % 2 ^ 31 + b2n neg * 2 ^ 31

/-- FADD (R227). -/
def execFadd (e : Fin 8) (rm : Fin 5) (rd rs1 rs2 : Fin 32) (s : State) : Host.Outcome State Fault Refusal :=
  .next (s.opF e (.fadd e rm rd rs1 rs2) rd [rs1.val, rs2.val] fun l => fAdd b32 (rmOf rm) (opA l) (opB l))

/-- FSUB (R227). -/
def execFsub (e : Fin 8) (rm : Fin 5) (rd rs1 rs2 : Fin 32) (s : State) : Host.Outcome State Fault Refusal :=
  .next (s.opF e (.fsub e rm rd rs1 rs2) rd [rs1.val, rs2.val] fun l => fSub b32 (rmOf rm) (opA l) (opB l))

/-- FMUL (R227). -/
def execFmul (e : Fin 8) (rm : Fin 5) (rd rs1 rs2 : Fin 32) (s : State) : Host.Outcome State Fault Refusal :=
  .next (s.opF e (.fmul e rm rd rs1 rs2) rd [rs1.val, rs2.val] fun l => fMul b32 (rmOf rm) (opA l) (opB l))

/-- FDIV (R227). -/
def execFdiv (e : Fin 8) (rm : Fin 5) (rd rs1 rs2 : Fin 32) (s : State) : Host.Outcome State Fault Refusal :=
  .next (s.opF e (.fdiv e rm rd rs1 rs2) rd [rs1.val, rs2.val] fun l => fDiv b32 (rmOf rm) (opA l) (opB l))

/-- FROOT (R227). -/
def execFroot (e : Fin 8) (rm : Fin 5) (rd rs1 : Fin 32) (s : State) : Host.Outcome State Fault Refusal :=
  .next (s.opF e (.froot e rm rd rs1) rd [rs1.val] fun l => fSqrt b32 (rmOf rm) (opA l))

/-- FTOI (R227). -/
def execFtoi (e : Fin 8) (rm : Fin 5) (rd rs1 : Fin 32) (s : State) : Host.Outcome State Fault Refusal :=
  .next (s.opF e (.ftoi e rm rd rs1) rd [rs1.val] fun l => intRes (fToInt b32 (rmOf rm) (-(2 ^ 31)) (2 ^ 31 - 1) (opA l)))

/-- FTOIU (R227). -/
def execFtoiu (e : Fin 8) (rm : Fin 5) (rd rs1 : Fin 32) (s : State) : Host.Outcome State Fault Refusal :=
  .next (s.opF e (.ftoiu e rm rd rs1) rd [rs1.val] fun l => intRes (fToInt b32 (rmOf rm) 0 (2 ^ 32 - 1) (opA l)))

/-- ITOF (R227). -/
def execItof (e : Fin 8) (rm : Fin 5) (rd rs1 : Fin 32) (s : State) : Host.Outcome State Fault Refusal :=
  .next (s.opF e (.itof e rm rd rs1) rd [rs1.val] fun l => fOfInt b32 (rmOf rm) (sInt 32 (opA l)))

/-- UTOF (R227). -/
def execUtof (e : Fin 8) (rm : Fin 5) (rd rs1 : Fin 32) (s : State) : Host.Outcome State Fault Refusal :=
  .next (s.opF e (.utof e rm rd rs1) rd [rs1.val] fun l => fOfInt b32 (rmOf rm) (opA l))

/-- FLO (R227, R228). -/
def execFlo (e : Fin 8) (rd rs1 rs2 : Fin 32) (s : State) : Host.Outcome State Fault Refusal :=
  .next (s.opF e (.flo e rd rs1 rs2) rd [rs1.val, rs2.val] fun l => fMinMax b32 false (opA l) (opB l))

/-- FHI (R227, R228). -/
def execFhi (e : Fin 8) (rd rs1 rs2 : Fin 32) (s : State) : Host.Outcome State Fault Refusal :=
  .next (s.opF e (.fhi e rd rs1 rs2) rd [rs1.val, rs2.val] fun l => fMinMax b32 true (opA l) (opB l))

/-- FCMPEQ (R227, R228). -/
def execFcmpeq (e : Fin 8) (rd rs1 rs2 : Fin 32) (s : State) : Host.Outcome State Fault Refusal :=
  .next (s.opF e (.fcmpeq e rd rs1 rs2) rd [rs1.val, rs2.val] fun l => (b2n (fEq b32 (opA l) (opB l)), cmpFlags true (opA l) (opB l)))

/-- FCMPLT (R227, R228). -/
def execFcmplt (e : Fin 8) (rd rs1 rs2 : Fin 32) (s : State) : Host.Outcome State Fault Refusal :=
  .next (s.opF e (.fcmplt e rd rs1 rs2) rd [rs1.val, rs2.val] fun l => (b2n (fLt b32 (opA l) (opB l)), cmpFlags false (opA l) (opB l)))

/-- FCMPLE (R227, R228). -/
def execFcmple (e : Fin 8) (rd rs1 rs2 : Fin 32) (s : State) : Host.Outcome State Fault Refusal :=
  .next (s.opF e (.fcmple e rd rs1 rs2) rd [rs1.val, rs2.val] fun l => (b2n (fLe b32 (opA l) (opB l)), cmpFlags false (opA l) (opB l)))

/-- FCPYS (R227, R228). -/
def execFcpys (e : Fin 8) (rd rs1 rs2 : Fin 32) (s : State) : Host.Outcome State Fault Refusal :=
  .next (s.opF e (.fcpys e rd rs1 rs2) rd [rs1.val, rs2.val] fun l => plain (withSign (opA l) (bitAt (opB l) 31)))

/-- FNEGS (R227, R228). -/
def execFnegs (e : Fin 8) (rd rs1 rs2 : Fin 32) (s : State) : Host.Outcome State Fault Refusal :=
  .next (s.opF e (.fnegs e rd rs1 rs2) rd [rs1.val, rs2.val] fun l => plain (withSign (opA l) (!bitAt (opB l) 31)))

/-- FXORS (R227, R228). -/
def execFxors (e : Fin 8) (rd rs1 rs2 : Fin 32) (s : State) : Host.Outcome State Fault Refusal :=
  .next (s.opF e (.fxors e rd rs1 rs2) rd [rs1.val, rs2.val] fun l => plain (withSign (opA l) (bitAt (opA l) 31 != bitAt (opB l) 31)))

/-- FKIND (R227). -/
def execFkind (e : Fin 8) (rd rs1 : Fin 32) (s : State) : Host.Outcome State Fault Refusal :=
  .next (s.opF e (.fkind e rd rs1) rd [rs1.val] fun l => plain (fkindOf (opA l)))

/-- FMAC (R227): one rounding, to nearest with ties to even. -/
def execFmac (e : Fin 8) (rd rs1 rs2 rs3 : Fin 32) (s : State) : Host.Outcome State Fault Refusal :=
  .next (s.opF e (.fmac e rd rs1 rs2 rs3) rd [rs1.val, rs2.val, rs3.val] fun l => fFma b32 .nearestEven false false (opA l) (opB l) (opC l))

/-- FMSB (R227): one rounding, to nearest with ties to even. -/
def execFmsb (e : Fin 8) (rd rs1 rs2 rs3 : Fin 32) (s : State) : Host.Outcome State Fault Refusal :=
  .next (s.opF e (.fmsb e rd rs1 rs2 rs3) rd [rs1.val, rs2.val, rs3.val] fun l => fFma b32 .nearestEven false true (opA l) (opB l) (opC l))

/-- FNMAC (R227): one rounding, to nearest with ties to even. -/
def execFnmac (e : Fin 8) (rd rs1 rs2 rs3 : Fin 32) (s : State) : Host.Outcome State Fault Refusal :=
  .next (s.opF e (.fnmac e rd rs1 rs2 rs3) rd [rs1.val, rs2.val, rs3.val] fun l => fFma b32 .nearestEven true true (opA l) (opB l) (opC l))

/-- FNMSB (R227): one rounding, to nearest with ties to even. -/
def execFnmsb (e : Fin 8) (rd rs1 rs2 rs3 : Fin 32) (s : State) : Host.Outcome State Fault Refusal :=
  .next (s.opF e (.fnmsb e rd rs1 rs2 rs3) rd [rs1.val, rs2.val, rs3.val] fun l => fFma b32 .nearestEven true false (opA l) (opB l) (opC l))

end Sys2Proof.Machine
end

