-- ==== Sys2Proof/Machine/Memory.lean ====
section
/-! DEFINITION. JV32 loads, stores and atomics (R225, R229). -/
namespace Sys2Proof.Machine

/-- LDB (R225). -/
def execLdb (e : Fin 8) (rd rs1 : Fin 32) (imm : BitVec 16) (s : State) : Host.Outcome State Fault Refusal :=
  .next (s.load e (.ldb e rd rs1 imm) rd rs1 imm 1 true)

/-- LDBU (R225). -/
def execLdbu (e : Fin 8) (rd rs1 : Fin 32) (imm : BitVec 16) (s : State) : Host.Outcome State Fault Refusal :=
  .next (s.load e (.ldbu e rd rs1 imm) rd rs1 imm 1 false)

/-- LDH (R225). -/
def execLdh (e : Fin 8) (rd rs1 : Fin 32) (imm : BitVec 16) (s : State) : Host.Outcome State Fault Refusal :=
  .next (s.load e (.ldh e rd rs1 imm) rd rs1 imm 2 true)

/-- LDHU (R225). -/
def execLdhu (e : Fin 8) (rd rs1 : Fin 32) (imm : BitVec 16) (s : State) : Host.Outcome State Fault Refusal :=
  .next (s.load e (.ldhu e rd rs1 imm) rd rs1 imm 2 false)

/-- LDW (R225). -/
def execLdw (e : Fin 8) (rd rs1 : Fin 32) (imm : BitVec 16) (s : State) : Host.Outcome State Fault Refusal :=
  .next (s.load e (.ldw e rd rs1 imm) rd rs1 imm 4 false)

/-- LDP (R225). -/
def execLdp (e : Fin 8) (rd rs1 : Fin 32) (imm : BitVec 16) (s : State) : Host.Outcome State Fault Refusal :=
  .next (s.load e (.ldp e rd rs1 imm) rd rs1 imm 8 false)

/-- STB (R225). -/
def execStb (e : Fin 8) (rs2 rs1 : Fin 32) (imm : BitVec 16) (s : State) : Host.Outcome State Fault Refusal :=
  .next (s.store e (.stb e rs2 rs1 imm) rs2 rs1 imm 1)

/-- STH (R225). -/
def execSth (e : Fin 8) (rs2 rs1 : Fin 32) (imm : BitVec 16) (s : State) : Host.Outcome State Fault Refusal :=
  .next (s.store e (.sth e rs2 rs1 imm) rs2 rs1 imm 2)

/-- STW (R225). -/
def execStw (e : Fin 8) (rs2 rs1 : Fin 32) (imm : BitVec 16) (s : State) : Host.Outcome State Fault Refusal :=
  .next (s.store e (.stw e rs2 rs1 imm) rs2 rs1 imm 4)

/-- STP (R225). -/
def execStp (e : Fin 8) (rs2 rs1 : Fin 32) (imm : BitVec 16) (s : State) : Host.Outcome State Fault Refusal :=
  .next (s.store e (.stp e rs2 rs1 imm) rs2 rs1 imm 8)

/-- ATSWAP (R229): x is the old word, y rs2. -/
def execAtswap (e : Fin 8) (rd rs1 rs2 : Fin 32) (s : State) : Host.Outcome State Fault Refusal :=
  .next (s.atomic e (.atswap e rd rs1 rs2) rd rs1 rs2 false fun _ y _ => some (y))

/-- ATADD (R229): x is the old word, y rs2. -/
def execAtadd (e : Fin 8) (rd rs1 rs2 : Fin 32) (s : State) : Host.Outcome State Fault Refusal :=
  .next (s.atomic e (.atadd e rd rs1 rs2) rd rs1 rs2 false fun x y _ => some (x + y))

/-- ATAND (R229): x is the old word, y rs2. -/
def execAtand (e : Fin 8) (rd rs1 rs2 : Fin 32) (s : State) : Host.Outcome State Fault Refusal :=
  .next (s.atomic e (.atand e rd rs1 rs2) rd rs1 rs2 false fun x y _ => some (x &&& y))

/-- ATOR (R229): x is the old word, y rs2. -/
def execAtor (e : Fin 8) (rd rs1 rs2 : Fin 32) (s : State) : Host.Outcome State Fault Refusal :=
  .next (s.atomic e (.ator e rd rs1 rs2) rd rs1 rs2 false fun x y _ => some (x ||| y))

/-- ATXOR (R229): x is the old word, y rs2. -/
def execAtxor (e : Fin 8) (rd rs1 rs2 : Fin 32) (s : State) : Host.Outcome State Fault Refusal :=
  .next (s.atomic e (.atxor e rd rs1 rs2) rd rs1 rs2 false fun x y _ => some (x ^^^ y))

/-- ATMIN (R229): x is the old word, y rs2. -/
def execAtmin (e : Fin 8) (rd rs1 rs2 : Fin 32) (s : State) : Host.Outcome State Fault Refusal :=
  .next (s.atomic e (.atmin e rd rs1 rs2) rd rs1 rs2 false fun x y _ => some (if x.slt y then x else y))

/-- ATMAX (R229): x is the old word, y rs2. -/
def execAtmax (e : Fin 8) (rd rs1 rs2 : Fin 32) (s : State) : Host.Outcome State Fault Refusal :=
  .next (s.atomic e (.atmax e rd rs1 rs2) rd rs1 rs2 false fun x y _ => some (if x.slt y then y else x))

/-- ATMINU (R229): x is the old word, y rs2. -/
def execAtminu (e : Fin 8) (rd rs1 rs2 : Fin 32) (s : State) : Host.Outcome State Fault Refusal :=
  .next (s.atomic e (.atminu e rd rs1 rs2) rd rs1 rs2 false fun x y _ => some (if x.ult y then x else y))

/-- ATMAXU (R229): x is the old word, y rs2. -/
def execAtmaxu (e : Fin 8) (rd rs1 rs2 : Fin 32) (s : State) : Host.Outcome State Fault Refusal :=
  .next (s.atomic e (.atmaxu e rd rs1 rs2) rd rs1 rs2 false fun x y _ => some (if x.ult y then y else x))

/-- ATCAS (R229): rs2 if the old word equals rd. -/
def execAtcas (e : Fin 8) (rd rs1 rs2 : Fin 32) (s : State) : Host.Outcome State Fault Refusal :=
  .next (s.atomic e (.atcas e rd rs1 rs2) rd rs1 rs2 true fun x y z => if x = z then some y else none)

/-- LOAD_RETURN: the oldest outstanding load returns (R215). [DEDUCED, log 63] -/
def execLoadReturn (e : Fin 8) (s : State) : Host.Outcome State Fault Refusal := .next (s.returnLoad e)

/-- FENCE_RELEASE: a waiting fence completes (R220). -/
def execFenceRelease (e : Fin 8) (s : State) : Host.Outcome State Fault Refusal :=
  if (s.eng e).fence then .next (s.fenceDone e) else .next s

end Sys2Proof.Machine
end

