-- ==== Sys2Proof/Machine/Dispatch.lean ====
section
/-! DEFINITION. One arm per command: each calls its meaning. -/
namespace Sys2Proof.Machine

/-- The effect of a command on everything but the queue. -/
def exec (i : Instr) (s : State) : Host.Outcome State Fault Refusal :=
  match i with
  | .registerWrite off width v same => Sys2Proof.Machine.execRegisterWrite off width v same s
  | .landingAccess reqs => Sys2Proof.Machine.execLandingAccess reqs s
  | .requestPromotion seq => Sys2Proof.Machine.execRequestPromotion seq s
  | .repeatRewrite bank w => Sys2Proof.Machine.execRepeatRewrite bank w s
  | .refclkFallback gap ppm => Sys2Proof.Machine.execRefclkFallback gap ppm s
  | .refclkLossCritical gap ppm => Sys2Proof.Machine.execRefclkLossCritical gap ppm s
  | .refselRequest => Sys2Proof.Machine.execRefselRequest s
  | .refselWithdraw => Sys2Proof.Machine.execRefselWithdraw s
  | .refclkSwitch good => Sys2Proof.Machine.execRefclkSwitch good s
  | .slewWrite v => Sys2Proof.Machine.execSlewWrite v s
  | .slewEnd => Sys2Proof.Machine.execSlewEnd s
  | .timeStep => Sys2Proof.Machine.execTimeStep s
  | .timeSnap => Sys2Proof.Machine.execTimeSnap s
  | .ringEnable n => Sys2Proof.Machine.execRingEnable n s
  | .ringDisable n => Sys2Proof.Machine.execRingDisable n s
  | .ringReload n => Sys2Proof.Machine.execRingReload n s
  | .reloadTake n => Sys2Proof.Machine.execReloadTake n s
  | .hoistInstant n dio asleep => Sys2Proof.Machine.execHoistInstant n dio asleep s
  | .inputDeadline n axes => Sys2Proof.Machine.execInputDeadline n axes s
  | .stepTimeAdvance m => Sys2Proof.Machine.execStepTimeAdvance m s
  | .stepTimeout m => Sys2Proof.Machine.execStepTimeout m s
  | .stationDrop st => Sys2Proof.Machine.execStationDrop st s
  | .clePass n loops => Sys2Proof.Machine.execClePass n loops s
  | .passPreempt n => Sys2Proof.Machine.execPassPreempt n s
  | .passResume n => Sys2Proof.Machine.execPassResume n s
  | .ringSeal n => Sys2Proof.Machine.execRingSeal n s
  | .cleDisable => Sys2Proof.Machine.execCleDisable s
  | .cleClrmax => Sys2Proof.Machine.execCleClrmax s
  | .filterCommit f => Sys2Proof.Machine.execFilterCommit f s
  | .axisDisable => Sys2Proof.Machine.execAxisDisable s
  | .axisClrmax => Sys2Proof.Machine.execAxisClrmax s
  | .compareEnqueue u => Sys2Proof.Machine.execCompareEnqueue u s
  | .captureRelease u => Sys2Proof.Machine.execCaptureRelease u s
  | .compareFire u => Sys2Proof.Machine.execCompareFire u s
  | .pulseEnd u => Sys2Proof.Machine.execPulseEnd u s
  | .captureEdge u level => Sys2Proof.Machine.execCaptureEdge u level s
  | .captureConfirm u => Sys2Proof.Machine.execCaptureConfirm u s
  | .feedbackRecordWrite c => Sys2Proof.Machine.execFeedbackRecordWrite c s
  | .ssiFrameDone c f => Sys2Proof.Machine.execSsiFrameDone c f s
  | .ssiAbsLoad c f => Sys2Proof.Machine.execSsiAbsLoad c f s
  | .observerUpdate => Sys2Proof.Machine.execObserverUpdate s
  | .standstill c => Sys2Proof.Machine.execStandstill c s
  | .observerRestart c psn => Sys2Proof.Machine.execObserverRestart c psn s
  | .settlingEnd c => Sys2Proof.Machine.execSettlingEnd c s
  | .reversalEnd c => Sys2Proof.Machine.execReversalEnd c s
  | .ampWarnSet c m => Sys2Proof.Machine.execAmpWarnSet c m s
  | .ampWarnClear c m => Sys2Proof.Machine.execAmpWarnClear c m s
  | .ampFaultSet c m => Sys2Proof.Machine.execAmpFaultSet c m s
  | .ampFaultClear c m => Sys2Proof.Machine.execAmpFaultClear c m s
  | .lineFault c => Sys2Proof.Machine.execLineFault c s
  | .zArm c => Sys2Proof.Machine.execZArm c s
  | .zMark c stood => Sys2Proof.Machine.execZMark c stood s
  | .fbkClrerr => Sys2Proof.Machine.execFbkClrerr s
  | .converterWake n => Sys2Proof.Machine.execConverterWake n s
  | .conversionResult n j codes err => Sys2Proof.Machine.execConversionResult n j codes err s
  | .converterEnable n => Sys2Proof.Machine.execConverterEnable n s
  | .referenceWindow agree => Sys2Proof.Machine.execReferenceWindow agree s
  | .interleaveBurst p samples err => Sys2Proof.Machine.execInterleaveBurst p samples err s
  | .cnvClrcnt => Sys2Proof.Machine.execCnvClrcnt s
  | .snapshotComplete t => Sys2Proof.Machine.execSnapshotComplete t s
  | .publish t segs => Sys2Proof.Machine.execPublish t segs s
  | .programRun => Sys2Proof.Machine.execProgramRun s
  | .programStop => Sys2Proof.Machine.execProgramStop s
  | .stopComplete => Sys2Proof.Machine.execStopComplete s
  | .coldRestart => Sys2Proof.Machine.execColdRestart s
  | .warmRestart => Sys2Proof.Machine.execWarmRestart s
  | .checkpoint => Sys2Proof.Machine.execCheckpoint s
  | .checkpointTimer => Sys2Proof.Machine.execCheckpointTimer s
  | .checkpointGatherTimeout => Sys2Proof.Machine.execCheckpointGatherTimeout s
  | .checkpointCommit => Sys2Proof.Machine.execCheckpointCommit s
  | .forceCommit f => Sys2Proof.Machine.execForceCommit f s
  | .onlineChangeArm => Sys2Proof.Machine.execOnlineChangeArm s
  | .onlineChangeSwitch => Sys2Proof.Machine.execOnlineChangeSwitch s
  | .onlineChangeTimeout => Sys2Proof.Machine.execOnlineChangeTimeout s
  | .onlineChangeAbort => Sys2Proof.Machine.execOnlineChangeAbort s
  | .dispatch => Sys2Proof.Machine.execDispatch s
  | .preempt => Sys2Proof.Machine.execPreempt s
  | .eflagSet t mask => Sys2Proof.Machine.execEflagSet t mask s
  | .eflagClear t mask => Sys2Proof.Machine.execEflagClear t mask s
  | .waitTimeout t => Sys2Proof.Machine.execWaitTimeout t s
  | .delayExpiry t => Sys2Proof.Machine.execDelayExpiry t s
  | .tickBoundary => Sys2Proof.Machine.execTickBoundary s
  | .slotFill e => Sys2Proof.Machine.execSlotFill e s
  | .engineLeave e => Sys2Proof.Machine.execEngineLeave e s
  | .engineFault e cause w => Sys2Proof.Machine.execEngineFault e cause w s
  | .engineJoin e => Sys2Proof.Machine.execEngineJoin e s
  | .engineTestDone e bad => Sys2Proof.Machine.execEngineTestDone e bad s
  | .enginePoolEntry e => Sys2Proof.Machine.execEnginePoolEntry e s
  | .dispatchClrcnt => Sys2Proof.Machine.execDispatchClrcnt s
  | .loadReturn e => Sys2Proof.Machine.execLoadReturn e s
  | .fenceRelease e => Sys2Proof.Machine.execFenceRelease e s
  | .add e rd rs1 rs2 => Sys2Proof.Machine.execAdd e rd rs1 rs2 s
  | .sub e rd rs1 rs2 => Sys2Proof.Machine.execSub e rd rs1 rs2 s
  | .and e rd rs1 rs2 => Sys2Proof.Machine.execAnd e rd rs1 rs2 s
  | .or e rd rs1 rs2 => Sys2Proof.Machine.execOr e rd rs1 rs2 s
  | .xor e rd rs1 rs2 => Sys2Proof.Machine.execXor e rd rs1 rs2 s
  | .shl e rd rs1 rs2 => Sys2Proof.Machine.execShl e rd rs1 rs2 s
  | .shr e rd rs1 rs2 => Sys2Proof.Machine.execShr e rd rs1 rs2 s
  | .shra e rd rs1 rs2 => Sys2Proof.Machine.execShra e rd rs1 rs2 s
  | .cmplt e rd rs1 rs2 => Sys2Proof.Machine.execCmplt e rd rs1 rs2 s
  | .cmpltu e rd rs1 rs2 => Sys2Proof.Machine.execCmpltu e rd rs1 rs2 s
  | .mul e rd rs1 rs2 => Sys2Proof.Machine.execMul e rd rs1 rs2 s
  | .mulhs e rd rs1 rs2 => Sys2Proof.Machine.execMulhs e rd rs1 rs2 s
  | .mulhu e rd rs1 rs2 => Sys2Proof.Machine.execMulhu e rd rs1 rs2 s
  | .quo e rd rs1 rs2 => Sys2Proof.Machine.execQuo e rd rs1 rs2 s
  | .quou e rd rs1 rs2 => Sys2Proof.Machine.execQuou e rd rs1 rs2 s
  | .mod e rd rs1 rs2 => Sys2Proof.Machine.execMod e rd rs1 rs2 s
  | .modu e rd rs1 rs2 => Sys2Proof.Machine.execModu e rd rs1 rs2 s
  | .min e rd rs1 rs2 => Sys2Proof.Machine.execMin e rd rs1 rs2 s
  | .max e rd rs1 rs2 => Sys2Proof.Machine.execMax e rd rs1 rs2 s
  | .minu e rd rs1 rs2 => Sys2Proof.Machine.execMinu e rd rs1 rs2 s
  | .maxu e rd rs1 rs2 => Sys2Proof.Machine.execMaxu e rd rs1 rs2 s
  | .btst e rd rs1 rs2 => Sys2Proof.Machine.execBtst e rd rs1 rs2 s
  | .bset e rd rs1 rs2 => Sys2Proof.Machine.execBset e rd rs1 rs2 s
  | .bclr e rd rs1 rs2 => Sys2Proof.Machine.execBclr e rd rs1 rs2 s
  | .bflip e rd rs1 rs2 => Sys2Proof.Machine.execBflip e rd rs1 rs2 s
  | .ptst e rd rs1 => Sys2Proof.Machine.execPtst e rd rs1 s
  | .fadd e rm rd rs1 rs2 => Sys2Proof.Machine.execFadd e rm rd rs1 rs2 s
  | .fsub e rm rd rs1 rs2 => Sys2Proof.Machine.execFsub e rm rd rs1 rs2 s
  | .fmul e rm rd rs1 rs2 => Sys2Proof.Machine.execFmul e rm rd rs1 rs2 s
  | .fdiv e rm rd rs1 rs2 => Sys2Proof.Machine.execFdiv e rm rd rs1 rs2 s
  | .froot e rm rd rs1 => Sys2Proof.Machine.execFroot e rm rd rs1 s
  | .flo e rd rs1 rs2 => Sys2Proof.Machine.execFlo e rd rs1 rs2 s
  | .fhi e rd rs1 rs2 => Sys2Proof.Machine.execFhi e rd rs1 rs2 s
  | .fcmpeq e rd rs1 rs2 => Sys2Proof.Machine.execFcmpeq e rd rs1 rs2 s
  | .fcmplt e rd rs1 rs2 => Sys2Proof.Machine.execFcmplt e rd rs1 rs2 s
  | .fcmple e rd rs1 rs2 => Sys2Proof.Machine.execFcmple e rd rs1 rs2 s
  | .ftoi e rm rd rs1 => Sys2Proof.Machine.execFtoi e rm rd rs1 s
  | .ftoiu e rm rd rs1 => Sys2Proof.Machine.execFtoiu e rm rd rs1 s
  | .itof e rm rd rs1 => Sys2Proof.Machine.execItof e rm rd rs1 s
  | .utof e rm rd rs1 => Sys2Proof.Machine.execUtof e rm rd rs1 s
  | .fcpys e rd rs1 rs2 => Sys2Proof.Machine.execFcpys e rd rs1 rs2 s
  | .fnegs e rd rs1 rs2 => Sys2Proof.Machine.execFnegs e rd rs1 rs2 s
  | .fxors e rd rs1 rs2 => Sys2Proof.Machine.execFxors e rd rs1 rs2 s
  | .fkind e rd rs1 => Sys2Proof.Machine.execFkind e rd rs1 s
  | .fmac e rd rs1 rs2 rs3 => Sys2Proof.Machine.execFmac e rd rs1 rs2 rs3 s
  | .fmsb e rd rs1 rs2 rs3 => Sys2Proof.Machine.execFmsb e rd rs1 rs2 rs3 s
  | .fnmac e rd rs1 rs2 rs3 => Sys2Proof.Machine.execFnmac e rd rs1 rs2 rs3 s
  | .fnmsb e rd rs1 rs2 rs3 => Sys2Proof.Machine.execFnmsb e rd rs1 rs2 rs3 s
  | .addk e rd rs1 imm => Sys2Proof.Machine.execAddk e rd rs1 imm s
  | .andk e rd rs1 imm => Sys2Proof.Machine.execAndk e rd rs1 imm s
  | .ork e rd rs1 imm => Sys2Proof.Machine.execOrk e rd rs1 imm s
  | .xork e rd rs1 imm => Sys2Proof.Machine.execXork e rd rs1 imm s
  | .cmpltk e rd rs1 imm => Sys2Proof.Machine.execCmpltk e rd rs1 imm s
  | .cmpltuk e rd rs1 imm => Sys2Proof.Machine.execCmpltuk e rd rs1 imm s
  | .shkShl e rd rs1 sh => Sys2Proof.Machine.execShkShl e rd rs1 sh s
  | .shkShr e rd rs1 sh => Sys2Proof.Machine.execShkShr e rd rs1 sh s
  | .shkShra e rd rs1 sh => Sys2Proof.Machine.execShkShra e rd rs1 sh s
  | .hik e rd imm => Sys2Proof.Machine.execHik e rd imm s
  | .go e imm => Sys2Proof.Machine.execGo e imm s
  | .call e imm => Sys2Proof.Machine.execCall e imm s
  | .gor e rd rs1 imm => Sys2Proof.Machine.execGor e rd rs1 imm s
  | .breq e rs1 rs2 imm => Sys2Proof.Machine.execBreq e rs1 rs2 imm s
  | .brne e rs1 rs2 imm => Sys2Proof.Machine.execBrne e rs1 rs2 imm s
  | .brlt e rs1 rs2 imm => Sys2Proof.Machine.execBrlt e rs1 rs2 imm s
  | .brge e rs1 rs2 imm => Sys2Proof.Machine.execBrge e rs1 rs2 imm s
  | .brltu e rs1 rs2 imm => Sys2Proof.Machine.execBrltu e rs1 rs2 imm s
  | .brgeu e rs1 rs2 imm => Sys2Proof.Machine.execBrgeu e rs1 rs2 imm s
  | .getc e rd imm => Sys2Proof.Machine.execGetc e rd imm s
  | .putc e imm rs1 => Sys2Proof.Machine.execPutc e imm rs1 s
  | .ldb e rd rs1 imm => Sys2Proof.Machine.execLdb e rd rs1 imm s
  | .ldbu e rd rs1 imm => Sys2Proof.Machine.execLdbu e rd rs1 imm s
  | .ldh e rd rs1 imm => Sys2Proof.Machine.execLdh e rd rs1 imm s
  | .ldhu e rd rs1 imm => Sys2Proof.Machine.execLdhu e rd rs1 imm s
  | .ldw e rd rs1 imm => Sys2Proof.Machine.execLdw e rd rs1 imm s
  | .ldp e rd rs1 imm => Sys2Proof.Machine.execLdp e rd rs1 imm s
  | .stb e rs2 rs1 imm => Sys2Proof.Machine.execStb e rs2 rs1 imm s
  | .sth e rs2 rs1 imm => Sys2Proof.Machine.execSth e rs2 rs1 imm s
  | .stw e rs2 rs1 imm => Sys2Proof.Machine.execStw e rs2 rs1 imm s
  | .stp e rs2 rs1 imm => Sys2Proof.Machine.execStp e rs2 rs1 imm s
  | .atswap e rd rs1 rs2 => Sys2Proof.Machine.execAtswap e rd rs1 rs2 s
  | .atadd e rd rs1 rs2 => Sys2Proof.Machine.execAtadd e rd rs1 rs2 s
  | .atand e rd rs1 rs2 => Sys2Proof.Machine.execAtand e rd rs1 rs2 s
  | .ator e rd rs1 rs2 => Sys2Proof.Machine.execAtor e rd rs1 rs2 s
  | .atxor e rd rs1 rs2 => Sys2Proof.Machine.execAtxor e rd rs1 rs2 s
  | .atmin e rd rs1 rs2 => Sys2Proof.Machine.execAtmin e rd rs1 rs2 s
  | .atmax e rd rs1 rs2 => Sys2Proof.Machine.execAtmax e rd rs1 rs2 s
  | .atminu e rd rs1 rs2 => Sys2Proof.Machine.execAtminu e rd rs1 rs2 s
  | .atmaxu e rd rs1 rs2 => Sys2Proof.Machine.execAtmaxu e rd rs1 rs2 s
  | .atcas e rd rs1 rs2 => Sys2Proof.Machine.execAtcas e rd rs1 rs2 s
  | .cend e => Sys2Proof.Machine.execCend e s
  | .waitf e rd rs1 rs2 => Sys2Proof.Machine.execWaitf e rd rs1 rs2 s
  | .delay e rs1 => Sys2Proof.Machine.execDelay e rs1 s
  | .hwait e rd rs1 rs2 => Sys2Proof.Machine.execHwait e rd rs1 rs2 s
  | .fset e rs1 rs2 => Sys2Proof.Machine.execFset e rs1 rs2 s
  | .fclr e rs1 rs2 => Sys2Proof.Machine.execFclr e rs1 rs2 s
  | .fget e rd => Sys2Proof.Machine.execFget e rd s
  | .rget e rd => Sys2Proof.Machine.execRget e rd s
  | .post e rd rs1 rs2 => Sys2Proof.Machine.execPost e rd rs1 rs2 s
  | .take e rd => Sys2Proof.Machine.execTake e rd s
  | .done e rs1 => Sys2Proof.Machine.execDone e rs1 s
  | .fence e => Sys2Proof.Machine.execFence e s
  | .xret e => Sys2Proof.Machine.execXret e s
  | .trap e code => Sys2Proof.Machine.execTrap e code s
  | .scrubRead upset => Sys2Proof.Machine.execScrubRead upset s
  | .scrubPassEnd => Sys2Proof.Machine.execScrubPassEnd s
  | .errorLogPop => Sys2Proof.Machine.execErrorLogPop s
  | .pageRetire p => Sys2Proof.Machine.execPageRetire p s
  | .pageRestore p => Sys2Proof.Machine.execPageRestore p s
  | .bankCopyStart => Sys2Proof.Machine.execBankCopyStart s
  | .bankCopyDone => Sys2Proof.Machine.execBankCopyDone s
  | .bankCopyAbort => Sys2Proof.Machine.execBankCopyAbort s
  | .bankTestStart => Sys2Proof.Machine.execBankTestStart s
  | .bankTestDone failing => Sys2Proof.Machine.execBankTestDone failing s
  | .mramRead => Sys2Proof.Machine.execMramRead s
  | .mramWrite => Sys2Proof.Machine.execMramWrite s
  | .mramWindowDone => Sys2Proof.Machine.execMramWindowDone s
  | .landingClrcnt => Sys2Proof.Machine.execLandingClrcnt s
  | .functionLevelReset => Sys2Proof.Machine.execFunctionLevelReset s
  | .hifReady => Sys2Proof.Machine.execHifReady s
  | .configRequest r => Sys2Proof.Machine.execConfigRequest r s
  | .bar2Read off n => Sys2Proof.Machine.execBar2Read off n s
  | .bar2Write off data => Sys2Proof.Machine.execBar2Write off data s
  | .hostRingEnable r => Sys2Proof.Machine.execHostRingEnable r s
  | .hostRingDisable r => Sys2Proof.Machine.execHostRingDisable r s
  | .hostRingError r cause => Sys2Proof.Machine.execHostRingError r cause s
  | .doorbell r count descs => Sys2Proof.Machine.execDoorbell r count descs s
  | .nop raw => Sys2Proof.Machine.execNop raw s
  | .wr64 raw => Sys2Proof.Machine.execWr64 raw s
  | .mwr32 raw => Sys2Proof.Machine.execMwr32 raw s
  | .copyin raw words failed pause => Sys2Proof.Machine.execCopyin raw words failed pause s
  | .copyout raw failed pause => Sys2Proof.Machine.execCopyout raw failed pause s
  | .cmdFset raw => Sys2Proof.Machine.execCmdFset raw s
  | .cmdPost raw => Sys2Proof.Machine.execCmdPost raw s
  | .athRelease => Sys2Proof.Machine.execAthRelease s
  | .setpointPerform r => Sys2Proof.Machine.execSetpointPerform r s
  | .eventEntryWrite => Sys2Proof.Machine.execEventEntryWrite s
  | .interrupt r => Sys2Proof.Machine.execInterrupt r s
  | .hifClrcnt => Sys2Proof.Machine.execHifClrcnt s
  | .ptpMessageReceive port kind domain err r => Sys2Proof.Machine.execPtpMessageReceive port kind domain err r s
  | .syncReceive port origin err logIvl => Sys2Proof.Machine.execSyncReceive port origin err logIvl s
  | .servoLock => Sys2Proof.Machine.execServoLock s
  | .holdoverEnter syncLost => Sys2Proof.Machine.execHoldoverEnter syncLost s
  | .holdoverExit => Sys2Proof.Machine.execHoldoverExit s
  | .listeningEnd port st => Sys2Proof.Machine.execListeningEnd port st s
  | .ptpTransmit port kind => Sys2Proof.Machine.execPtpTransmit port kind s
  | .linkChange port up => Sys2Proof.Machine.execLinkChange port up s
  | .sideTransmit port => Sys2Proof.Machine.execSideTransmit port s
  | .sideFrameReceive port frame fcsOk => Sys2Proof.Machine.execSideFrameReceive port frame fcsOk s
  | .hailReceive port frame fcsOk => Sys2Proof.Machine.execHailReceive port frame fcsOk s
  | .cycleUpReceive port frame fcsOk => Sys2Proof.Machine.execCycleUpReceive port frame fcsOk s
  | .cycleDownReceive port frame fcsOk => Sys2Proof.Machine.execCycleDownReceive port frame fcsOk s
  | .admitResend st => Sys2Proof.Machine.execAdmitResend st s
  | .stationRecordEnable st => Sys2Proof.Machine.execStationRecordEnable st s
  | .stationRelease st => Sys2Proof.Machine.execStationRelease st s
  | .netClrcnt => Sys2Proof.Machine.execNetClrcnt s
  | .discoveryClear => Sys2Proof.Machine.execDiscoveryClear s
  | .canEnable c => Sys2Proof.Machine.execCanEnable c s
  | .canListenEnd c => Sys2Proof.Machine.execCanListenEnd c s
  | .canIntegrated c => Sys2Proof.Machine.execCanIntegrated c s
  | .canTxRequest c => Sys2Proof.Machine.execCanTxRequest c s
  | .canTxAbort c => Sys2Proof.Machine.execCanTxAbort c s
  | .canFrameStart c lag err => Sys2Proof.Machine.execCanFrameStart c lag err s
  | .canTxEnd c r delay => Sys2Proof.Machine.execCanTxEnd c r delay s
  | .idCollision c => Sys2Proof.Machine.execIdCollision c s
  | .canFrameReceive c f ago err => Sys2Proof.Machine.execCanFrameReceive c f ago err s
  | .canRxRelease c => Sys2Proof.Machine.execCanRxRelease c s
  | .canBusoffRecovery c => Sys2Proof.Machine.execCanBusoffRecovery c s
  | .dominantTimeout c => Sys2Proof.Machine.execDominantTimeout c s
  | .canClrcnt => Sys2Proof.Machine.execCanClrcnt s
  | .safetyCycle d => Sys2Proof.Machine.execSafetyCycle d s
  | .safeInputChange n contactB closed => Sys2Proof.Machine.execSafeInputChange n contactB closed s
  | .contactAccepted n contactB => Sys2Proof.Machine.execContactAccepted n contactB s
  | .discrepancyTimeout n => Sys2Proof.Machine.execDiscrepancyTimeout n s
  | .testPulse sourceB staysHigh crossLow => Sys2Proof.Machine.execTestPulse sourceB staysHigh crossLow s
  | .outputTestPulse out stayedOn => Sys2Proof.Machine.execOutputTestPulse out stayedOn s
  | .outputWatchdog => Sys2Proof.Machine.execOutputWatchdog s
  | .clockCheck ppm advanced => Sys2Proof.Machine.execClockCheck ppm advanced s
  | .sdisTest ok => Sys2Proof.Machine.execSdisTest ok s
  | .safetyInitDone => Sys2Proof.Machine.execSafetyInitDone s
  | .groupReset mask => Sys2Proof.Machine.execGroupReset mask s
  | .halfmastEnd => Sys2Proof.Machine.execHalfmastEnd s
  | .halfmastTimeout => Sys2Proof.Machine.execHalfmastTimeout s
  | .halfmastAck => Sys2Proof.Machine.execHalfmastAck s
  | .brakeLeadEnd g => Sys2Proof.Machine.execBrakeLeadEnd g s
  | .brakeTestStart b => Sys2Proof.Machine.execBrakeTestStart b s
  | .brakeTestTorque b => Sys2Proof.Machine.execBrakeTestTorque b s
  | .brakeTestPass b => Sys2Proof.Machine.execBrakeTestPass b s
  | .brakeTestAbort => Sys2Proof.Machine.execBrakeTestAbort s
  | .brakeTestDue b => Sys2Proof.Machine.execBrakeTestDue b s
  | .paramLoad => Sys2Proof.Machine.execParamLoad s
  | .paramConfirm => Sys2Proof.Machine.execParamConfirm s
  | .paramDiscard => Sys2Proof.Machine.execParamDiscard s
  | .safeReset => Sys2Proof.Machine.execSafeReset s
  | .claimTransmit => Sys2Proof.Machine.execClaimTransmit s
  | .claimReceive lane frame => Sys2Proof.Machine.execClaimReceive lane frame s
  | .claimWindowExpiry => Sys2Proof.Machine.execClaimWindowExpiry s
  | .laneDown lane => Sys2Proof.Machine.execLaneDown lane s
  | .laneUp lane => Sys2Proof.Machine.execLaneUp lane s
  | .linkLossTimeout => Sys2Proof.Machine.execLinkLossTimeout s
  | .negotiationEnd => Sys2Proof.Machine.execNegotiationEnd s
  | .hoistFrameReceive lane frame psn => Sys2Proof.Machine.execHoistFrameReceive lane frame psn s
  | .retFrameReceive lane frame psn => Sys2Proof.Machine.execRetFrameReceive lane frame psn s
  | .handover => Sys2Proof.Machine.execHandover s
  | .handoverDip => Sys2Proof.Machine.execHandoverDip s
  | .pullReceive lane frame => Sys2Proof.Machine.execPullReceive lane frame s
  | .passdataReceive lane frame psn => Sys2Proof.Machine.execPassdataReceive lane frame psn s
  | .passStartReceive lane frame => Sys2Proof.Machine.execPassStartReceive lane frame s
  | .passRound2Receive lane frame => Sys2Proof.Machine.execPassRound2Receive lane frame s
  | .passEndReceive lane frame => Sys2Proof.Machine.execPassEndReceive lane frame s
  | .terhaClrcnt => Sys2Proof.Machine.execTerhaClrcnt s
  | .tallyWrite => Sys2Proof.Machine.execTallyWrite s
  | .tallyRepeatUpdate => Sys2Proof.Machine.execTallyRepeatUpdate s
  | .tallyRead index => Sys2Proof.Machine.execTallyRead index s
  | .tallyNext => Sys2Proof.Machine.execTallyNext s
  | .tallyUnlock key => Sys2Proof.Machine.execTallyUnlock key s
  | .tallyUnlockTimeout => Sys2Proof.Machine.execTallyUnlockTimeout s
  | .tallyClear => Sys2Proof.Machine.execTallyClear s
  | .tallyClearDone => Sys2Proof.Machine.execTallyClearDone s
  | .recordStart => Sys2Proof.Machine.execRecordStart s
  | .recordStop => Sys2Proof.Machine.execRecordStop s
  | .recordEntryDrain => Sys2Proof.Machine.execRecordEntryDrain s
  | .traceEnable => Sys2Proof.Machine.execTraceEnable s
  | .traceFreeze => Sys2Proof.Machine.execTraceFreeze s
  | .replayStart => Sys2Proof.Machine.execReplayStart s
  | .replayInject => Sys2Proof.Machine.execReplayInject s
  | .replayAbort => Sys2Proof.Machine.execReplayAbort s
  | .powerOnReset mv => Sys2Proof.Machine.execPowerOnReset mv s
  | .analogueRailFault => Sys2Proof.Machine.execAnalogueRailFault s
  | .holdupCharged mv10 => Sys2Proof.Machine.execHoldupCharged mv10 s
  | .powerFailWarning mv => Sys2Proof.Machine.execPowerFailWarning mv s
  | .powerFailClear lowest dur => Sys2Proof.Machine.execPowerFailClear lowest dur s
  | .brownOut mv => Sys2Proof.Machine.execBrownOut mv s
  | .holdupExhausted => Sys2Proof.Machine.execHoldupExhausted s
  | .boot => Sys2Proof.Machine.execBoot s
  | .moduleWatchdogReset src => Sys2Proof.Machine.execModuleWatchdogReset src s
  | .softwareReset v => Sys2Proof.Machine.execSoftwareReset v s
  | .standbyEntry => Sys2Proof.Machine.execStandbyEntry s
  | .standbyExit => Sys2Proof.Machine.execStandbyExit s
  | .keepSourceSwitch vkeep => Sys2Proof.Machine.execKeepSourceSwitch vkeep s
  | .rtcUpdate => Sys2Proof.Machine.execRtcUpdate s
  | .timeGateOpen => Sys2Proof.Machine.execTimeGateOpen s
  | .timeGateTimeout => Sys2Proof.Machine.execTimeGateTimeout s
  | .outputRelease => Sys2Proof.Machine.execOutputRelease s
  | .spsSwitch n enable => Sys2Proof.Machine.execSpsSwitch n enable s
  | .spsLimit n => Sys2Proof.Machine.execSpsLimit n s
  | .keepWrite w v => Sys2Proof.Machine.execKeepWrite w v s
  | .keepRead w upset => Sys2Proof.Machine.execKeepRead w upset s
  | .listControl m v => Sys2Proof.Machine.execListControl m v s
  | .countChange c v => Sys2Proof.Machine.execCountChange c v s
  | .lineClear c => Sys2Proof.Machine.execLineClear c s
  | .canReceiveError c lec dataPhase plus8 exception => Sys2Proof.Machine.execCanReceiveError c lec dataPhase plus8 exception s
  | .passctlEndSend => Sys2Proof.Machine.execPassctlEndSend s

end Sys2Proof.Machine
end

