-- ==== Sys2Proof/Safety.lean ====
section
/-! DEFINITION. What the statements are about: a command that answers a next state, an engine that is ready to issue, the
canonical forms a state keeps. -/
namespace Sys2Proof.Machine

/-- The command answers a next state, and that state has the property. -/
def Does (i : Instr) (s : State) (P : State → Prop) : Prop := ∃ t, exec i s = .next t ∧ P t

/-- The run goes on: the step neither faults nor is refused. -/
def GoesOn (s : State) : Prop := ∃ t, step s = .next t

/-- An engine runs a task, no fence holds it, pc lies in the task's code, and the clean word at pc is the instruction
(R215, R224, R236). -/
abbrev Ready (s : State) (e : Fin 8) (i : Instr) : Prop :=
  (s.eng e).busy = true ∧ (s.eng e).fence = false ∧ s.pcInRange e = true ∧
    ((s.mem (.code e)).decode ((s.eng e).ctx.pc.toNat / 8)).2 = .clean ∧
    ((s.mem (.code e)).decode ((s.eng e).ctx.pc.toNat / 8)).1.poison = false ∧
    jvDecode e (codeWord ((s.mem (.code e)).decode ((s.eng e).ctx.pc.toNat / 8)).1 (s.eng e).ctx.pc) = some i

/-- The state once no pending load writes a register of the list (R215). -/
def State.settled (s : State) (e : Fin 8) (uses : List Nat) : State := State.settle 16 e uses s
/-- The registers of the task on the engine then. -/
def State.settledCtx (s : State) (e : Fin 8) (uses : List Nat) : CtxSt := ((s.settled e uses).eng e).ctx

/-- A handler will take an exception on the engine (R242). -/
abbrev HandlerReady (s : State) (e : Fin 8) : Prop :=
  (s.task (s.eng e).task).desc.xhnd ≠ 0 ∧ (s.eng e).ctx.inHnd = false

/-- Every memory and the table of register values have their canonical form. -/
def State.canonical (s : State) : Bool :=
  tabRising 0 s.regs && s.landing.wf && s.mram.wf && s.keep.wf && s.cleMem.wf && s.axsMem.wf
    && s.code.all (fun p => p.2.wf) && s.dmem.all (fun p => p.2.wf)

/-- The Landing after a codeword is written: in the destination of a running bank copy as well (R263). -/
def State.putBoth (s : State) (w : Nat) (c : Cw) : Mem :=
  match s.mirrorOf w with
  | none => s.landing.put w c
  | some m => (s.landing.put w c).put m c

/-- Device time lies within its fields: SEC below 2^48, NS below a second, ACC and the slew's share below a nanosecond (R30,
R31, R33). -/
def State.timeInRange (s : State) : Bool :=
  decide (s.time.sec < 2 ^ 48) && decide (s.time.ns < 1000000000) && decide (s.time.acc < 2 ^ 32) && decide (s.time.share < 2 ^ 32)

end Sys2Proof.Machine
end

