-- ==== Sys2Proof/Certificates/Slice0/Obligations.lean ====
section
/-! DEFINITION. The statements for the provers: what each command does, by the rules of spec/. -/
open Sys2Proof Sys2Proof.Machine

namespace Sys2Proof.Claims
end Sys2Proof.Claims
open Sys2Proof.Claims

/-! ### The queue and time (R30 to R35) -/

/-- A step takes the command at the front of the queue and runs it on the state with the queue's rest. -/
def Sys2Proof.Claims.StepTakesFront : Prop :=
  ∀ (c : Instr) (rest : List Instr) (s : State),
    step { s with pending := c :: rest } = exec c { s with pending := rest }

/-- SNAP latches SEC, NS and HTIME and changes nothing else (R35). -/
def Sys2Proof.Claims.SnapLatchesTime : Prop :=
  ∀ s : State, s.time.ns < 1000000000 → s.time.sec < 2 ^ 48 →
    ∃ t, exec .timeSnap s = .next t ∧
      t.rd Reg.HST_TSEC_LO_SEC + t.rd Reg.HST_TSEC_HI_SEC * 2 ^ 32 = s.time.sec ∧
      t.rd Reg.HST_TNS_NS = s.time.ns ∧
      t.rd Reg.HST_HTIME_LO_HT + t.rd Reg.HST_HTIME_HI_HT * 2 ^ 32 = s.T % 2 ^ 64 ∧
      t = { s with regs := t.regs }

/-- STEP loads SEC and NS and clears ACC when no ring is enabled or running and NS is below a second; otherwise it is
refused: device time stays, and STEPREJ is set (R34). -/
def Sys2Proof.Claims.TimeStepLoadsOrIsRefused : Prop :=
  ∀ s : State,
    (s.anyRing = false → s.rd Reg.HST_TSET_NS_NS ≤ 999999999 →
      ∃ t, exec .timeStep s = .next t ∧ t.time.acc = 0 ∧ t.time.ns = s.rd Reg.HST_TSET_NS_NS ∧
        t.time.sec = (s.rd Reg.HST_TSET_SLO_SEC + s.rd Reg.HST_TSET_SHI_SEC * 2 ^ 32) % 2 ^ 48 ∧
        t.regs = s.regs ∧ t.landing = s.landing ∧ t.tly = s.tly) ∧
    (s.anyRing = true ∨ 999999999 < s.rd Reg.HST_TSET_NS_NS →
      ∃ t, exec .timeStep s = .next t ∧ t.time = s.time ∧ t.bit Reg.HST_TSTAT_STEPREJ = true)

/-- A write to HST_SLEW is the amount to absorb, counted from zero; SLEW_END is the edge at which it has gone to 0, as far
as the rate leaves room (R33). -/
def Sys2Proof.Claims.SlewWriteAndEnd : Prop :=
  (∀ (v : Word) (s : State), ∃ t, exec (.slewWrite v) s = .next t ∧ t.rd Reg.HST_SLEW_SLEW = v.toNat ∧
      t.bit Reg.HST_TSTAT_SLEWBUSY = decide (v.toNat ≠ 0) ∧ t.time.share = 0 ∧ t.T = s.T) ∧
  (∀ s : State, s.slewRate ≠ 0 → s.time.share < 2 ^ 32 →
      ∃ t, exec .slewEnd s = .next t ∧ t.rd Reg.HST_SLEW_SLEW = 0 ∧ t.bit Reg.HST_TSTAT_SLEWBUSY = false ∧
        s.time.edge ≤ t.time.edge)

/-- REFCLK without an edge for 200 ns, or more than 1,000 ppm off, is lost (R20): with AUTOFB it falls back to the TCXO, without
it event W follows; otherwise nothing happens. REFSEL requests, withdraws and completes a switch, which waits for 1 ms of a good
clock (R21, R22, R23). -/
def Sys2Proof.Claims.RefclkCommands : Prop :=
  ∀ s : State,
    (∀ (gap : Nat) (ppm : Int),
      let lost := 200 ≤ gap ∨ 1000 < ppm.natAbs
      (lost → s.bit Reg.SYS_CLKSTAT_SRC = true → s.bit Reg.SYS_CLKCTL_AUTOFB = true →
        Does (.refclkFallback gap ppm) s fun t => t.bit Reg.SYS_CLKSTAT_REFLOSS = true ∧ t.bit Reg.SYS_CLKCTL_REFSEL = false ∧
          t.bit Reg.SYS_CLKSTAT_SRC = false ∧ t.time = s.time) ∧
      (lost → s.bit Reg.SYS_CLKSTAT_SRC = true → s.bit Reg.SYS_CLKCTL_AUTOFB = false →
        Does (.refclkLossCritical gap ppm) s fun t => t.pwr.cause = 3 ∧ t.pwr.wdsrc = 2 ∧ t.pwr.booted = false) ∧
      (¬ lost → exec (.refclkFallback gap ppm) s = .next s ∧ exec (.refclkLossCritical gap ppm) s = .next s)) ∧
    (s.bit Reg.SYS_CLKSTAT_SRC = false →
      Does .refselRequest s fun t => t.bit Reg.SYS_CLKCTL_REFSEL = true ∧ t.bit Reg.SYS_CLKSTAT_SRC = false ∧
        Does .refselWithdraw t fun u => u.bit Reg.SYS_CLKCTL_REFSEL = false ∧ u.bit Reg.SYS_CLKSTAT_SRC = false) ∧
    (∀ good : Nat,
      (s.bit Reg.SYS_CLKCTL_REFSEL = true → 1000000 ≤ good → Does (.refclkSwitch good) s fun t =>
        t.bit Reg.SYS_CLKSTAT_SRC = true ∧ t.time = s.time) ∧
      (good < 1000000 → exec (.refclkSwitch good) s = .next s))

/-- SNAP, STEP, slews and the time reference: SnapLatchesTime, TimeStepLoadsOrIsRefused, SlewWriteAndEnd and
RefclkCommands, together. -/
def Obligations.DeviceTimeCommands : Prop := SnapLatchesTime ∧ TimeStepLoadsOrIsRefused ∧ SlewWriteAndEnd ∧ RefclkCommands

/-! ### Hoist rings (R36 to R49) -/

/-- Enabling a ring: with a valid configuration its first instant is the first one of the grid at least 2 µs ahead;
with an invalid one EN stays 0, CFGERR reads 1 and the ring does not start (R36, R40, R41). -/
def Sys2Proof.Claims.RingEnableFindsFirstInstant : Prop :=
  ∀ (n : Fin 8) (s : State), s.bit Reg.HST_RINGCTL_EN n = false → s.bit Reg.HST_RSTAT_RUN n = false →
    ((s.ringShadow n).valid = true →
      Does (.ringEnable n) s fun t =>
        let r := t.ring n
        t.bit Reg.HST_RINGCTL_EN n = true ∧ r.live = true ∧ r.per = s.rd Reg.HST_RPER_PER n ∧
          s.T + 2000 ≤ r.next ∧ r.next < s.T + 2000 + r.per * 125 ∧
          ((r.next : Int) - s.rd Reg.HST_RPHASE_PHASE n * 5) % (r.per * 125 : Nat) = 0 ∧
          (∀ m : Nat, m ≠ n → t.ring m = s.ring m)) ∧
    ((s.ringShadow n).valid = false →
      Does (.ringEnable n) s fun t => t.bit Reg.HST_RINGCTL_EN n = false ∧ t.bit Reg.HST_RSTAT_CFGERR n = true ∧ t.rings = s.rings)

/-- Clearing EN leaves a period in progress alone; a ring that has not fired yet has none (R42). RELOAD is taken at the end
of a period, not at once (R43). -/
def Sys2Proof.Claims.RingDisableAndReload : Prop :=
  ∀ (n : Fin 8) (s : State),
    (s.bit Reg.HST_RSTAT_RUN n = true → Does (.ringDisable n) s fun t => t.bit Reg.HST_RINGCTL_EN n = false ∧ t.rings = s.rings) ∧
    (s.bit Reg.HST_RSTAT_RUN n = false → (s.ring n).live = true →
      Does (.ringDisable n) s fun t => t.bit Reg.HST_RINGCTL_EN n = false ∧ (t.ring n).live = false) ∧
    ((s.ring n).live = true →
      Does (.ringReload n) s fun t => t.bit Reg.HST_RINGCTL_RELOAD n = true ∧ t.rings = s.rings ∧ t.time = s.time)

/-- Enabling, disabling and reloading a hoist ring: RingEnableFindsFirstInstant and RingDisableAndReload, together. -/
def Obligations.RingControlCommands : Prop := RingEnableFindsFirstInstant ∧ RingDisableAndReload

/-- An instant of a running ring: time reaches it, the number is that of the grid, the inputs sample before the pending
outputs apply, host commands of the instant follow, and waits for the instant end (R37, R38, R41, R45, R198). The first
instant after an enable samples and applies nothing (R41); one that stops the ring applies and ends what waits for the ring
(R42). A reload that is pending is taken at that instant (R40). -/
def Sys2Proof.Claims.HoistInstantOrder : Prop :=
  ∀ (n : Fin 8) (dio : BitVec 48) (asleep : BitVec 16) (s s1 : State),
    (s.ring n).live = true → ((s.ring n).begun = false ∨ (s.ring n).sDone = true) →
    -- after a reload, or a stop, what is on the ring is judged anew
    let u := if s.bit Reg.HST_RINGCTL_RELOAD n then s1.ringClients n else s1
    let applied := fun (x : State) => if (s.ring n).blank then x else x.ringApply n
    ((s.advanceTo (s.ring n).next).ringTurn n = (.go true, s1) →
      exec (.hoistInstant n dio asleep) s = .next
        (((u.cnvInstant n false asleep.toNat).hostInstant n ((s.ring n).hnum (s.ring n).next) (s.ring n).next).hoistWake n false)) ∧
    ((s.advanceTo (s.ring n).next).ringTurn n = (.stop, s1) →
      exec (.hoistInstant n dio asleep) s = .next
        (((((applied (s1.ringClients n)).cnvIdle n).listsRingStop n).hoistWake n true).athStop n)) ∧
    ((s.advanceTo (s.ring n).next).ringTurn n = (.go false, s1) →
      exec (.hoistInstant n dio asleep) s = .next
        (((((((u.cnvInstant n true asleep.toNat).fbHoist n ((s.ring n).hnum (s.ring n).next)).dioSample n dio.toNat).ringApply n).hostInstant
          n ((s.ring n).hnum (s.ring n).next) (s.ring n).next)).hoistWake n false)) ∧
    (s.bit Reg.HST_RINGCTL_RELOAD n = true → (s.advanceTo (s.ring n).next).ringTurn n = (.gap, s1) →
      exec (.reloadTake n) s = .next ((applied (s1.ringClients n)).cnvIdle n))

/-- What a ring holds once its instant has come: the period begins there, the next instant lies a period on, the number
shown is that of the instant, RUN reads 1 (R36, R37). -/
def Obligations.RingTurnBeginsPeriod : Prop :=
  ∀ (n : Fin 8) (s : State), (s.ring n).live = true → s.bit Reg.HST_RINGCTL_EN n = true →
    s.bit Reg.HST_RINGCTL_RELOAD n = false → (s.ring n).blank = false →
    ∃ t, s.ringTurn n = (.go false, t) ∧ (t.ring n).tk = (s.ring n).next ∧
      (t.ring n).next = (s.ring n).next + (s.ring n).per * 125 ∧ (t.ring n).sampled = true ∧
      (t.ring n).dDone = false ∧ (t.ring n).sDone = false ∧
      (t.rd Reg.HST_RHNUM_HNUM n : Int) = (((s.ring n).next - (s.ring n).phase * 5 : Int) / ((s.ring n).per * 125 : Nat)) % 2 ^ 32 ∧
      t.bit Reg.HST_RSTAT_RUN n = true ∧ t.landing = s.landing ∧ t.time = s.time

/-- The input deadline runs a ring's producers in the order of R49: stations and feedback, the mirror, an online change,
step lists, axes, the control-law pass, task releases; after an instant that did not sample, the stations alone; the seal follows with lateness and then the outputs. -/
def Sys2Proof.Claims.DeadlineAndSealOrder : Prop :=
  ∀ (n : Fin 8) (axes : Nat) (s : State), (s.ring n).live = true → (s.ring n).begun = true →
    ((s.ring n).dDone = false → (s.ring n).sampled = true →
      let s0 := (s.advanceTo (s.ring n).deadline).setRing n { s.ring n with dDone := true }
      exec (.inputDeadline n axes) s = .next
        ((((((((s0.netDeadline n).fbDeadline n).mirrorDeadline n).ocCheck (s.ring n).deadline).listsDeadline n).axPass n axes).passReady n).over
          allTasks fun t a => a.releaseDue n t)) ∧
    ((s.ring n).dDone = false → (s.ring n).sampled = false →
      exec (.inputDeadline n axes) s = .next
        (((s.advanceTo (s.ring n).deadline).setRing n { s.ring n with dDone := true }).netDeadline n)) ∧
    ((s.ring n).dDone = true → (s.ring n).sDone = false →
      let s0 := s.advanceTo (s.ring n).seal_
      let s1 := (s0.setRing n { s0.ring n with sDone := true }).takeSeal n
      let s2 := if n.val = 0 then s1.handoverDip else s1
      let a := s2.passSeal n
      let b := a.2.axPassSeal n
      let c := b.2.tasksSeal n
      let late := a.1 || b.1 || c.1
      let u := (if late then c.2.ringLate n else c.2).lateDip n late
      exec (.ringSeal n) s = .next ((((((u.netHeld n).dacSeal n).dioSeal n).emuSeal n).netSeal n).mirrorSeal n))

/-- What happens at an instant, its deadline and its seal, in what order: HoistInstantOrder and DeadlineAndSealOrder,
together. -/
def Obligations.HoistOrder : Prop := HoistInstantOrder ∧ DeadlineAndSealOrder

/-! ### Timed step lists (R52 to R63) -/

/-- START arms an idle list with the RING, LBASE and LAST of its registers, STOP returns it to IDLE, HOLD halts a list in
RUN (R52, R53). -/
def Sys2Proof.Claims.ListControlStates : Prop :=
  ∀ (m : Fin 256) (v : Word) (s : State),
    (v.getLsbD 31 = true → v.getLsbD 30 = true →
      Does (.listControl m v) s fun t => t.rd Reg.HST_LSTAT_STATE m = lsArmed ∧
        (t.lst m).ring = (v.toNat / 2 ^ 24) % 8 ∧ (t.lst m).last = (v.toNat / 2 ^ 12) % 2 ^ 12 ∧
        t.rd Reg.HST_LCTL_FIRST m = v.toNat % 2 ^ 12 ∧ (t.lst m).base = s.rd Reg.HST_LBASE_BASE m / 32 * 32) ∧
    (v.getLsbD 31 = false → v.getLsbD 30 = true →
      Does (.listControl m v) s fun t => t.rd Reg.HST_LSTAT_STATE m = lsIdle) ∧
    (v.getLsbD 31 = false → v.getLsbD 30 = false → v.getLsbD 29 = true → s.rd Reg.HST_LSTAT_STATE m = lsRun →
      Does (.listControl m v) s fun t => t.rd Reg.HST_LSTAT_STATE m = lsHeld) ∧
    (∀ t, exec (.listControl m v) s = .next t → t.landing = s.landing ∧ t.time = s.time ∧ t.tex = s.tex ∧
      ∀ k : Nat, k ≠ m → t.lst k = s.lst k)

/-- A list that has entered step `k`: it runs, the step it shows is `k`, counted from zero, and it holds the record of it. -/
def Sys2Proof.Claims.InStep (t : State) (m k : Nat) (recd : List Byte) : Prop :=
  t.rd Reg.HST_LSTAT_STATE m = lsRun ∧ t.rd Reg.HST_LSTAT_STEP m = k ∧ t.rd Reg.HST_LCNT_CNT m = 0 ∧ (t.lst m).step = recd

/-- The evaluation at which a TIME step advances, or a COND step times out, at the deadline of the list's ring (R54 to R57): from
a final step the list is DONE; otherwise it enters the step that the record names, whose record it reads from the Landing; a
timeout faults the list, enters the step of the timeout or advances, as TOACT says. -/
def Sys2Proof.Claims.StepEvaluations : Prop :=
  ∀ (m : Fin 256) (s : State), (s.ring (s.lst m).ring).sampled = true → (s.ring (s.lst m).ring).dDone = false →
    s.rd Reg.HST_LSTAT_STATE m = lsRun → (s.lst m).evalAt ≠ (s.ring (s.lst m).ring).tk + 1 →
    let p := parseStep (s.lst m).step
    let d := s.advanceTo (s.ring (s.lst m).ring).deadline
    -- the list counts this evaluation
    let e := (d.setLst m { d.lst m with evalAt := (d.ring (s.lst m).ring).tk + 1 }).inc Reg.HST_LCNT_CNT m
    let v := (e.lndWord hstPort p.caddr).2
    let next := fun (u : State) => if p.jmp then p.next else (u.rd Reg.HST_LSTAT_STEP m + 1) % 4096
    let recd := fun (u : State) (k : Nat) => (u.lndBytes hstPort ((s.lst m).base + 32 * k) 32).1
    let good := fun (u : State) (k : Nat) => (recd u k).2 = false ∧ (parseStep (recd u k).1).formatOk (s.lst m).last = true ∧
      (parseStep (recd u k).1).acnt = 0
    let done := fun (t : State) => t.rd Reg.HST_LSTAT_STATE m = lsDone ∧ bitAt (t.rd Reg.HST_LDONE_DONE (m / 32)) (m % 32) = true ∧
      t.time = d.time
    (p.adv = 0 → max 1 p.n ≤ s.rd Reg.HST_LCNT_CNT m + 1 →
      exec (.stepTimeAdvance m) s = .next (d.lstDeadline (s.lst m).ring m) ∧
      (p.fin = true → Does (.stepTimeAdvance m) s fun t => done t ∧ t.landing = s.landing) ∧
      (p.fin = false → good e (next e) → Does (.stepTimeAdvance m) s fun t => InStep t m (next e) (recd e (next e)).1 ∧ t.time = d.time)) ∧
    (p.adv = 1 → p.n ≠ 0 → p.n ≤ s.rd Reg.HST_LCNT_CNT m + 1 → (s.lndWord hstPort p.caddr).1.2 = false →
      p.holds (s.lndWord hstPort p.caddr).1.1 = false →
      exec (.stepTimeout m) s = .next (d.lstDeadline (s.lst m).ring m) ∧
      -- the word still reads so at the deadline
      ((e.lndWord hstPort p.caddr).1 = (s.lndWord hstPort p.caddr).1 →
      (p.toact = 0 → Does (.stepTimeout m) s fun t => t.rd Reg.HST_LSTAT_STATE m = lsFault ∧ t.rd Reg.HST_LSTAT_CAUSE m = lcTimeout ∧
        t.rd Reg.HST_LSTAT_STEP m = v.rd Reg.HST_LSTAT_STEP m ∧ bitAt (t.rd Reg.HST_LFLT_FLT (m / 32)) (m % 32) = true) ∧
      (p.toact = 1 → good v p.tostep → Does (.stepTimeout m) s fun t => InStep t m p.tostep (recd v p.tostep).1) ∧
      (2 ≤ p.toact → p.fin = true → Does (.stepTimeout m) s done) ∧
      (2 ≤ p.toact → p.fin = false → good v (next v) → Does (.stepTimeout m) s fun t => InStep t m (next v) (recd v (next v)).1)))

/-- A step list's evaluation of a TIME step: below N evaluations it stays and counts, at the N-th it advances: to DONE from
a final step (R55, R57). -/
def Sys2Proof.Claims.TimeStepCountsThenAdvances : Prop :=
  ∀ (m : Fin 256) (s : State),
    let p := parseStep (s.lst m).step
    p.adv = 0 → s.rd Reg.HST_LCNT_CNT m + 1 < 2 ^ 24 →
    (s.rd Reg.HST_LCNT_CNT m + 1 < max 1 p.n →
      (s.lstEval m).rd Reg.HST_LCNT_CNT m = s.rd Reg.HST_LCNT_CNT m + 1 ∧
        (s.lstEval m).rd Reg.HST_LSTAT_STATE m = s.rd Reg.HST_LSTAT_STATE m ∧ (s.lstEval m).landing = s.landing) ∧
    (max 1 p.n ≤ s.rd Reg.HST_LCNT_CNT m + 1 → p.fin = true →
      (s.lstEval m).rd Reg.HST_LSTAT_STATE m = lsDone ∧ bitAt ((s.lstEval m).rd Reg.HST_LDONE_DONE (m / 32)) (m % 32) = true ∧
        (s.lstEval m).landing = s.landing)

/-- Timed step lists: control, evaluation, advance: ListControlStates, StepEvaluations and TimeStepCountsThenAdvances,
together. -/
def Obligations.StepListCommands : Prop := ListControlStates ∧ StepEvaluations ∧ TimeStepCountsThenAdvances

/-- Every CLK_TB edge moves device time as R31 says: rc is RATE clamped to ±2,147,484, r adds SLEWRATE and stays within the same
limits, acc = ACC + 5 × r in units of 2^−32 ns, d = 5 + floor(acc / 2^32) is 4, 5 or 6 ns; ACC keeps the fraction, NS takes d and
wraps at a second, SEC then counts modulo 2^48. -/
def Obligations.EdgeMovesDeviceTime : Prop :=
  ∀ s : State, s.timeInRange = true →
    let rc : Int := max (-2147484) (min 2147484 (s.rdS Reg.HST_RATE_RATE))
    let r := rc + s.slewRate
    let acc := (s.time.acc : Int) + 5 * r
    let d := 5 + acc / 2 ^ 32
    let t := s.tick;
    (-2147484 ≤ r) ∧ r ≤ 2147484 ∧ 4 ≤ d ∧ d ≤ 6 ∧
      (t.time.acc : Int) = acc - acc / 2 ^ 32 * 2 ^ 32 ∧
      ((s.time.ns : Int) + d < 1000000000 → (t.time.ns : Int) = s.time.ns + d ∧ t.time.sec = s.time.sec) ∧
      (1000000000 ≤ (s.time.ns : Int) + d → (t.time.ns : Int) = s.time.ns + d - 1000000000 ∧ t.time.sec = (s.time.sec + 1) % 2 ^ 48)

/-- What an edge does beside R31: the edge count grows by one, only registers and device time change; and with no command
waiting a step is one such edge (the model's choice, log entry 2). -/
def Sys2Proof.Claims.IdleStepIsOneEdge : Prop :=
  ∀ s : State, (s.pending = [] → step s = .next s.tick) ∧ (s.time.share < 2 ^ 32 → s.tick.time.edge = s.time.edge + 1) ∧
    s.tick = { s with regs := s.tick.regs, time := s.tick.time }

/-- A step runs the front command; an empty queue lets one edge pass (log entry 2): StepTakesFront and
IdleStepIsOneEdge, together. -/
def Obligations.StepRunsFrontCommand : Prop := StepTakesFront ∧ IdleStepIsOneEdge

/-! ### JV32: integer instructions (R215, R216, R225, R226, R237) -/

/-- A two-source integer instruction with the function the spec gives its result. -/
structure Sys2Proof.Claims.AluRow where
  ins : Fin 8 → Fin 32 → Fin 32 → Fin 32 → Instr
  f : Word → Word → Word

/-- The integer instructions of R226 but the four divisions; shifts and bit numbers take rs2[4:0], the high products are
the upper halves of the 64-bit products. -/
def Sys2Proof.Claims.aluRows : List AluRow :=
  [⟨.add, fun x y => x + y⟩, ⟨.sub, fun x y => x - y⟩, ⟨.and, fun x y => x &&& y⟩, ⟨.or, fun x y => x ||| y⟩,
   ⟨.xor, fun x y => x ^^^ y⟩,
   ⟨.shl, fun x y => x <<< (y &&& 31#32)⟩, ⟨.shr, fun x y => x >>> (y &&& 31#32)⟩,
   ⟨.shra, fun x y => x.sshiftRight (y &&& 31#32).toNat⟩,
   ⟨.cmplt, fun x y => if x.toInt < y.toInt then 1#32 else 0#32⟩,
   ⟨.cmpltu, fun x y => if x.toNat < y.toNat then 1#32 else 0#32⟩,
   ⟨.mul, fun x y => x * y⟩,
   ⟨.mulhs, fun x y => (x.signExtend 64 * y.signExtend 64).extractLsb' 32 32⟩,
   ⟨.mulhu, fun x y => (x.setWidth 64 * y.setWidth 64).extractLsb' 32 32⟩,
   ⟨.min, fun x y => if x.toInt < y.toInt then x else y⟩, ⟨.max, fun x y => if x.toInt < y.toInt then y else x⟩,
   ⟨.minu, fun x y => if x.toNat < y.toNat then x else y⟩, ⟨.maxu, fun x y => if x.toNat < y.toNat then y else x⟩,
   ⟨.btst, fun x y => (x >>> (y &&& 31#32)) &&& 1#32⟩, ⟨.bset, fun x y => x ||| (1#32 <<< (y &&& 31#32))⟩,
   ⟨.bclr, fun x y => x &&& ~~~(1#32 <<< (y &&& 31#32))⟩, ⟨.bflip, fun x y => x ^^^ (1#32 <<< (y &&& 31#32))⟩]

/-- The divisions of R226, truncated toward zero, the remainder with the sign of rs1. -/
def Sys2Proof.Claims.divRows : List AluRow :=
  [⟨.quo, fun x y => BitVec.ofInt 32 (x.toInt.tdiv y.toInt)⟩, ⟨.quou, fun x y => BitVec.ofNat 32 (x.toNat / y.toNat)⟩,
   ⟨.mod, fun x y => BitVec.ofInt 32 (x.toInt.tmod y.toInt)⟩, ⟨.modu, fun x y => BitVec.ofNat 32 (x.toNat % y.toNat)⟩]

/-- Every two-source integer instruction that is ready completes: rd takes the result and the OR of the sources' tags, pc
the next word, and nothing else of the block changes; a division by a zero divisor is left out here. -/
def Sys2Proof.Claims.TwoSourceResults : Prop :=
  ∀ (e : Fin 8) (rd a b : Fin 32) (s : State),
    let c := s.settledCtx e [rd, a, b]
    (∀ r ∈ aluRows, Ready s e (r.ins e rd a b) →
      exec (r.ins e rd a b) s = .next ((s.settled e [rd, a, b]).setCtx e
        (c.step.setG rd (r.f (c.greg a) (c.greg b)) (c.tag a || c.tag b)))) ∧
    (∀ r ∈ divRows, Ready s e (r.ins e rd a b) → c.greg b ≠ 0#32 →
      exec (r.ins e rd a b) s = .next ((s.settled e [rd, a, b]).setCtx e
        (c.step.setG rd (r.f (c.greg a) (c.greg b)) (c.tag a || c.tag b))))

/-- A division by zero raises DIVZ and writes no register: EPC holds pc, ECAUSE 5, the handler runs (R226, R240, R242). A
poisoned zero divisor raises nothing and gives a poisoned result (R237). -/
def Sys2Proof.Claims.DivisionByZero : Prop :=
  ∀ (e : Fin 8) (rd a b : Fin 32) (s : State),
    let u := s.settled e [rd, a, b]
    let c := s.settledCtx e [rd, a, b]
    ∀ r ∈ divRows, Ready s e (r.ins e rd a b) → c.greg b = 0#32 →
      (c.tag b = false → HandlerReady u e →
        Does (r.ins e rd a b) s fun t => (t.eng e).ctx.epc = c.pc ∧ (t.eng e).ctx.ecause = 5#16 ∧ (t.eng e).ctx.inHnd = true ∧
          (t.eng e).ctx.pc = BitVec.ofNat 32 ((u.task (u.eng e).task).desc.xhnd * 4) ∧ (t.eng e).ctx.g = c.g ∧
          (t.eng e).ctx.tags = c.tags ∧ t.landing = u.landing) ∧
      (c.tag b = true → rd.val ≠ 0 →
        Does (r.ins e rd a b) s fun t => (t.eng e).ctx.tag rd = true ∧ (t.eng e).ctx.pc = c.pc + 4#32 ∧
          ∀ k : Nat, k ≠ rd → (t.eng e).ctx.greg k = c.greg k)

/-- The rest of R226: PTST gives 1 for a poison tag and a clean result; −2^31 by −1 gives −2^31 in QUO and 0 in MOD; a func
above 0x019 and a PTST with rs2 ≠ 0 are reserved. -/
def Sys2Proof.Claims.IntegerCorners : Prop :=
  ∀ (e : Fin 8) (rd a b : Fin 32) (s : State),
    let u := s.settled e [rd, a]
    let v := s.settled e [rd, a, b]
    let c := s.settledCtx e [rd, a, b]
    (Ready s e (.ptst e rd a) → exec (.ptst e rd a) s = .next (u.setCtx e
      ((s.settledCtx e [rd, a]).step.setG rd (if (s.settledCtx e [rd, a]).tag a then 1#32 else 0#32) false))) ∧
    (c.greg a = 0x80000000#32 → c.greg b = 0xFFFFFFFF#32 →
      (Ready s e (.quo e rd a b) →
        exec (.quo e rd a b) s = .next (v.setCtx e (c.step.setG rd 0x80000000#32 (c.tag a || c.tag b)))) ∧
      (Ready s e (.mod e rd a b) →
        exec (.mod e rd a b) s = .next (v.setCtx e (c.step.setG rd 0#32 (c.tag a || c.tag b))))) ∧
    (∀ func : Nat, func < 2 ^ 11 → 0x019 < func →
      jvDecode e (BitVec.ofNat 32 (2 ^ 26 + rd * 2 ^ 21 + a * 2 ^ 16 + b * 2 ^ 11 + func)) = none) ∧
    (b ≠ 0 → jvDecode e (BitVec.ofNat 32 (2 ^ 26 + rd * 2 ^ 21 + a * 2 ^ 16 + b * 2 ^ 11 + 0x019)) = none)

/-- Every ALU function gives the result of R226: TwoSourceResults, DivisionByZero and IntegerCorners, together.
Together they say the whole of R226. -/
def Obligations.IntegerResults : Prop := TwoSourceResults ∧ DivisionByZero ∧ IntegerCorners

/-- A one-source instruction with a constant. -/
structure Sys2Proof.Claims.ImmRow where
  ins : Fin 8 → Fin 32 → Fin 32 → BitVec 16 → Instr
  f : Word → BitVec 16 → Word

/-- The immediate forms of R225: imm is sign-extended, and zero-extended for ANDK, ORK and XORK (R224). -/
def Sys2Proof.Claims.immRows : List ImmRow :=
  [⟨.addk, fun x i => x + i.signExtend 32⟩, ⟨.andk, fun x i => x &&& i.setWidth 32⟩, ⟨.ork, fun x i => x ||| i.setWidth 32⟩,
   ⟨.xork, fun x i => x ^^^ i.setWidth 32⟩, ⟨.cmpltk, fun x i => if x.toInt < i.toInt then 1#32 else 0#32⟩,
   ⟨.cmpltuk, fun x i => if x.toNat < (i.signExtend 32).toNat then 1#32 else 0#32⟩]

/-- The immediate forms, the shifts by a constant and HIK complete with the result of R225. -/
def Obligations.ImmediateResults : Prop :=
  ∀ (e : Fin 8) (rd a : Fin 32) (imm : BitVec 16) (sh : BitVec 5) (s : State),
    let u := s.settled e [rd, a]
    let c := s.settledCtx e [rd, a]
    (∀ r ∈ immRows, Ready s e (r.ins e rd a imm) →
      exec (r.ins e rd a imm) s = .next (u.setCtx e (c.step.setG rd (r.f (c.greg a) imm) (c.tag a)))) ∧
    (Ready s e (.shkShl e rd a sh) →
      exec (.shkShl e rd a sh) s = .next (u.setCtx e (c.step.setG rd (c.greg a <<< sh.toNat) (c.tag a)))) ∧
    (Ready s e (.shkShr e rd a sh) →
      exec (.shkShr e rd a sh) s = .next (u.setCtx e (c.step.setG rd (c.greg a >>> sh.toNat) (c.tag a)))) ∧
    (Ready s e (.shkShra e rd a sh) →
      exec (.shkShra e rd a sh) s = .next (u.setCtx e (c.step.setG rd ((c.greg a).sshiftRight sh.toNat) (c.tag a)))) ∧
    (Ready s e (.hik e rd imm) →
      exec (.hik e rd imm) s = .next ((s.settled e [rd]).setCtx e
        ((s.settledCtx e [rd]).step.setG rd (imm ++ 0#16) false)))

/-- General registers (R216): g0 reads 0 and clean and discards writes; a write gives one register its value and tag and
leaves every other. -/
def Sys2Proof.Claims.RegisterFile : Prop :=
  ∀ (c : CtxSt) (r k : Fin 32) (v : Word) (tag : Bool),
    c.greg 0 = 0#32 ∧ c.tag 0 = false ∧ c.setG 0 v tag = c ∧
    (r.val ≠ 0 → (c.setG r v tag).greg r = v ∧ (c.setG r v tag).tag r = tag) ∧
    (k ≠ r → (c.setG r v tag).greg k = c.greg k ∧ (c.setG r v tag).tag k = c.tag k) ∧
    (c.setG r v tag).pc = c.pc ∧ (c.setG r v tag).fsticky = c.fsticky ∧ (c.setG r v tag).epc = c.epc

/-- What an instruction that writes a register leaves alone (the frame of R226, R227): every BAR0 register, every memory,
the tasks, the other engines, device time and the other registers of the engine. -/
def Sys2Proof.Claims.RegisterInstructionFrame : Prop :=
  ∀ (e k : Fin 8) (c : CtxSt) (s : State),
    let t := s.setCtx e c
    t = { s with tex := t.tex } ∧ t.tex = { s.tex with engines := t.tex.engines } ∧
      (t.eng e).ctx = c ∧ (t.eng e).busy = (s.eng e).busy ∧ (t.eng e).task = (s.eng e).task ∧
      (t.eng e).loads = (s.eng e).loads ∧ (k ≠ e → t.eng k = s.eng k)

/-- General registers, and what a register instruction leaves alone: RegisterFile and RegisterInstructionFrame,
together. -/
def Obligations.RegisterFileAndFrame : Prop := RegisterFile ∧ RegisterInstructionFrame

/-! ### JV32: floating point (R227, R228) -/

/-- A floating-point instruction with two sources and a rounding mode, or none. -/
structure Sys2Proof.Claims.FpRow where
  ins : Fin 8 → Fin 5 → Fin 32 → Fin 32 → Fin 32 → Instr
  /-- sources it reads -/
  src : Fin 32 → Fin 32 → List Nat
  f : Fin 5 → List Nat → FRes

/-- The instructions of R227 with the operation of R228 each performs on the codes of its sources. -/
def Sys2Proof.Claims.fpRows : List FpRow :=
  [⟨fun e rm d a b => .fadd e rm d a b, fun a b => [a, b], fun rm l => fAdd b32 (rmOf rm) (l.getD 0 0) (l.getD 1 0)⟩,
   ⟨fun e rm d a b => .fsub e rm d a b, fun a b => [a, b], fun rm l => fSub b32 (rmOf rm) (l.getD 0 0) (l.getD 1 0)⟩,
   ⟨fun e rm d a b => .fmul e rm d a b, fun a b => [a, b], fun rm l => fMul b32 (rmOf rm) (l.getD 0 0) (l.getD 1 0)⟩,
   ⟨fun e rm d a b => .fdiv e rm d a b, fun a b => [a, b], fun rm l => fDiv b32 (rmOf rm) (l.getD 0 0) (l.getD 1 0)⟩,
   ⟨fun e rm d a _ => .froot e rm d a, fun a _ => [a], fun rm l => fSqrt b32 (rmOf rm) (l.getD 0 0)⟩,
   ⟨fun e _ d a b => .flo e d a b, fun a b => [a, b], fun _ l => fMinMax b32 false (l.getD 0 0) (l.getD 1 0)⟩,
   ⟨fun e _ d a b => .fhi e d a b, fun a b => [a, b], fun _ l => fMinMax b32 true (l.getD 0 0) (l.getD 1 0)⟩,
   ⟨fun e _ d a b => .fcmpeq e d a b, fun a b => [a, b], fun _ l => (b2n (fEq b32 (l.getD 0 0) (l.getD 1 0)), { invalid := fIsSnan b32 (l.getD 0 0) || fIsSnan b32 (l.getD 1 0) })⟩,
   ⟨fun e _ d a b => .fcmplt e d a b, fun a b => [a, b], fun _ l => (b2n (fLt b32 (l.getD 0 0) (l.getD 1 0)), { invalid := fIsNan b32 (l.getD 0 0) || fIsNan b32 (l.getD 1 0) })⟩,
   ⟨fun e _ d a b => .fcmple e d a b, fun a b => [a, b], fun _ l => (b2n (fLe b32 (l.getD 0 0) (l.getD 1 0)), { invalid := fIsNan b32 (l.getD 0 0) || fIsNan b32 (l.getD 1 0) })⟩,
   ⟨fun e rm d a _ => .ftoi e rm d a, fun a _ => [a], fun rm l => ((fToInt b32 (rmOf rm) (-(2 ^ 31)) (2 ^ 31 - 1) (l.getD 0 0)).1 % 2 ^ 32 |>.toNat, (fToInt b32 (rmOf rm) (-(2 ^ 31)) (2 ^ 31 - 1) (l.getD 0 0)).2)⟩,
   ⟨fun e rm d a _ => .ftoiu e rm d a, fun a _ => [a], fun rm l => ((fToInt b32 (rmOf rm) 0 (2 ^ 32 - 1) (l.getD 0 0)).1 % 2 ^ 32 |>.toNat, (fToInt b32 (rmOf rm) 0 (2 ^ 32 - 1) (l.getD 0 0)).2)⟩,
   ⟨fun e rm d a _ => .itof e rm d a, fun a _ => [a], fun rm l => fOfInt b32 (rmOf rm) (BitVec.ofNat 32 (l.getD 0 0)).toInt⟩,
   ⟨fun e rm d a _ => .utof e rm d a, fun a _ => [a], fun rm l => fOfInt b32 (rmOf rm) (l.getD 0 0)⟩]

/-- The fused multiply-adds of R227: rs1 × rs2 ± rs3, and the negated ones, each rounded once to nearest even. -/
def Sys2Proof.Claims.fmaRows : List ((Fin 8 → Fin 32 → Fin 32 → Fin 32 → Fin 32 → Instr) × Bool × Bool) :=
  [(.fmac, false, false), (.fmsb, false, true), (.fnmac, true, true), (.fnmsb, true, false)]

/-- A register as the number of its code. -/
def Sys2Proof.Claims.regCode (c : CtxSt) (r : Nat) : Nat := (c.greg r).toNat

/-- Every FPU and FMA instruction that is ready completes: rd takes the operation's result and the OR of the tags, and its
conditions join FSTICKY unless a source is poisoned (R227, R228, R237). -/
def Obligations.FloatResults : Prop :=
  ∀ (e : Fin 8) (rm : Fin 5) (rd a b d : Fin 32) (s : State),
    (∀ r ∈ fpRows, Ready s e (r.ins e rm rd a b) →
      let u := rd.val :: r.src a b
      let c := s.settledCtx e u
      let p := (r.src a b).any c.tag
      let v := r.f rm ((r.src a b).map (regCode c))
      exec (r.ins e rm rd a b) s = .next ((s.settled e u).setCtx e
        ((if p then c else { c with fsticky := c.fsticky ||| v.2.bits }).step.setG rd (BitVec.ofNat 32 v.1) p))) ∧
    (∀ r ∈ fmaRows, Ready s e (r.1 e rd a b d) →
      let u := [rd.val, a.val, b.val, d.val]
      let c := s.settledCtx e u
      let p := c.tag a || c.tag b || c.tag d
      let v := fFma b32 .nearestEven r.2.1 r.2.2 (regCode c a) (regCode c b) (regCode c d)
      exec (r.1 e rd a b d) s = .next ((s.settled e u).setCtx e
        ((if p then c else { c with fsticky := c.fsticky ||| v.2.bits }).step.setG rd (BitVec.ofNat 32 v.1) p)))

/-- FCPYS, FNEGS, FXORS and FKIND work on the bits: the magnitude of rs1 with a sign, and the class code; FSTICKY stays
(R227). -/
def Sys2Proof.Claims.SignAndClassResults : Prop :=
  ∀ (e : Fin 8) (rd a b : Fin 32) (s : State),
    let c := s.settledCtx e [rd, a, b]
    let u := s.settled e [rd, a, b]
    let mag := c.greg a &&& 0x7FFFFFFF#32
    let sg := (c.greg b) &&& 0x80000000#32
    (Ready s e (.fcpys e rd a b) →
      exec (.fcpys e rd a b) s = .next (u.setCtx e (c.step.setG rd (mag ||| sg) (c.tag a || c.tag b)))) ∧
    (Ready s e (.fnegs e rd a b) →
      exec (.fnegs e rd a b) s = .next (u.setCtx e (c.step.setG rd (mag ||| (sg ^^^ 0x80000000#32)) (c.tag a || c.tag b)))) ∧
    (Ready s e (.fxors e rd a b) →
      exec (.fxors e rd a b) s = .next (u.setCtx e (c.step.setG rd (c.greg a ^^^ sg) (c.tag a || c.tag b)))) ∧
    (Ready s e (.fkind e rd a) →
      Does (.fkind e rd a) s fun t =>
        let x := (s.settledCtx e [rd, a]).greg a
        let y := (t.eng e).ctx.greg rd
        (t.eng e).ctx.fsticky = (s.settledCtx e [rd, a]).fsticky ∧
        (rd.val ≠ 0 →
          (x &&& 0x7FFFFFFF#32 = 0#32 → y &&& 15#32 = 0#32) ∧
          (x &&& 0x7F800000#32 = 0#32 → x &&& 0x7FFFFFFF#32 ≠ 0#32 → y &&& 15#32 = 1#32) ∧
          (x &&& 0x7F800000#32 ≠ 0#32 → x &&& 0x7F800000#32 ≠ 0x7F800000#32 → y &&& 15#32 = 2#32) ∧
          (x &&& 0x7FFFFFFF#32 = 0x7F800000#32 → y &&& 15#32 = 3#32) ∧
          (x &&& 0x7FC00000#32 = 0x7FC00000#32 → y &&& 15#32 = 4#32) ∧
          (x &&& 0x7FC00000#32 = 0x7F800000#32 → x &&& 0x007FFFFF#32 ≠ 0#32 → y &&& 15#32 = 5#32) ∧
          y >>> 4 = x >>> 31))

/-- An arithmetic operation on a NaN returns the first NaN operand with its quiet bit set; an invalid operation on
operands that are not NaN returns 0x7FC0_0000: infinity minus infinity, zero times infinity, the root of −1 (R228). -/
def Sys2Proof.Claims.NanResults : Prop :=
  (∀ (m : RMode) (x y : Nat), x < 2 ^ 32 → y < 2 ^ 32 → (fIsNan b32 x = true ∨ fIsNan b32 y = true) →
    let q := Nat.lor (if fIsNan b32 x then x else y) 0x400000
    (fAdd b32 m x y).1 = q ∧ (fSub b32 m x y).1 = q ∧ (fMul b32 m x y).1 = q ∧ (fDiv b32 m x y).1 = q ∧
      (fMinMax b32 false x y).1 = q ∧ (fMinMax b32 true x y).1 = q) ∧
  (∀ m : RMode, (fAdd b32 m 0x7F800000 0xFF800000).1 = 0x7FC00000 ∧ (fMul b32 m 0 0x7F800000).1 = 0x7FC00000 ∧
    (fSqrt b32 m 0xBF800000).1 = 0x7FC00000 ∧ (fDiv b32 m 0 0).1 = 0x7FC00000)

/-- Sign and class instructions, and the NaN results: SignAndClassResults and NanResults, together. -/
def Obligations.FloatSignClassAndNan : Prop := SignAndClassResults ∧ NanResults

/-! ### JV32: control transfers and control registers (R225, R235, R242) -/

/-- GO, CALL and GOR set pc as R225 says, CALL and GOR with the link; XRET returns from the handler to EPC (R242). -/
def Sys2Proof.Claims.JumpResults : Prop :=
  ∀ (e : Fin 8) (rd a : Fin 32) (imm : BitVec 16) (j : BitVec 26) (s : State),
    (Ready s e (.go e j) →
      let c := s.settledCtx e []
      exec (.go e j) s = .next ((s.settled e []).setCtx e { c with pc := c.pc + 4#32 + (j.signExtend 32 <<< 2) })) ∧
    (Ready s e (.call e j) →
      let c := s.settledCtx e [31]
      exec (.call e j) s = .next ((s.settled e [31]).setCtx e
        { (c.setG 31 (c.pc + 4#32) false) with pc := c.pc + 4#32 + (j.signExtend 32 <<< 2) })) ∧
    (Ready s e (.gor e rd a imm) →
      let c := s.settledCtx e [rd, a]
      c.tag a = false →
      exec (.gor e rd a imm) s = .next ((s.settled e [rd, a]).setCtx e
        { (c.setG rd (c.pc + 4#32) false) with pc := (c.greg a + imm.signExtend 32) &&& 0xFFFFFFFC#32 })) ∧
    (Ready s e (.xret e) →
      let c := s.settledCtx e []
      exec (.xret e) s = .next ((s.settled e []).setCtx e { c with pc := c.epc &&& 0xFFFFFFFC#32, inHnd := false }))

/-- The branches with their conditions (R225). -/
def Sys2Proof.Claims.branchRows : List ((Fin 8 → Fin 32 → Fin 32 → BitVec 16 → Instr) × (Word → Word → Prop)) :=
  [(.breq, fun x y => x = y), (.brne, fun x y => x ≠ y), (.brlt, fun x y => x.toInt < y.toInt), (.brge, fun x y => y.toInt ≤ x.toInt),
   (.brltu, fun x y => x.toNat < y.toNat), (.brgeu, fun x y => y.toNat ≤ x.toNat)]

/-- A branch on clean operands goes to pc + 4 + 4 × imm if its comparison holds, else to pc + 4, and writes no register
(R224, R225). -/
def Sys2Proof.Claims.BranchResults : Prop :=
  ∀ (e : Fin 8) (a b : Fin 32) (imm : BitVec 16) (s : State),
    let c := s.settledCtx e [a, b]
    ∀ r ∈ branchRows, Ready s e (r.1 e a b imm) → c.tag a = false → c.tag b = false →
      (r.2 (c.greg a) (c.greg b) → exec (r.1 e a b imm) s = .next ((s.settled e [a, b]).setCtx e
        { c with pc := c.pc + 4#32 + (imm.signExtend 32 <<< 2) })) ∧
      (¬ r.2 (c.greg a) (c.greg b) → exec (r.1 e a b imm) s = .next ((s.settled e [a, b]).setCtx e { c with pc := c.pc + 4#32 }))

/-- Jumps and branches set pc and the link: JumpResults and BranchResults, together. -/
def Obligations.ControlTransfers : Prop := JumpResults ∧ BranchResults

/-- GETC reads the control registers of R235 (those whose value the context fixes), PUTC writes FSTICKY and EPC. -/
def Obligations.ControlRegisters : Prop :=
  ∀ (e : Fin 8) (rd a : Fin 32) (s : State),
    let c := s.settledCtx e [rd]
    (∀ nv ∈ ([(0x000, BitVec.ofNat 32 (b2n c.inHnd)), (0x001, c.fsticky.setWidth 32), (0x002, c.epc), (0x003, c.ecause.setWidth 32),
        (0x004, c.eval), (0x010, BitVec.ofNat 32 (s.eng e).task), (0x011, BitVec.ofNat 32 e), (0x012, c.tt.extractLsb' 0 32),
        (0x013, c.tt.extractLsb' 32 32), (0x014, c.hnum), (0x015, c.cycle), (0x016, c.hflags), (0x017, c.hdra), (0x018, c.tkflume),
        (0x019, c.tkstamp)] : List (BitVec 16 × Word)),
      Ready s e (.getc e rd nv.1) →
        exec (.getc e rd nv.1) s = .next ((s.settled e [rd]).setCtx e (c.step.setG rd nv.2 false))) ∧
    (Ready s e (.getc e rd 0x021) → Does (.getc e rd 0x021) s fun t =>
      (rd.val ≠ 0 → (t.eng e).ctx.greg rd = BitVec.ofNat 32 s.T) ∧ (t.eng e).ctx.hthi = BitVec.ofNat 32 (s.T % 2 ^ 64 / 2 ^ 32)) ∧
    (Ready s e (.putc e 1 a) → (s.settledCtx e [a]).tag a = false →
      Does (.putc e 1 a) s fun t => (t.eng e).ctx.fsticky = ((s.settledCtx e [a]).greg a).setWidth 5) ∧
    (Ready s e (.putc e 2 a) → (s.settledCtx e [a]).tag a = false →
      Does (.putc e 2 a) s fun t => (t.eng e).ctx.epc = (s.settledCtx e [a]).greg a)

/-! ### JV32: exceptions (R224, R238 to R243) -/

/-- With a handler and outside it, an exception saves pc in EPC, sets ECAUSE and INHND and goes to the handler: TRAP, a
reserved encoding, a poisoned address base, branch operand, GOR target or PUTC source (R224, R230, R238, R240, R242). -/
def Sys2Proof.Claims.ExceptionEntry : Prop :=
  ∀ (e : Fin 8) (a b rd : Fin 32) (imm : BitVec 16) (code : BitVec 15) (i : Instr) (s : State),
    let Enters := fun (i : Instr) (u : State) (cause : BitVec 16) => Does i s fun t =>
      (t.eng e).ctx.epc = (u.eng e).ctx.pc ∧ (t.eng e).ctx.ecause = cause ∧ (t.eng e).ctx.inHnd = true ∧
        (t.eng e).ctx.pc = BitVec.ofNat 32 ((u.task (u.eng e).task).desc.xhnd * 4) ∧
        (∀ k, (t.eng e).ctx.greg k = (u.eng e).ctx.greg k) ∧ t.landing = u.landing ∧ t.regs = u.regs
    let u0 := s.settled e []
    let u2 := s.settled e [rd, a]
    let u3 := s.settled e [a, b]
    let u4 := s.settled e [a]
    (Ready s e (.trap e code) → HandlerReady u0 e →
      Enters (.trap e code) u0 9#16 ∧ Does (.trap e code) s fun t => (t.eng e).ctx.eval = code.setWidth 32) ∧
    ((s.eng e).busy = true → (s.eng e).fence = false → s.pcInRange e = true →
      ((s.mem (.code e)).decode ((s.eng e).ctx.pc.toNat / 8)).2 = .clean →
      ((s.mem (.code e)).decode ((s.eng e).ctx.pc.toNat / 8)).1.poison = false →
      jvDecode e (codeWord ((s.mem (.code e)).decode ((s.eng e).ctx.pc.toNat / 8)).1 (s.eng e).ctx.pc) = none →
      HandlerReady s e → i ∈ [Instr.add e rd a b, Instr.cend e, Instr.ldw e rd a imm] →
      Enters i s 1#16) ∧
    (Ready s e (.ldw e rd a imm) → (u2.eng e).ctx.tag a = true → HandlerReady u2 e → Enters (.ldw e rd a imm) u2 0x0104#16) ∧
    (Ready s e (.breq e a b imm) → (u3.eng e).ctx.tag a = true → HandlerReady u3 e → Enters (.breq e a b imm) u3 0x0204#16) ∧
    (Ready s e (.gor e rd a imm) → (u2.eng e).ctx.tag a = true → HandlerReady u2 e → Enters (.gor e rd a imm) u2 0x0304#16) ∧
    (Ready s e (.putc e 1 a) → (u4.eng e).ctx.tag a = true → HandlerReady u4 e → Enters (.putc e 1 a) u4 0x0404#16)

/-- Without a handler, or in it, an exception abandons the cycle: the engine is free again, the registers of the engine
show code, role, pc and task, ABANDON counts, and the task does not publish (R243). -/
def Sys2Proof.Claims.UnhandledExceptionAbandons : Prop :=
  ∀ (e : Fin 8) (code : BitVec 15) (s : State), Ready s e (.trap e code) → (s.settled e []).role ≠ roleActive →
    s.bit Reg.TEX_XCTL_STOPX = false → s.tex.items = [] → s.tex.ck = none → s.bit Reg.TEX_DCTL_DET = true →
    (s.eng e).task < 256 → s.rd Reg.TEX_XCNT_ABANDON (s.eng e).task < 2 ^ 16 - 1 → s.bit Reg.TLY_TRCFG_EN = false →
    ¬ HandlerReady (s.settled e []) e →
    Does (.trap e code) s fun t => (t.eng e).busy = false ∧ t.rd Reg.TEX_XSTAT_CODE e = 9 ∧
      t.rd Reg.TEX_XSTAT_TASK e = (s.eng e).task ∧ t.rd Reg.TEX_XVAL_VAL e = code.toNat ∧
      t.rd Reg.TEX_XCNT_ABANDON (s.eng e).task = s.rd Reg.TEX_XCNT_ABANDON (s.eng e).task + 1 ∧
      t.landing = s.landing ∧ (t.task (s.eng e).task).isOpen = false

/-- Taking an exception, with a handler and without one: ExceptionEntry and UnhandledExceptionAbandons, together. -/
def Obligations.ExceptionEntryAndAbandon : Prop := ExceptionEntry ∧ UnhandledExceptionAbandons

/-! ### JV32: encodings (R224 to R230) -/

/-- Decode and encode agree: the word of an instruction decodes to that instruction on its engine, every operand at every
value its fields admit (R224). -/
def Obligations.EncodingRoundTrip : Prop :=
  ∀ (i : Instr) (w : Word), jvEncode i = some w → ∃ e, jvDecode e w = some i

/-- Every word that is not reserved spells one instruction, whose word it is: no two words share an instruction. -/
def Obligations.EveryWordHasOneInstruction : Prop :=
  ∀ (e : Fin 8) (w : Word) (i : Instr), jvDecode e w = some i → jvEncode i = some w

/-- Words written out from R224 to R230: ADD g1, g2, g3; ADDK g5, g0, −1; LDP g2, 8(g4); FADD toward zero; TRAP 5; a word of
zeros, ALU func 0x01A and FPU rm 5 are reserved. -/
def Obligations.WordsFromTheTables : Prop :=
  jvDecode 0 0b000001_00001_00010_00011_00000000000#32 = some (.add 0 1 2 3) ∧
  jvDecode 1 0b000100_00101_00000_1111111111111111#32 = some (.addk 1 5 0 0xFFFF#16) ∧
  jvDecode 2 0b110101_00010_00100_0000000000001000#32 = some (.ldp 2 2 4 8#16) ∧
  jvDecode 3 0b000010_00001_00010_00011_010_00_000000#32 = some (.fadd 3 2 1 2 3) ∧
  jvDecode 4 0b101100_00000_00000_00101_00000001111#32 = some (.trap 4 5#15) ∧
  jvDecode 5 0b000011_00001_00010_00011_00100_000010#32 = some (.fnmac 5 1 2 3 4) ∧
  jvDecode 6 0b011000_00001_00010_1111111111111110#32 = some (.breq 6 1 2 0xFFFE#16) ∧
  jvDecode 7 0b010000_00000000000000000000000011#32 = some (.go 7 3#26) ∧
  jvDecode 0 0#32 = none ∧ jvDecode 0 0b000001_00001_00010_00011_00000011010#32 = none ∧
  jvDecode 0 0b000010_00001_00010_00011_101_00_000000#32 = none

/-! ### JV32: loads, stores and atomics (R215, R218, R225, R229, R237, R239) -/

/-- The loads of R225 below a pair: bytes read, and whether the value is sign-extended. -/
def Sys2Proof.Claims.loadRows : List ((Fin 8 → Fin 32 → Fin 32 → BitVec 16 → Instr) × Nat × Bool) :=
  [(.ldb, 1, true), (.ldbu, 1, false), (.ldh, 2, true), (.ldhu, 2, false), (.ldw, 4, false)]

/-- `n` bytes of a codeword from byte `k` up as a register value. -/
def Sys2Proof.Claims.regValue (d : DWord) (k n : Nat) (sg : Bool) : Word :=
  let v := d.toNat / 2 ^ (8 * k) % 2 ^ (8 * n)
  if sg = true ∧ 2 ^ (8 * n - 1) ≤ v then BitVec.ofNat 32 (v + 2 ^ 32 - 2 ^ (8 * n)) else BitVec.ofNat 32 v

/-- An aligned load from data memory delivers the bytes at its address, sign-extended for LDB and LDH, with the codeword's
poison as tag; LDP the whole codeword into an even pair (R218, R225, R237). -/
def Sys2Proof.Claims.DataMemoryLoads : Prop :=
  ∀ (e : Fin 8) (rd a : Fin 32) (imm : BitVec 16) (s : State),
    (∀ r ∈ loadRows,
      let u := s.settled e [rd, a]
      let c := s.settledCtx e [rd, a]
      let ea := c.greg a + imm.signExtend 32
      let w := (u.mem (.data e)).decode ((ea.toNat - 0x10000000) / 8)
      Ready s e (r.1 e rd a imm) → c.tag a = false → 0x10000000 ≤ ea.toNat → ea.toNat < 0x10020000 → ea.toNat % r.2.1 = 0 →
      w.2 = .clean →
      exec (r.1 e rd a imm) s = .next (u.setCtx e
        (c.step.setG rd (regValue w.1.data (ea.toNat % 8) r.2.1 r.2.2) w.1.poison))) ∧
    (let u := s.settled e [rd.val, a.val, rd.val + 1]
      let c := s.settledCtx e [rd.val, a.val, rd.val + 1]
      let ea := c.greg a + imm.signExtend 32
      let w := (u.mem (.data e)).decode ((ea.toNat - 0x10000000) / 8)
      Ready s e (.ldp e rd a imm) → c.tag a = false → rd.val % 2 = 0 → 0x10000000 ≤ ea.toNat → ea.toNat < 0x10020000 →
      ea.toNat % 8 = 0 → w.2 = .clean →
      exec (.ldp e rd a imm) s = .next (u.setCtx e
        ((c.step.setG rd (w.1.data.setWidth 32) w.1.poison).setG (rd.val + 1) (w.1.data.extractLsb' 32 32) w.1.poison)))

/-- An aligned, permitted Landing load becomes outstanding with the bytes at its address, after the requests of its port to the
codeword that still wait, and the instruction after it may issue; LOAD_RETURN writes the oldest outstanding load's register (R24,
R27, R215, R218, R219). -/
def Sys2Proof.Claims.LandingLoadsAndReturn : Prop :=
  (∀ (e : Fin 8) (rd a : Fin 32) (imm : BitVec 16) (s : State), ∀ r ∈ loadRows,
    let u := s.settled e [rd, a]
    let c := s.settledCtx e [rd, a]
    let ea := c.greg a + imm.signExtend 32
    let off := ea.toNat - 0x80000000
    let v := u.inOrder (engPort e) (off / 8 * 8)
    let w := v.landing.decode (v.lndCw off)
    Ready s e (r.1 e rd a imm) → c.tag a = false → 0x80000000 ≤ ea.toNat → ea.toNat < 0x83000000 → ea.toNat % r.2.1 = 0 →
    u.permitted e off true false = true → u.retEntry off = none → w.2 = .clean →
    (v.eng e).loads.length + (v.lnd.waiting.filter fun x => x.ofEngine e).length < 16 →
    Does (r.1 e rd a imm) s fun t => ∃ l : LoadSt,
      (t.eng e).loads = (v.eng e).loads ++ [l] ∧ l.rd = rd ∧ l.pair = false ∧ l.tag = w.1.poison ∧
        l.data.setWidth 32 = regValue w.1.data (off % 8) r.2.1 r.2.2 ∧ (t.eng e).ctx = c.step ∧ t.landing = v.landing ∧ t.regs = v.regs) ∧
  (∀ (e : Fin 8) (s : State) (l : LoadSt) (q : List LoadSt), (s.eng e).loads = l :: q → l.pair = false → l.rd < 32 →
    Does (.loadReturn e) s fun t => (t.eng e).loads = q ∧ (t.eng e).ctx.pc = (s.eng e).ctx.pc ∧
      (l.rd ≠ 0 → (t.eng e).ctx.greg l.rd = l.data.setWidth 32 ∧ (t.eng e).ctx.tag l.rd = l.tag) ∧
      ∀ k, k ≠ l.rd → (t.eng e).ctx.greg k = (s.eng e).ctx.greg k)

/-- The stores of R225 below a pair, with the bytes each writes. -/
def Sys2Proof.Claims.storeRows : List ((Fin 8 → Fin 32 → Fin 32 → BitVec 16 → Instr) × Nat) := [(.stb, 1), (.sth, 2), (.stw, 4)]

/-- No cell of the codeword is in error. -/
def Sys2Proof.Claims.Intact (m : Mem) (w : Nat) : Prop := tabAt 0#80 m.flips w = 0#80

/-- A memory after a store of the low `n` bytes of `v` at byte address `a`: those bytes, and no others, change. -/
def Sys2Proof.Claims.Stored (m m' : Mem) (a n v : Nat) : Prop :=
  ∀ x : Nat, m'.byte x = if a ≤ x ∧ x < a + n then BitVec.ofNat 8 (v / 256 ^ (x - a)) else m.byte x

/-- An aligned store to data memory writes its bytes and no others, and marks the codeword poisoned if its data is; a
narrower clean store leaves poison, STP replaces it (R225, R239). No other memory and no register changes. -/
def Sys2Proof.Claims.DataMemoryStores : Prop :=
  ∀ (e : Fin 8) (b a : Fin 32) (imm : BitVec 16) (s : State),
    (∀ r ∈ storeRows,
      let u := s.settled e [b, a]
      let c := s.settledCtx e [b, a]
      let ea := c.greg a + imm.signExtend 32
      let off := ea.toNat - 0x10000000
      Ready s e (r.1 e b a imm) → c.tag a = false → 0x10000000 ≤ ea.toNat → ea.toNat < 0x10020000 → ea.toNat % r.2 = 0 →
      Intact (u.mem (.data e)) (off / 8) →
      Does (r.1 e b a imm) s fun t => Stored (u.mem (.data e)) (t.mem (.data e)) off r.2 (c.greg b).toNat ∧
        (t.mem (.data e)).poison.contains (off / 8) = ((u.mem (.data e)).poison.contains (off / 8) || c.tag b) ∧
        (t.eng e).ctx = c.step ∧ t.landing = u.landing ∧ ∀ k : Fin 8, k ≠ e → t.mem (.data k) = u.mem (.data k)) ∧
    (let u := s.settled e [b.val, a.val, b.val + 1]
      let c := s.settledCtx e [b.val, a.val, b.val + 1]
      let ea := c.greg a + imm.signExtend 32
      let off := ea.toNat - 0x10000000
      Ready s e (.stp e b a imm) → c.tag a = false → b.val % 2 = 0 → 0x10000000 ≤ ea.toNat → ea.toNat < 0x10020000 →
      ea.toNat % 8 = 0 →
      Does (.stp e b a imm) s fun t =>
        Stored (u.mem (.data e)) (t.mem (.data e)) off 8 ((c.greg b).toNat + (c.greg (b.val + 1)).toNat * 2 ^ 32) ∧
        (t.mem (.data e)).poison.contains (off / 8) = (c.tag b || c.tag (b.val + 1)) ∧ (t.eng e).ctx = c.step ∧
        t.landing = u.landing ∧ t.regs = u.regs)

/-- Loads and stores of an engine own data memory: DataMemoryLoads and DataMemoryStores, together. -/
def Obligations.DataMemoryAccesses : Prop := DataMemoryLoads ∧ DataMemoryStores

/-- What a store of the low `n` bytes of `x` leaves in the Landing, in the codeword `w` from byte `k` up: those bytes and no others
change, poison stays or comes with the data `p`; while the bank is copied its copy holds the codeword too (R254, R263). -/
def Sys2Proof.Claims.LandingTakes (v t : State) (w k n x : Nat) (p : Bool) : Prop :=
  t.landing.poison.contains w = (v.landing.poison.contains w || p) ∧
  (v.mirrorOf w = none → Stored v.landing t.landing (w * 8 + k) n x) ∧
  ∀ m, v.mirrorOf w = some m → t.landing.decode m = t.landing.decode w ∧
    ∀ y, w * 8 ≤ y → y < w * 8 + 8 →
      t.landing.byte y = if w * 8 + k ≤ y ∧ y < w * 8 + k + n then BitVec.ofNat 8 (x / 256 ^ (y - (w * 8 + k))) else v.landing.byte y

/-- An aligned, permitted store to the Landing writes its bytes at the address the bank map gives, and no others, after the requests
of its port to the codeword that still wait (R27, R218, R219, R249). -/
def Sys2Proof.Claims.LandingStores : Prop :=
  ∀ (e : Fin 8) (b a : Fin 32) (imm : BitVec 16) (s : State), ∀ r ∈ storeRows,
    let u := s.settled e [b, a]
    let c := s.settledCtx e [b, a]
    let ea := c.greg a + imm.signExtend 32
    let off := ea.toNat - 0x80000000
    let v := u.inOrder (engPort e) (off / 8 * 8)
    Ready s e (r.1 e b a imm) → c.tag a = false → 0x80000000 ≤ ea.toNat → ea.toNat < 0x83000000 → ea.toNat % r.2 = 0 →
    u.permitted e off false true = true → u.retEntry off = none → Intact v.landing (v.lndCw off) →
    Does (r.1 e b a imm) s fun t =>
      LandingTakes v t (v.lndCw off) (off % 8) r.2 (c.greg b).toNat (c.tag b) ∧
      (t.eng e).ctx = c.step ∧ t.dmem = u.dmem ∧ t.mram = u.mram

/-- The atomics of R229 but ATCAS, with the new word from the old one and rs2. -/
def Sys2Proof.Claims.atomicRows : List ((Fin 8 → Fin 32 → Fin 32 → Fin 32 → Instr) × (Word → Word → Word)) :=
  [(.atswap, fun _ y => y), (.atadd, fun x y => x + y), (.atand, fun x y => x &&& y), (.ator, fun x y => x ||| y),
   (.atxor, fun x y => x ^^^ y), (.atmin, fun x y => if x.toInt < y.toInt then x else y),
   (.atmax, fun x y => if x.toInt < y.toInt then y else x), (.atminu, fun x y => if x.toNat < y.toNat then x else y),
   (.atmaxu, fun x y => if x.toNat < y.toNat then y else x)]

/-- A permitted atomic on an aligned Landing word: rd takes the old word, tagged by the poison of the old word and of rs2, and the
word takes the new one, as one read-modify-write; ATCAS writes only if the old word equals rd (R28, R229, R237). -/
def Sys2Proof.Claims.AtomicEffects : Prop :=
  ∀ (e : Fin 8) (rd a b : Fin 32) (s : State),
    let u := (s.settled e [rd, a, b]).fenced e
    let c := (u.eng e).ctx
    let off := (c.greg a).toNat - 0x80000000
    let v := u.inOrder (engPort e) off
    let w := v.landing.decode (v.lndCw off)
    let old : Word := BitVec.ofNat 32 (w.1.data.toNat / 2 ^ (8 * (off % 8)))
    let Takes := fun (t : State) (x : Word) => LandingTakes v t (v.lndCw off) (off % 8) 4 x.toNat (c.tag b)
    c.tag a = false → 0x80000000 ≤ (c.greg a).toNat → (c.greg a).toNat < 0x83000000 → (c.greg a).toNat % 4 = 0 →
    u.permitted e off true true = true → u.retEntry off = none → Intact v.landing (v.lndCw off) →
    (∀ r ∈ atomicRows, Ready s e (r.1 e rd a b) →
      Does (r.1 e rd a b) s fun t => (t.eng e).ctx = c.step.setG rd old (w.1.poison || c.tag b) ∧
        Takes t (r.2 old (c.greg b)) ∧ t.dmem = u.dmem) ∧
    (Ready s e (.atcas e rd a b) → c.tag rd = false → w.1.poison = false →
      Does (.atcas e rd a b) s fun t => (t.eng e).ctx = c.step.setG rd old (c.tag b) ∧
        (old = c.greg rd → Takes t (c.greg b)) ∧
        (old ≠ c.greg rd → t.landing = v.landing))

/-- The rest of R229: an atomic on an address outside the Landing window raises MPROT before anything changes, and a func above
0x009 is reserved. -/
def Sys2Proof.Claims.AtomicRefusals : Prop :=
  ∀ (e : Fin 8) (rd a b : Fin 32) (i : Instr) (s : State),
    let u := (s.settled e [rd, a, b]).fenced e
    let c := (u.eng e).ctx
    (i = .atcas e rd a b ∨ (∃ r ∈ atomicRows, i = r.1 e rd a b) → Ready s e i → HandlerReady u e → c.tag a = false →
      (c.greg a).toNat % 4 = 0 → ((c.greg a).toNat < 0x80000000 ∨ 0x83000000 ≤ (c.greg a).toNat) →
      Does i s fun t => (t.eng e).ctx = { c with epc := c.pc, ecause := 3#16, eval := c.greg a, inHnd := true
                                                 pc := BitVec.ofNat 32 ((u.task (u.eng e).task).desc.xhnd * 4) } ∧
        t.landing = u.landing ∧ t.dmem = u.dmem ∧ t.regs = u.regs) ∧
    (∀ func : Nat, func < 2 ^ 11 → 0x009 < func →
      jvDecode e (BitVec.ofNat 32 (0x20 * 2 ^ 26 + rd * 2 ^ 21 + a * 2 ^ 16 + b * 2 ^ 11 + func)) = none)

/-- Every AT function acts on a Landing word as R229 says: AtomicEffects and AtomicRefusals, together. Together they
say the whole of R229. -/
def Obligations.AtomicResults : Prop := AtomicEffects ∧ AtomicRefusals

/-- An access that no protection region permits, or outside the windows, raises MPROT, a misaligned one MISALIGN, before
anything changes (R218, R219, R225, R240). -/
def Sys2Proof.Claims.RefusedAccesses : Prop :=
  ∀ (e : Fin 8) (b a : Fin 32) (imm : BitVec 16) (s : State),
    let u := s.settled e [b, a]
    let c := s.settledCtx e [b, a]
    let ea := c.greg a + imm.signExtend 32
    Ready s e (.stw e b a imm) → HandlerReady u e → c.tag a = false →
    let Raises := fun (cause : BitVec 16) => Does (.stw e b a imm) s fun t =>
      (t.eng e).ctx = { c with epc := c.pc, ecause := cause, eval := ea, inHnd := true
                               pc := BitVec.ofNat 32 ((u.task (u.eng e).task).desc.xhnd * 4) } ∧
      t.landing = u.landing ∧ t.dmem = u.dmem ∧ t.regs = u.regs
    (ea.toNat % 4 ≠ 0 → Raises 2#16) ∧
    (ea.toNat % 4 = 0 → ea.toNat < 0x40000 → Raises 3#16) ∧
    (ea.toNat % 4 = 0 → 0x83000000 ≤ ea.toNat → Raises 3#16) ∧
    (ea.toNat % 4 = 0 → 0x80000000 ≤ ea.toNat → ea.toNat < 0x83000000 →
      u.permitted e (ea.toNat - 0x80000000) false true = false → Raises 3#16)

/-- Loads and stores of the Landing, and refused accesses: LandingLoadsAndReturn, LandingStores and RefusedAccesses,
together. -/
def Obligations.LandingAccesses : Prop := LandingLoadsAndReturn ∧ LandingStores ∧ RefusedAccesses

/-! ### JV32: task and system operations (R204, R220, R230 to R236) -/

/-- FGET, RGET, FENCE and its release; FSET and FCLR on a task that does not wait, in normal mode (R194, R220, R230, R232). -/
def Obligations.FlagAndFenceOperations : Prop :=
  ∀ (e : Fin 8) (rd a b : Fin 32) (s : State),
    (Ready s e (.fget e rd) → exec (.fget e rd) s = .next ((s.settled e [rd]).setCtx e
      ((s.settledCtx e [rd]).step.setG rd (BitVec.ofNat 32 (s.rd Reg.TEX_EFLAG_F (s.eng e).task)) false))) ∧
    (Ready s e (.rget e rd) → exec (.rget e rd) s = .next ((s.settled e [rd]).setCtx e
      ((s.settledCtx e [rd]).step.setG rd (BitVec.ofNat 32 (s.rd Reg.TEX_DREL_R (s.eng e).task)) false))) ∧
    (Ready s e (.fence e) → (s.eng e).loads = [] → (s.lnd.waiting.any fun x => x.ofEngine e) = false →
      exec (.fence e) s = .next (s.setCtx e (s.eng e).ctx.step)) ∧
    (Ready s e (.fence e) → (s.eng e).loads ≠ [] ∨ (s.lnd.waiting.any fun x => x.ofEngine e) = true → Does (.fence e) s fun t => (t.eng e).fence = true ∧ (t.eng e).ctx = (s.eng e).ctx) ∧
    ((s.eng e).fence = true → (s.eng e).loads.length ≤ 16 →
      Does (.fenceRelease e) s fun t => (t.eng e).fence = false ∧ (t.eng e).loads = [] ∧
        (t.lnd.waiting.any fun x => x.ofEngine e) = false ∧ (t.eng e).ctx.pc = (s.eng e).ctx.pc + 4#32) ∧
    (let u := (s.settled e []).fenced e
      let c := (u.eng e).ctx
      let k := (c.greg a).toNat % 256
      c.tag a = false → c.tag b = false → u.bit Reg.TEX_DCTL_DET = false → (u.task k).wait = none →
      (Ready s e (.fset e a b) → Does (.fset e a b) s fun t =>
        BitVec.ofNat 32 (t.rd Reg.TEX_EFLAG_F k) = BitVec.ofNat 32 (u.rd Reg.TEX_EFLAG_F k) ||| c.greg b ∧ (t.eng e).ctx = c.step ∧
          t.landing = u.landing) ∧
      (Ready s e (.fclr e a b) → Does (.fclr e a b) s fun t =>
        BitVec.ofNat 32 (t.rd Reg.TEX_EFLAG_F k) = BitVec.ofNat 32 (u.rd Reg.TEX_EFLAG_F k) &&& ~~~c.greg b ∧ (t.eng e).ctx = c.step ∧
          t.landing = u.landing))

/-- WAITF whose condition holds ends at once and delivers the flags it masks; otherwise the task waits and its engine is
free. DELAY and HWAIT put the task into DELAY; HWAIT on a ring that does not run gives 1 (R195, R198, R199, R231). -/
def Sys2Proof.Claims.WaitEffects : Prop :=
  ∀ (e : Fin 8) (rd a b : Fin 32) (s : State),
    let u := (s.settled e []).fenced e
    let c := (u.eng e).ctx
    let k := (s.eng e).task
    let f := u.rd Reg.TEX_EFLAG_F k
    let n := (c.greg a).toNat % 8
    u.bit Reg.TEX_DCTL_DET = false → c.tag a = false → c.tag b = false → k < 256 →
    (Ready s e (.waitf e rd a b) → (c.greg b).getLsbD 31 = false → (c.greg b).getLsbD 30 = true →
      f &&& (c.greg a).toNat ≠ 0 →
      Does (.waitf e rd a b) s fun t => (t.eng e).busy = true ∧ t.rd Reg.TEX_DREL_R k = f &&& (c.greg a).toNat ∧
        (rd.val ≠ 0 → ((t.eng e).ctx.greg rd).toNat = f &&& (c.greg a).toNat) ∧
        t.rd Reg.TEX_EFLAG_F k &&& (c.greg a).toNat = 0) ∧
    (u.ctxSavable k = true → u.tex.items = [] →
      (Ready s e (.waitf e rd a b) → (c.greg b).getLsbD 31 = false → f &&& (c.greg a).toNat = 0 →
        Does (.waitf e rd a b) s fun t => t.rd Reg.TEX_DSTATE_STATE k = 2 ∧ (t.eng e).busy = false) ∧
      (Ready s e (.delay e a) → (c.greg a).toNat % 2 ^ 24 ≠ 0 →
        Does (.delay e a) s fun t => t.rd Reg.TEX_DSTATE_STATE k = 3 ∧ (t.eng e).busy = false ∧
          (t.task k).delayDue = some (s.T / 1000 + (c.greg a).toNat % 2 ^ 24)) ∧
      (Ready s e (.hwait e rd a b) → u.bit Reg.HST_RSTAT_RUN n = true →
        0 < ((c.greg b - BitVec.ofNat 32 (u.rd Reg.HST_RHNUM_HNUM n))).toInt →
        Does (.hwait e rd a b) s fun t => t.rd Reg.TEX_DSTATE_STATE k = 3 ∧ (t.eng e).busy = false)) ∧
    (Ready s e (.hwait e rd a b) → u.bit Reg.HST_RSTAT_RUN n = false →
      Does (.hwait e rd a b) s fun t => (t.eng e).ctx = c.step.setG rd 1#32 false ∧ (t.eng e).busy = true) ∧
    (Ready s e (.hwait e rd a b) → u.bit Reg.HST_RSTAT_RUN n = true →
      ((c.greg b - BitVec.ofNat 32 (u.rd Reg.HST_RHNUM_HNUM n))).toInt ≤ 0 →
      Does (.hwait e rd a b) s fun t => (t.eng e).ctx = c.step.setG rd 0#32 false ∧ (t.eng e).busy = true)

/-- In deterministic mode WAITF, DELAY and HWAIT raise DETWAIT whatever their operands (R212, R231). -/
def Sys2Proof.Claims.DeterministicWaitsRaiseDetwait : Prop :=
  ∀ (e : Fin 8) (rd a b : Fin 32) (i : Instr) (s : State),
    let u := (s.settled e []).fenced e
    i ∈ [Instr.waitf e rd a b, .delay e a, .hwait e rd a b] → Ready s e i → u.bit Reg.TEX_DCTL_DET = true → HandlerReady u e →
    Does i s fun t => (t.eng e).ctx.ecause = 6#16 ∧ (t.eng e).ctx.epc = (s.eng e).ctx.pc ∧ (t.eng e).ctx.inHnd = true ∧ (t.eng e).busy = true

/-- WAITF, DELAY and HWAIT in both modes: WaitEffects and DeterministicWaitsRaiseDetwait, together. -/
def Obligations.WaitOperations : Prop := WaitEffects ∧ DeterministicWaitsRaiseDetwait

/-- In deterministic mode POST answers 4, tagged by the ARG pair it read, and leaves acceptance to the boundary; in normal
mode it answers 0 with the item queued, or 1, counted, where the flume is off. TAKE gives the item of the task's slot with
its flume, and an empty pair to a task that is no member. DONE ends service of the item taken, in normal mode at once. CEND
of a cyclic task before its publish instant frees the engine; of another it publishes and ends the dispatch (R164, R204,
R211, R233, R236, R237). -/
def Obligations.WorkItemOperationsAndCycleEnd : Prop :=
  ∀ (e : Fin 8) (rd a b : Fin 32) (s : State),
    let u := (s.settled e []).fenced e
    let c := (u.eng e).ctx
    let k := (s.eng e).task
    (Ready s e (.post e rd a b) → b.val % 2 = 0 → c.tag a = false → u.bit Reg.TEX_DCTL_DET = true →
      Does (.post e rd a b) s fun t => (t.eng e).ctx = c.step.setG rd 4#32 (c.tag b || c.tag (b.val + 1)) ∧
        t.tex.held.length = s.tex.held.length + 1 ∧ t.tex.items = s.tex.items) ∧
    (Ready s e (.post e rd a b) → b.val % 2 = 0 → c.tag a = false → u.bit Reg.TEX_DCTL_DET = false →
      let f := (c.greg a).toNat % 4096
      let g := (u.flumeCfg f).1
      (g.en = true → (g.maxq = 0 ∨ (u.flumeItems f).length < g.maxq) → u.tex.items.length < 16384 →
        Does (.post e rd a b) s fun t => (t.eng e).ctx = c.step.setG rd 0#32 (c.tag b || c.tag (b.val + 1)) ∧
          t.tex.items.length = u.tex.items.length + 1 ∧ ∃ x ∈ t.tex.items, x.flume = f ∧ x.place = .queued) ∧
      (g.en = false → Does (.post e rd a b) s fun t => (t.eng e).ctx = c.step.setG rd 1#32 (c.tag b || c.tag (b.val + 1)) ∧
        t.tex.items = u.tex.items ∧ t.rd Reg.TEX_DCNT_POSTREJ = satAdd Reg.TEX_DCNT_POSTREJ.w (u.rd Reg.TEX_DCNT_POSTREJ) 1)) ∧
    (Ready s e (.take e rd) → rd.val % 2 = 0 → s.bit Reg.TEX_DCFG_GEN k = false →
      Does (.take e rd) s fun t => (t.eng e).ctx.tkflume.getLsbD 31 = true ∧ t.tex.items = s.tex.items ∧
        (rd.val ≠ 0 → (t.eng e).ctx.greg rd = 0#32 ∧ (t.eng e).ctx.tag rd = false) ∧ (t.eng e).ctx.greg (rd.val + 1) = 0#32) ∧
    (∀ i : Item, Ready s e (.take e rd) → rd.val % 2 = 0 → s.bit Reg.TEX_DCFG_GEN k = true →
      s.tex.items.filter (fun x => x.place == .slot k) = [i] → i.flume < 2 ^ 32 →
      Does (.take e rd) s fun t => (t.eng e).ctx.tkflume = BitVec.ofNat 32 i.flume ∧ (t.eng e).ctx.tkstamp = BitVec.ofNat 32 i.stamp ∧
        t.tex.items = s.tex.items.map fun x => if x.cell = i.cell then { x with place := .taken k } else x) ∧
    (∀ i : Item, Ready s e (.done e a) → c.tag a = false → u.bit Reg.TEX_DCTL_DET = true →
      s.tex.items.filter (fun x => x.flume == (c.greg a).toNat % 4096) = [i] → i.place = .taken k →
      Does (.done e a) s fun t => (t.eng e).ctx = c.step ∧ t.tex.held.length = s.tex.held.length + 1 ∧
        t.tex.items = s.tex.items.map fun x => if x.cell = i.cell then { x with place := .ended } else x) ∧
    (∀ i : Item, Ready s e (.done e a) → c.tag a = false → u.bit Reg.TEX_DCTL_DET = false →
      u.tex.items.filter (fun x => x.flume == (c.greg a).toNat % 4096) = [i] → i.place = .taken k →
      Does (.done e a) s fun t => (t.eng e).ctx = c.step ∧ t.tex.items = u.tex.items.filter fun x => x.cell ≠ i.cell) ∧
    (Ready s e (.cend e) → s.tex.items = [] → (u.task k).kind = 1 → u.T < (u.task k).pubAt →
      Does (.cend e) s fun t => (t.eng e).busy = false ∧ (t.task k).toPublish = true ∧ (t.task k).isOpen = false ∧
        t.rd Reg.TEX_DSTATE_STATE k = 1 ∧ t.landing = u.landing) ∧
    (Ready s e (.cend e) → u.tex.items = [] → (u.task k).kind ≠ 1 ∨ (u.task k).pubAt ≤ u.T →
      let v := if c.inHnd then u.inc Reg.TEX_XCNT_HANDLED k else u
      exec (.cend e) s = .next (((v.freeEngine e).publish k).endDispatch k))

/-! ### Registers of BAR0 (R9 to R12) -/

/-- Read-write fields whose register has no effect of its own, with their index: one of each block that has such. -/
def Sys2Proof.Claims.plainFields : List (Field × Nat) :=
  [(Reg.SYS_DIBASE_BASE, 0), (Reg.HIF_EVMASK_EV, 0), (Reg.HST_TSET_SLO_SEC, 0), (Reg.AXS_CCEV_TASK, 3),
   (Reg.CNV_SCL_SCALE, 5), (Reg.TEX_DWAIT_MASK, 9), (Reg.LND_RPT_THRESH, 0), (Reg.LND_MDATL_D, 0), (Reg.NET_PTPCLS_CLASS, 0),
   (Reg.CAN_NBT_NBRP, 2), (Reg.SAF_RBASE_BASE, 0), (Reg.TRH_DIPEN_LATE, 0), (Reg.TLY_RPPUT_CNT, 0)]

/-- A host write to a register that does nothing but hold its fields: RW bits take the value written, W1C bits clear where
it has ones, RO bits stay, BL bits are as RW until the blaze; no other register and nothing else of the block changes. A
write narrower than 32 bits, or at an offset that is no multiple of 4, changes nothing (R9, R10); bits that a field reserves ignore
it (R12). A W1C bit that the module sets in the clock cycle of the write reads 1 after it (R11). While recording, a write to a
recorded block waits for the tick boundary (R408). -/
def Sys2Proof.Claims.FieldsFollowAccessCodes : Prop :=
  ∀ (v : Word) (s : State), s.hif.d3 = false → s.pwr.recovery = false →
    (s.bit Reg.TLY_RSTAT_RUN = true → Does (.registerWrite 0x30008 4 v 0) s fun t =>
      t = { s with tly := { s.tly with deferred := s.tly.deferred ++ [(0x30008, v, [])] } }) ∧
    (∀ off width : Nat, width ≠ 4 ∨ off % 4 ≠ 0 → exec (.registerWrite off width v 0) s = .next s) ∧
    (s.bit Reg.TLY_RSTAT_RUN = false →
    (∀ p ∈ plainFields,
      let off := p.1.base + p.1.s1 * p.2
      Does (.registerWrite off 4 v 0) s fun t => t.rd p.1 p.2 = bitsOf v.toNat p.1.lo p.1.w ∧ t = { s with regs := t.regs } ∧
        ∀ (g : Field) (i j : Nat), g.key i j / 128 ≠ off / 4 → t.rd g i j = s.rd g i j) ∧
    (Does (.registerWrite 0x20004 4 v 0) s fun t =>
      t.bit Reg.HST_TSTAT_STEPREJ = (s.bit Reg.HST_TSTAT_STEPREJ && !v.getLsbD 0) ∧
      t.bit Reg.HST_TSTAT_RATECLAMP = (s.bit Reg.HST_TSTAT_RATECLAMP && !v.getLsbD 1) ∧
      t.bit Reg.HST_TSTAT_HOLDOVER = s.bit Reg.HST_TSTAT_HOLDOVER ∧ t = { s with regs := t.regs }) ∧
    (Does (.registerWrite 0x20004 4 v 1) s fun t =>
      t.bit Reg.HST_TSTAT_STEPREJ = s.bit Reg.HST_TSTAT_STEPREJ ∧
      t.bit Reg.HST_TSTAT_RATECLAMP = (s.bit Reg.HST_TSTAT_RATECLAMP && !v.getLsbD 1)) ∧
    (∀ m : Fin 256, Does (.registerWrite (0x21004 + 16 * m) 4 v 0) s fun t => t.rd Reg.HST_LBASE_BASE m = v.toNat / 32 * 32 ∧
      t = { s with regs := t.regs }) ∧
    (∀ i : Fin 2, Does (.registerWrite (0xD0208 + 4 * i) 4 v 0) s fun t => t.rd Reg.TLY_RSMAP_RING i = (v &&& 0x77777777#32).toNat ∧
      t = { s with regs := t.regs }) ∧
    (Does (.registerWrite 0x80070 4 v 0) s fun t =>
      t.bit Reg.LND_MWP_FWB = (if s.bit Reg.PWR_BSTAT_BLAZE then s.bit Reg.LND_MWP_FWB else v.getLsbD 0) ∧
      t.bit Reg.LND_MWP_CFG = (if s.bit Reg.PWR_BSTAT_BLAZE then s.bit Reg.LND_MWP_CFG else v.getLsbD 1)))

/-- A write to a register that gives a command is that command (R33, R53, R76, R122, R175, R177, R194, R209, R259, R279, R316, R347,
R352, R358, R363, R399, R400, R431, R446): the row of the table and the register write have one effect. -/
def Sys2Proof.Claims.CommandRegistersAreTheirRows : Prop :=
  ∀ (v : Word) (s : State), s.hif.d3 = false → s.pwr.recovery = false → s.bit Reg.TLY_RSTAT_RUN = false → s.tly.deferred = [] →
    let Same := fun (off : Nat) (w : Word) (i : Instr) => exec (.registerWrite off 4 w 0) s = exec i s
    Same 0x2000C v (.slewWrite v) ∧ (∀ m : Fin 256, Same (0x21000 + 16 * m) v (.listControl m v)) ∧
    (∀ f : Fin 512, Same (0x31014 + 32 * f) 1#32 (.filterCommit f)) ∧ Same 0x50000 1#32 .fbkClrerr ∧
    (∀ c : Fin 24, Same (0x50124 + 64 * c) 1#32 (.zArm c)) ∧
    Same 0x73004 1#32 .programRun ∧ Same 0x73004 2#32 .programStop ∧ Same 0x73004 3#32 .coldRestart ∧ Same 0x73004 4#32 .warmRestart ∧
    Same 0x73004 5#32 .checkpoint ∧
    (∀ k : Fin 256, Same (0x7540C + 32 * k) v (.eflagSet k v) ∧ Same (0x75410 + 32 * k) v (.eflagClear k v)) ∧
    (∀ e : Fin 8, Same 0x75010 (BitVec.ofNat 32 (2 ^ e.val)) (.engineLeave e) ∧
      Same 0x75010 (BitVec.ofNat 32 (2 ^ (8 + e.val))) (.engineJoin e)) ∧
    Same 0x80024 1#32 .errorLogPop ∧ Same 0x10000 1#32 .hifClrcnt ∧ Same 0x90000 1#32 .netClrcnt ∧ Same 0x90000 2#32 .discoveryClear ∧
    (∀ i : Fin 256, Same 0x90420 (BitVec.ofNat 32 (2 ^ 31 + i.val)) (.stationRelease i)) ∧ Same 0xA0000 1#32 .canClrcnt ∧
    (∀ m : BitVec 8, Same 0xB0004 (BitVec.ofNat 32 (m.toNat * 2 ^ 16)) (.groupReset m)) ∧
    Same 0xB0104 0x80000000#32 .paramLoad ∧ Same 0xB0104 0x40000000#32 .paramConfirm ∧ Same 0xB0104 0x20000000#32 .paramDiscard ∧
    (∀ b : Fin 4, Same 0xB0200 (BitVec.ofNat 32 (2 ^ 31 + b.val)) (.brakeTestStart b)) ∧ Same 0xB0200 0x40000000#32 .brakeTestAbort ∧
    Same 0xD0004 v (.tallyUnlock v) ∧ Same 0xD0008 0x80000000#32 .tallyClear ∧
    (∀ i : Fin 32768, Same 0xD000C (BitVec.ofNat 32 i) (.tallyRead i)) ∧ Same 0xD0010 1#32 .tallyNext ∧
    Same 0xE0008 v (.softwareReset v) ∧ (∀ w : Fin 8192, Same (0xE8000 + 4 * w) v (.keepWrite w v)) ∧
    (∀ r : Fin 42, Same (0xF0000 + 4 * r) v (.doorbell r v []))

/-- A register write acts by the access code of each field, and as the row of its register: FieldsFollowAccessCodes
and CommandRegistersAreTheirRows, together. -/
def Obligations.RegisterWritesByAccessCode : Prop := FieldsFollowAccessCodes ∧ CommandRegistersAreTheirRows

/-! ### The Landing (R24 to R28, R249 to R267) -/

/-- A request with no other waiting, of a client with share left, is performed in its cycle: a read delivers the codeword, a write
of all eight bytes replaces it with its poison, a read-modify-write merges and keeps poison, which it reports; while its bank is
copied a write goes into the destination as well. Of two clients of one codeword the one of class A goes first and the other waits;
a client whose share is used up waits outside (R24, R25, R26, R27, R28, R253, R254, R263). -/
def Sys2Proof.Claims.RequestResults : Prop :=
  ∀ (r : LndReq) (s : State),
    let base := r.off / 8 * 8
    let w := s.lndCw base
    let c := s.landing.decode w
    s.lnd.waiting = [] → s.lnd.blocked = [] → r.off < lndSize →
    (portShare r.port ≤ s.loadsOf r → Does (.landingAccess [r]) s fun t => t.lnd.blocked = [r] ∧ t.landing = s.landing ∧
      t.lnd.waiting = []) ∧
    (s.loadsOf r < portShare r.port → s.retTouched base 8 = [] → c.2 = .clean →
    (r.op = .read 0#80 → Does (.landingAccess [r]) s fun t =>
      t.lnd.replies = s.lnd.replies ++ [LndReply.mk r.port r.off c.1.data c.1.poison] ∧ t.lnd.waiting = [] ∧ t.landing = s.landing ∧
        t.regs = s.regs) ∧
    (∀ (d : DWord) (p : Bool), r.op = .write 0xFF#8 d p → Does (.landingAccess [r]) s fun t =>
      t.landing = s.putBoth w ⟨d, p⟩ ∧ t.lnd.waiting = [] ∧ t.regs = s.regs ∧ t.mram = s.mram) ∧
    (∀ a o : DWord, r.op = .rmw a o → Does (.landingAccess [r]) s fun t =>
      t.landing = s.putBoth w ⟨(c.1.data &&& a) ||| o, c.1.poison⟩ ∧ t.lnd.waiting = [] ∧ t.mram = s.mram ∧
        (c.1.poison = false → t.regs = s.regs) ∧ (c.1.poison = true → t.bit Reg.LND_ESTAT_PWPSN = true)) ∧
    (∀ q : LndReq, q.off = r.off → q.port = 7 → r.port = 2 → r.op = .read 0#80 → Does (.landingAccess [q, r]) s fun t =>
      t.lnd.waiting.map (fun x => (x.req, x.waited)) = [(q, 1)] ∧
        t.lnd.replies = s.lnd.replies ++ [LndReply.mk 2 r.off c.1.data c.1.poison]))

/-- A request that has waited 64 cycles becomes class A, and no other request changes (R26). -/
def Sys2Proof.Claims.WaitingRequestIsRaised : Prop :=
  ∀ (w : LndWait) (s : State), w ∈ s.lnd.waiting → 64 ≤ w.waited →
    Does (.requestPromotion w.seq) s fun t => { w with raised := true } ∈ t.lnd.waiting ∧ ({ w with raised := true } : LndWait).cls = 0 ∧
      (∀ x ∈ s.lnd.waiting, x.seq ≠ w.seq → x ∈ t.lnd.waiting) ∧ t = { s with lnd := { s.lnd with waiting := t.lnd.waiting } }

/-- Landing requests are served, wait, and are raised after 64 cycles: RequestResults and WaitingRequestIsRaised,
together. -/
def Obligations.LandingRequestsComplete : Prop := RequestResults ∧ WaitingRequestIsRaised

/-- What the memories and the counts hold after an error is met: the scrubber moves on by one codeword, writes a corrected
word back clean and an uncorrectable one back poisoned, and counts each; the destination of a bank copy it passes over; a repeat
rewrite leaves the word clean and watched (R253, R255, R256, R263). -/
def Obligations.ErrorsAreRepairedAndCounted : Prop :=
  (∀ s : State, s.bit Reg.LND_CTL_SCRUBEN = true → s.lnd.scrubPos < scrubTotal →
    let id := (scrubTarget s.lnd.scrubPos).1
    let w := (scrubTarget s.lnd.scrubPos).2
    let d := (s.mem id).decode w
    Does (.scrubRead 0#80) s fun t => t.lnd.scrubPos = s.lnd.scrubPos + 1 ∧
      (id = .land → s.rd Reg.LND_PHSTAT_STATE (w / bankWords) = bankCopying → t.landing = s.landing) ∧
      (s.scrubSkips id w = false →
      (d.2 = .clean → t.mem id = s.mem id) ∧
      (∀ cell, d.2 = .ce1 cell → (t.mem id).decode w = (d.1, .clean) ∧ t.rd Reg.LND_ECNT1_CNT = satAdd 32 (s.rd Reg.LND_ECNT1_CNT) 1) ∧
      (∀ a b, d.2 = .ce2 a b → (t.mem id).decode w = (d.1, .clean) ∧ t.rd Reg.LND_ECNT2_CNT = satAdd 32 (s.rd Reg.LND_ECNT2_CNT) 1 ∧
        t.bit Reg.LND_ESTAT_CE2 = true) ∧
      (d.2 = .ue → (t.mem id).decode w = (⟨d.1.data, true⟩, .clean) ∧ t.rd Reg.LND_ECNTU_CNT = satAdd 32 (s.rd Reg.LND_ECNTU_CNT) 1 ∧
        t.bit Reg.LND_ESTAT_UE = true))) ∧
  (∀ s : State, scrubTotal ≤ s.lnd.scrubPos → Does .scrubPassEnd s fun t => t.lnd.scrubPos = 0 ∧ t.rd Reg.LND_SCSTAT_PROG = 0 ∧
    t.lnd.pass = s.lnd.pass + 1 ∧ (∀ x ∈ t.lnd.filter, x.watch = true ∧ x ∈ s.lnd.filter) ∧ t.landing = s.landing) ∧
  (∀ (bank w : Nat) (e : RptEntry) (s : State), s.rptFind .land (bank * bankWords + w) = some e → e.watch = false → s.thresh ≤ e.count →
    Does (.repeatRewrite bank w) s fun t =>
      t.landing.decode (bank * bankWords + w) = ((s.landing.decode (bank * bankWords + w)).1, .clean) ∧
      ∃ x ∈ t.lnd.filter, x.mem = .land ∧ x.cw = bank * bankWords + w ∧ x.watch = true)

/-- Popping the error log shows the next entry and clearing the counts leaves all five at zero; VALID of a retirement entry
is set and cleared, and the MRAM list with it; the MRAM window reads a codeword, writes one where the region is open, and
reports ERR where it is not (R259, R260, R262, R266, R267). -/
def Sys2Proof.Claims.LandingRegisterCommands : Prop :=
  ∀ s : State,
    (Does .errorLogPop s fun t => t.lnd.elog = s.lnd.elog.drop 1 ∧ t.landing = s.landing ∧
      (s.lnd.elog.length ≤ 64 → t.rd Reg.LND_ESTAT_ELCNT = s.lnd.elog.length - 1) ∧
      ∀ a b l, s.lnd.elog = a :: b :: l → t.rd Reg.LND_ELLOCL_LOC = b.loc.toNat % 2 ^ 32 ∧ t.rd Reg.LND_ELTIM_HT = b.ht.toNat) ∧
    (Does .landingClrcnt s fun t => t = { s with regs := t.regs } ∧
      ∀ f ∈ [Reg.LND_ECNT1_CNT, Reg.LND_ECNT2_CNT, Reg.LND_ECNTU_CNT, Reg.LND_ECNTH_CNT, Reg.LND_RETCNT_CNT], t.rd f = 0) ∧
    (∀ p : Fin 256, s.bit Reg.LND_RCTL_VALID p = false → Does (.pageRetire p) s fun t => t.bit Reg.LND_RCTL_VALID p = true ∧
      (s.bit Reg.LND_RCTL_PERSIST p = true → tabAt 0 t.lnd.retPages p = s.rd Reg.LND_RET_PAGE p + 1) ∧
      t.landing = s.landing ∧ t.rd Reg.LND_RET_PAGE p = s.rd Reg.LND_RET_PAGE p) ∧
    (∀ p : Fin 256, Does (.pageRestore p) s fun t => t.bit Reg.LND_RCTL_VALID p = false ∧ tabAt 0 t.lnd.retPages p = 0 ∧
      t.landing = s.landing) ∧
    ((s.mram.decode (s.mramOfs / 8)).2 = .clean → Does .mramRead s fun t =>
      t.rd Reg.LND_MDATL_D + t.rd Reg.LND_MDATH_D * 2 ^ 32 = (s.mram.decode (s.mramOfs / 8)).1.data.toNat ∧
      t.bit Reg.LND_MCTL_RD = true ∧ t.bit Reg.LND_MCTL_PSN = (s.mram.decode (s.mramOfs / 8)).1.poison ∧ t.mram = s.mram) ∧
    (s.mramOpen s.mramOfs = true → Does .mramWrite s fun t => t.bit Reg.LND_MCTL_WR = true ∧ t.mram = s.mram.put (s.mramOfs / 8)
      ⟨BitVec.ofNat 64 (s.rd Reg.LND_MDATL_D + s.rd Reg.LND_MDATH_D * 2 ^ 32), false⟩) ∧
    (s.mramOpen s.mramOfs = false → Does .mramWrite s fun t => t.bit Reg.LND_MCTL_ERR = true ∧ t.mram = s.mram) ∧
    (Does .mramWindowDone s fun t => t.bit Reg.LND_MCTL_RD = false ∧ t.bit Reg.LND_MCTL_WR = false ∧ t.mram = s.mram)

/-- A bank copy starts onto a FREE bank, and is refused with its cause otherwise; at its end the destination holds what the
source held and serves the logical bank, the source is OUT; an abort leaves the map and frees the destination. A bank
test ends with the bank FREE, or OUT if a word failed (R263, R264, R265). -/
def Sys2Proof.Claims.BankCopyAndTest : Prop :=
  ∀ s : State,
    let b := s.rd Reg.LND_BCPY_LOGB
    let dst := s.rd Reg.LND_BCPY_DST
    let p := s.rd Reg.LND_BTEST_PHYS
    (s.lnd.copy = none → b < 32 → dst ≠ s.rd Reg.LND_BMAP_PHYS b → dst ≤ 33 → s.rd Reg.LND_PHSTAT_STATE dst = bankFree →
      Does .bankCopyStart s fun t => t.lnd.copy = some (b, dst) ∧ t.rd Reg.LND_PHSTAT_STATE dst = bankCopying ∧
        t.bit Reg.LND_BCPY_START = true ∧ t.landing = s.landing ∧ t.rd Reg.LND_BMAP_PHYS b = s.rd Reg.LND_BMAP_PHYS b) ∧
    (s.lnd.copy = none → dst = s.rd Reg.LND_BMAP_PHYS b →
      Does .bankCopyStart s fun t => t.lnd.copy = none ∧ t.bit Reg.LND_BCSTAT_FAIL = true ∧ t.rd Reg.LND_BCSTAT_CAUSE = 2) ∧
    (∀ (lb : Fin 32) (d : Fin 34), s.lnd.copy = some (lb.val, d.val) → s.landing.flips = [] → s.rd Reg.LND_BMAP_PHYS lb ≠ d → s.rd Reg.LND_BMAP_PHYS lb < 34 →
      Does .bankCopyDone s fun t => t.lnd.copy = none ∧ t.rd Reg.LND_BMAP_PHYS lb = d ∧ t.rd Reg.LND_PHSTAT_STATE d = bankInService ∧
        t.rd Reg.LND_PHSTAT_STATE (s.rd Reg.LND_BMAP_PHYS lb) = bankOut ∧ t.bit Reg.LND_BCSTAT_DONE = true ∧ t.rd Reg.LND_BCSTAT_LINES = 24576 ∧
        ∀ x < bankWords * 8, t.landing.byte (d * bankWords * 8 + x) = s.landing.byte (s.rd Reg.LND_BMAP_PHYS lb * bankWords * 8 + x)) ∧
    (∀ (lb : Fin 32) (d : Fin 34), s.lnd.copy = some (lb.val, d.val) → Does .bankCopyAbort s fun t => t.lnd.copy = none ∧
      t.rd Reg.LND_PHSTAT_STATE d = bankFree ∧ t.rd Reg.LND_BMAP_PHYS lb = s.rd Reg.LND_BMAP_PHYS lb ∧ t.rd Reg.LND_BCSTAT_CAUSE = 3 ∧
      t.bit Reg.LND_BCSTAT_FAIL = true ∧ t.rd Reg.LND_BCSTAT_LINES ≤ 24576) ∧
    (s.lnd.test = none → p ≤ 33 → s.rd Reg.LND_PHSTAT_STATE p = bankFree ∨ s.rd Reg.LND_PHSTAT_STATE p = bankOut →
      Does .bankTestStart s fun t => t.lnd.test = some p ∧ t.bit Reg.LND_BTEST_START = true) ∧
    (s.lnd.test = none → s.rd Reg.LND_PHSTAT_STATE p = bankInService →
      Does .bankTestStart s fun t => t.lnd.test = none ∧ t.rd Reg.LND_BTSTAT_CAUSE = 1 ∧ t.bit Reg.LND_BTSTAT_FAIL = true) ∧
    (∀ q : Fin 34, s.lnd.test = some q.val →
      (Does (.bankTestDone []) s fun t => t.lnd.test = none ∧ t.rd Reg.LND_PHSTAT_STATE q = bankFree ∧ t.rd Reg.LND_PHSTAT_HARD q = 0 ∧
        t.bit Reg.LND_BTSTAT_DONE = true ∧ t.bit Reg.LND_BTEST_START = false) ∧
      (∀ (w : Nat) (m : BitVec 80), m ≠ 0#80 → Does (.bankTestDone [(w, m)]) s fun t => t.lnd.test = none ∧
        t.rd Reg.LND_PHSTAT_STATE q = bankOut ∧ t.rd Reg.LND_BTSTAT_CAUSE = 2 ∧ t.bit Reg.LND_BTSTAT_FAIL = true))

/-- Error log, retirement, MRAM window, bank copy and test: LandingRegisterCommands and BankCopyAndTest, together. -/
def Obligations.LandingMaintenance : Prop := LandingRegisterCommands ∧ BankCopyAndTest

/-! ### Control-law engine (R51, R64 to R89) -/

/-- One slot of the pass of a ring that alone has work: CFG of HEAD ends the pass or names the next loop, a chain of LEN
loops without END is a chain error, and so is a poisoned CFG; with LEN 0 there is no pass (R65, R66, R68, R85). A lower ring's pass preempts a running
one and gives it back (R51); clearing EN ends every pass (R461); CLRMAX and COMMIT do what R68 and R76 say. -/
def Obligations.ControlLawPassCommands : Prop :=
  (∀ (n : Fin 8) (s : State),
    let s1 := (s.passRun n).advanceEdge (s.time.edge + slotEdges 1)
    let hd := s.rd Reg.CLE_PCH_HEAD n
    let d := (s1.lndRead clePort (s1.loopAt hd) 16).1
    (s.pass_ n).phase = .ready → (s.pass_ n).count = 0 → (∀ m : Nat, m ≠ n → (s.pass_ m).phase = .none) → s.gensDone n = true →
    s1.T < (s1.ring n).seal_ →
    (s.rd Reg.CLE_PCH_LEN n = 0 → exec (.clePass n 1) s = .next s) ∧
    (s.rd Reg.CLE_PCH_LEN n ≠ 0 →
    (psnOf d 0 = false → bitAt (loOf d 0) 27 = true → Does (.clePass n 1) s fun t =>
      t.pass_ n = {} ∧ t.rd Reg.CLE_PSTAT_NEVAL n = 1) ∧
    (psnOf d 0 = false → bitAt (loOf d 0) 27 = false → 1 < s.rd Reg.CLE_PCH_LEN n → Does (.clePass n 1) s fun t =>
      (t.pass_ n).phase = .running ∧ (t.pass_ n).count = 1 ∧ (t.pass_ n).loop = loOf d 0 % 4096) ∧
    (psnOf d 0 = false → bitAt (loOf d 0) 27 = false → s.rd Reg.CLE_PCH_LEN n = 1 → Does (.clePass n 1) s fun t =>
      t.pass_ n = {} ∧ t.bit Reg.CLE_PSTAT_CHAINERR n = true) ∧
    (psnOf d 0 = true → Does (.clePass n 1) s fun t => t.pass_ n = {} ∧ t.bit Reg.CLE_PSTAT_CHAINERR n = true ∧
      t.rd Reg.CLE_PSTAT_STOP n = hd % 4096 ∧
      t.landing = (s1.lndRead clePort (s1.loopAt hd) 16).2.landing))) ∧
  (∀ (n : Fin 8) (s : State), (s.pass_ n).phase = .running → s.lowerPass n = true →
    Does (.passPreempt n) s fun t => t.pass_ n = { s.pass_ n with phase := .preempted } ∧ t.landing = s.landing) ∧
  (∀ (n : Fin 8) (s : State), (s.pass_ n).phase = .preempted → s.lowerPass n = false →
    Does (.passResume n) s fun t => t.pass_ n = { s.pass_ n with phase := .running, seg := s.time.edge, segCount := 0 } ∧
      t.bit Reg.CLE_CTL_EN = s.bit Reg.CLE_CTL_EN) ∧
  (∀ s : State,
    (Does .cleDisable s fun t => t.bit Reg.CLE_CTL_EN = false ∧ (∀ n : Fin 8, (t.pass_ n).phase = .none) ∧ t.landing = s.landing ∧
      t.cleMem = s.cleMem) ∧
    (Does .cleClrmax s fun t => (∀ n : Fin 8, t.rd Reg.CLE_PTIME_MAX n = 0 ∧ t.rd Reg.CLE_PTIME_LAST n = s.rd Reg.CLE_PTIME_LAST n) ∧
      t = { s with regs := t.regs }) ∧
    (∀ f : Fin 512, Does (.filterCommit f) s fun t => t.fset f = s.fsetShadow f ∧ t.bit Reg.CLE_FSET_PEND f = false ∧
      (∀ g : Nat, g ≠ f → t.fset g = s.fset g) ∧ t.cleMem = s.cleMem))

/-- The output of an evaluation in MAN, tracking or AUTO lies within OLO and OHI where no rate limit acts (R73, R79, R81). -/
def Obligations.ControlOutputWithinLimits : Prop :=
  ∀ r : LoopRun, fGt b32 (hiOf r.d 9) 0 = false → fLt b32 (loOf r.d 8) (hiOf r.d 8) = false →
    fLt b32 r.compute.y (hiOf r.d 8) = false ∧ fLt b32 (loOf r.d 8) r.compute.y = false

/-! ### Axes, compare and capture (R109 to R113, R454, R462) -/

/-- Clearing EN drops every generator pass, CLRMAX clears the eight maxima (R462). A compare unit takes a new CPUT and shows
its level, an overfull queue as QOVF, a poisoned CPUT as POISON; a sample that crosses the head fires it and moves CGET on, one that
does not leaves it; a pulse ends at its edge unless a firing has restarted it (R110, R111, R112, R136, R454). -/
def Sys2Proof.Claims.AxisAndCompareCommands : Prop :=
  (∀ s : State,
    (Does .axisDisable s fun t => t.bit Reg.AXS_CTL_EN = false ∧ t.axs.waiting = [] ∧ t.landing = s.landing ∧ t.axs.axes = s.axs.axes) ∧
    (Does .axisClrmax s fun t => (∀ n : Fin 8, t.rd Reg.AXS_PTIME_MAX n = 0) ∧ t = { s with regs := t.regs })) ∧
  (∀ (u : Fin 64) (s : State), s.bit Reg.AXS_CCCFG_EN u = true →
    -- the unit follows its source to this instant, then reads CPUT
    let f := s.ccFollow u
    let r := f.lndWord axsPort (f.ccAt u)
    let x := { r.2.cc u with cput := r.1.1 }
    (r.1.2 = true → Does (.compareEnqueue u) s fun t => t.bit Reg.AXS_CCSTAT_POISON u = true ∧ t.landing = r.2.landing ∧
      t.cc u = r.2.cc u) ∧
    (r.1.2 = false → x.level ≤ 16 → x.seen = true → x.judged = true → Does (.compareEnqueue u) s fun t => t.cc u = x ∧
      t.rd Reg.AXS_CCSTAT_CLEVEL u = x.level ∧ t.landing = r.2.landing ∧ ∀ v : Nat, v ≠ u → t.cc v = r.2.cc v) ∧
    (r.1.2 = false → 16 < x.level → Does (.compareEnqueue u) s fun t =>
      t.cc u = { x with cget := r.1.1, judged := false, passedNext := false } ∧ t.bit Reg.AXS_CCSTAT_QOVF u = true)) ∧
  (∀ (u : Fin 64) (q : Int) (e : CcEntry) (s : State), s.bit Reg.AXS_CCCFG_EN u = true → s.ccSource u = some q → (s.cc u).seen = true →
    (s.rd Reg.AXS_CCCFG_SRCK u ≠ 0 → exec (.compareFire u) s = .next (s.ccFollow u)) ∧
    (s.rd Reg.AXS_CCCFG_SRCK u = 0 → (s.cc u).judged = true → (s.cc u).level ≠ 0 → (s.cc u).passedNext = false →
      let x := { s.cc u with prev := (s.cc u).cur, cur := q, smpAt := s.time.edge }
      let h := (s.setCc u x).ccHead u
      h.1 = some e →
      (x.crosses e = false → exec (.compareFire u) s = .next h.2) ∧
      (x.crosses e = true → x.level = 1 → x.cget < 2 ^ 32 → e.event = false → h.2.bit Reg.AXS_CCCFG_OUTEN u = false →
        Does (.compareFire u) s fun t =>
          t.cc u = { x with cget := (x.cget + 1) % 2 ^ 32, judged := false, passedNext := false, firedAt := max s.time.edge (x.firedAt + 1) } ∧
          t.rd Reg.AXS_CCCNT_FIRES u = (h.2.rd Reg.AXS_CCCNT_FIRES u + 1) % 2 ^ 16 ∧ t.rd Reg.AXS_CCSTAT_CLEVEL u = 0))) ∧
  (∀ (u : Fin 64) (e : Nat) (s : State), (s.cc u).pulse = some e →
    let f := (s.advanceEdge e).ccFollow u
    ((f.cc u).pulse = some e → exec (.pulseEnd u) s = .next (f.setCc u { f.cc u with pulse := none })) ∧
    ((f.cc u).pulse ≠ some e → exec (.pulseEnd u) s = .next f) ∧
    (s.time.edge ≤ e → s.rd Reg.AXS_CCCFG_SRCK u ≠ 1 → Does (.pulseEnd u) s fun t => t.time.edge = e ∧ (t.cc u).pulse = none ∧
      t.landing = s.landing))

/-- An edge of the chosen kind latches the source position with HTIME, another discards the latch; when the level has stood
for FILT ticks the capture counts, or is lost while 16 are held; KGET as the program wrote it is taken unless it reads poisoned (R110, R112). -/
def Sys2Proof.Claims.CaptureCommands : Prop :=
  ∀ (u : Fin 64) (s : State),
    (∀ (q : Int) (level : Bool), s.bit Reg.AXS_CCCFG_EN u = true → s.bit Reg.AXS_CCCAP_CAPEN u = true → s.ccSource u = some q →
      s.rd Reg.AXS_CCCAP_EDGE u < 2 → Does (.captureEdge u level) s fun t =>
        t = s.setCc u { s.cc u with cap := if level = decide (s.rd Reg.AXS_CCCAP_EDGE u = 0) then some (q, s.htime, s.time.edge) else none }) ∧
    (∀ (q : Int) (ht e : Nat), (s.cc u).cap = some (q, ht, e) → s.time.edge ≤ e →
      ((s.cc u).kept < 16 → Does (.captureConfirm u) s fun t => (t.cc u).cap = none ∧ (t.cc u).kput = ((s.cc u).kput + 1) % 2 ^ 32 ∧
        (t.cc u).kget = (s.cc u).kget ∧ t.time.edge = e + s.rd Reg.AXS_CCCAP_FILT u) ∧
      (16 ≤ (s.cc u).kept → Does (.captureConfirm u) s fun t => t.cc u = { s.cc u with cap := none } ∧
        t.bit Reg.AXS_CCSTAT_KOVF u = true ∧ t.rd Reg.AXS_CCCNT_KLOST u = satAdd 16 (s.rd Reg.AXS_CCCNT_KLOST u) 1 ∧
        t.landing = s.landing)) ∧
    (let r := s.lndWord axsPort (s.ccAt u + 12);
      (r.1.2 = false → exec (.captureRelease u) s = .next (r.2.setCc u { r.2.cc u with kget := r.1.1 })) ∧
      (r.1.2 = true → Does (.captureRelease u) s fun t => t.bit Reg.AXS_CCSTAT_POISON u = true ∧ t.cc u = r.2.cc u))

/-- Axis engine, compare and capture commands: AxisAndCompareCommands and CaptureCommands, together. -/
def Obligations.AxisCompareAndCapture : Prop := AxisAndCompareCommands ∧ CaptureCommands

/-! ### Position feedback (R114 to R130) -/

/-- What a channel's signals do to its decoder: an edge of one quadrature line moves the count by one with the sign of
R117, a change of both counts a phase error and takes REFOK; a sine and cosine sample gives the phase of R118; amplitude
flags and the line fault set and clear (R119, R121); an armed Z mark latches ZPOS and references the channel, a later one
out of tolerance takes REFOK again (R122); CLRERR zeroes the error counts. -/
def Obligations.FeedbackSignals : Prop :=
  (∀ (c : Fin 24) (s : State),
    let x := s.fb c
    x.run = true →
    (∀ (a b : Bool) (stood : Nat), s.rd Reg.FBK_CFG_FILT c ≤ stood → s.fbMode c = fmInc → x.qseen = true → s.ccWatchers 0 c = [] → a ≠ x.qa →
      (b = x.qb → (∀ e, x.lastEdge = some e → e + 8 ≤ s.time.edge) → Does (.countChange c (.quad a b stood)) s fun t =>
        (t.fb c).pos = sInt 64 (uOf 64 (x.pos + if (a != b) != s.bit Reg.FBK_CFG_INV c then 65536 else -65536)) ∧
        (t.fb c).qa = a ∧ (t.fb c).refok = x.refok ∧ t.landing = s.landing ∧ t.regs = s.regs) ∧
      (b ≠ x.qb → Does (.countChange c (.quad a b stood)) s fun t => (t.fb c).pos = x.pos ∧ (t.fb c).refok = false ∧
        t.rd Reg.FBK_ERRCNT_PHASE c = satAdd 16 (s.rd Reg.FBK_ERRCNT_PHASE c) 1 ∧ t.landing = s.landing)) ∧
    (∀ sn cs : Int, s.fbMode c = fmSincos → s.ccWatchers 0 c = [] → Does (.countChange c (.sincos sn cs)) s fun t =>
      (t.fb c).phi = phase16 (s.fbTrim c sn cs).1 (s.fbTrim c sn cs).2 ∧ (t.fb c).pseen = true ∧ t.landing = s.landing) ∧
    (∀ m : BitVec 16,
      (x.ampWarn = false → s.outWarn c m.toNat = true → Does (.ampWarnSet c m) s fun t => (t.fb c).ampWarn = true ∧
        bitAt (t.fb c).seen 22 = true ∧ (t.fb c).amp = m.toNat ∧ t.regs = s.regs) ∧
      (x.ampWarn = true → s.outWarn c m.toNat = false → Does (.ampWarnClear c m) s fun t => (t.fb c).ampWarn = false ∧
        (t.fb c).amp = m.toNat ∧ t.regs = s.regs) ∧
      (x.ampFlt = false → s.outFault c m.toNat = true → Does (.ampFaultSet c m) s fun t => (t.fb c).ampFlt = true ∧
        (t.fb c).refok = false ∧ bitAt (t.fb c).seen 21 = true ∧ (t.fb c).pos = x.pos) ∧
      (x.ampFlt = true → s.outFault c m.toNat = false → Does (.ampFaultClear c m) s fun t => (t.fb c).ampFlt = false ∧
        (t.fb c).want = (x.want || decide (s.fbMode c = fmBoth)) ∧ (t.fb c).pos = x.pos)) ∧
    (Does (.lineFault c) s fun t => (t.fb c).line = true ∧ (t.fb c).refok = false ∧ (t.fb c).posok (t.fbMode c) = false) ∧
    (x.line = true → Does (.lineClear c) s fun t => (t.fb c).line = false ∧ (t.fb c).pos = x.pos) ∧
    (∀ stood : Nat, s.fbMode c = fmInc → stood < s.rd Reg.FBK_CFG_FILT c → exec (.zMark c stood) s = .next s) ∧
    (∀ stood : Nat, (s.fbMode c = fmInc → s.rd Reg.FBK_CFG_FILT c ≤ stood) → s.bit Reg.FBK_ZCTL_ZARM c = true → Does (.zMark c stood) s fun t =>
      t.bit Reg.FBK_ZCTL_ZARM c = false ∧ (t.fb c).refok = (!x.line && (decide (s.fbMode c ≠ fmBoth) || x.loaded)) ∧
      t.rd Reg.FBK_ZPOSL_POS c + t.rd Reg.FBK_ZPOSH_POS c * 2 ^ 32 = uOf 64 x.pos) ∧
    (∀ stood : Nat, (s.fbMode c = fmInc → s.rd Reg.FBK_CFG_FILT c ≤ stood) →
      let z := sInt 64 (s.rd Reg.FBK_ZPOSL_POS c + s.rd Reg.FBK_ZPOSH_POS c * 2 ^ 32)
      let cpr := s.rd Reg.FBK_ZCFG_CPR c
      let turn : Int := 65536 * cpr
      let r := (x.pos - z) % turn
      let tol : Int := 65536 * s.rd Reg.FBK_ZCFG_ZTOL c
      s.bit Reg.FBK_ZCTL_ZARM c = false → x.zref = true → cpr ≠ 0 →
      (r ≤ tol ∨ turn - tol ≤ r → exec (.zMark c stood) s = .next s) ∧
      (tol < r → r < turn - tol → Does (.zMark c stood) s fun t => (t.fb c).refok = false ∧ bitAt (t.fb c).seen 15 = true ∧
        (t.fb c).pos = x.pos ∧ t.landing = s.landing))) ∧
  (∀ (c : Fin 24) (s : State), Does (.zArm c) s fun t => t.bit Reg.FBK_ZCTL_ZARM c = true ∧ t = { s with regs := t.regs }) ∧
  (∀ s : State, Does .fbkClrerr s fun t => (∀ c : Fin 24, t.rd Reg.FBK_ERRCNT_PHASE c = 0 ∧ t.rd Reg.FBK_ERRCNT_SSI c = 0) ∧
    t = { s with regs := t.regs })

/-- What time and frames do to a channel: the observer's grid edge updates a valid channel by R123 and clears an invalid
one, a standstill zeroes it (R125), a return of POSOK restarts it (R129), SETTLING and REVERSAL end (R126, R127); a record
carries the position of its instant (R114, R115); a good SSI frame gives the count, a bad one an error count (R120, R121). -/
def Obligations.FeedbackObserverAndRecords : Prop :=
  ∀ (c : Fin 24) (s : State),
    let x := s.fb c
    let g := (s.time.edge / 200 + 1) * 200
    (Does .observerUpdate s fun t => t.time.edge = g ∧
        (x.run = true → x.posok (s.fbMode c) = false → (t.fb c).obs = {}) ∧
        (x.run = true → x.posok (s.fbMode c) = true → x.obs.run = true → x.standstill = false → g < x.lastChange + s.fbStill c →
          (t.fb c).obs = { x.obs.update (obsGains (s.fbBw c) (s.rd Reg.FBK_CFG_DAMP c)) x.pos with last := g })) ∧
    (x.run = true → x.obs.run = true → x.standstill = false → s.time.edge ≤ x.lastChange + s.fbStill c →
      Does (.standstill c) s fun t => (t.fb c).standstill = true ∧ (t.fb c).obs = { x.obs with thi := x.pos, thr := 0, v := 0, a := 0 } ∧
        t.time.edge = x.lastChange + s.fbStill c) ∧
    (x.run = true → x.posok (s.fbMode c) = true → x.obs.run = false → Does (.observerRestart c false) s fun t =>
      (t.fb c).obs = { run := true, thi := x.pos, last := s.time.edge } ∧ (t.fb c).settle = some (s.time.edge + s.fbFour c) ∧ t.regs = s.regs) ∧
    (x.run = true → Does (.observerRestart c true) s fun t => (t.fb c).obs = { run := true, thi := x.pos, last := s.time.edge } ∧
      bitAt (t.fb c).seen 14 = true) ∧
    (∀ e : Nat, s.time.edge ≤ e →
      (x.settle = some e → Does (.settlingEnd c) s fun t => t.fb c = { x with settle := none } ∧ t.time.edge = e) ∧
      (x.reversal = some e → Does (.reversalEnd c) s fun t => t.fb c = { x with reversal := none } ∧ t.time.edge = e)) ∧
    (∀ l : FbLatch, x.latch = some l →
      (x.frame = none → bitAt l.stat 31 = true → Does (.feedbackRecordWrite c) s fun t => (t.fb c).latch = none ∧ (t.fb c).good = l.pos ∧
        ∃ amp : DWord, t.landing = ((s.setFb c { x with latch := none, good := l.pos }).srcWrite axsPort 4 (.hoist (s.rd Reg.FBK_CFG_RING c) l.hnum) false (s.fbAt false c)
          [⟨BitVec.ofNat 64 (uOf 64 l.pos), false⟩, ⟨BitVec.ofNat 64 (l.vel + l.acc * 2 ^ 32), false⟩,
            ⟨BitVec.ofNat 64 (l.stat + l.hnum * 2 ^ 32), false⟩, ⟨amp, false⟩]).landing) ∧
      (∀ (h : Nat) (f : SsiFrame), x.frame = some h → s.fbMode c = fmSsi → s.ccWatchers 0 c = [] →
        (∀ v, s.ssiValue c f = some v → x.ssi = none → Does (.ssiFrameDone c f) s fun t => (t.fb c).frame = none ∧ (t.fb c).latch = none ∧
          (t.fb c).ssi = some v ∧ (t.fb c).pos = sInt 64 (uOf 64 ((v : Int) * 65536)) ∧ (t.fb c).refok = !x.line) ∧
        (s.ssiValue c f = none → Does (.ssiFrameDone c f) s fun t => (t.fb c).frame = none ∧ (t.fb c).latch = none ∧ (t.fb c).pos = x.pos ∧
          t.rd Reg.FBK_ERRCNT_SSI c = satAdd 16 (s.rd Reg.FBK_ERRCNT_SSI c) 1))) ∧
    (∀ (v : Nat) (f : SsiFrame), x.run = true → x.want = true → s.ssiValue c f = some v → s.ccWatchers 0 c = [] →
      Does (.ssiAbsLoad c f) s fun t => (t.fb c).loaded = true ∧ (t.fb c).want = false ∧ (t.fb c).refok = !x.line ∧
        (t.fb c).per = divRoundEven ((v : Int) * 65536 - (x.phi : Int) * 2 ^ s.rd Reg.FBK_SSI2_SHIFT c) (2 ^ s.rd Reg.FBK_SSI2_SHIFT c * 65536) ∧
        t.landing = s.landing)

/-! ### Conversion and output stages (R137 to R158) -/

/-- A valid converter starts when it is enabled, an invalid one is refused with CFGERR (R144); it wakes before its instant
(R147); the result of an entry is the rounded mean in its slot, or PSN after a transfer that could not be corrected (R141, R143, R155, R159); the reference
window is followed (R149); a burst moves WIDX on by 16 (R154); CLRCNT zeroes the counts. -/
def Sys2Proof.Claims.ConverterCommands : Prop :=
  (∀ (n : Fin 16) (s : State), s.bit Reg.CNV_CFG_EN n = false → s.isTaken n = false →
    (s.adcValid n = true → Does (.converterEnable n) s fun t => t.bit Reg.CNV_CFG_EN n = true ∧ t.bit Reg.CNV_STAT_RUN n = true ∧
      t.bit Reg.CNV_STAT_CFGERR n = false ∧ t.bit Reg.CNV_STAT_PWRDN n = (!s.bit Reg.CNV_CFG_PDDIS n && !s.isPair n)) ∧
    (s.adcValid n = false → Does (.converterEnable n) s fun t => t.bit Reg.CNV_CFG_EN n = false ∧ t.bit Reg.CNV_STAT_CFGERR n = true ∧
      t = { s with regs := t.regs })) ∧
  (∀ (n : Fin 16) (s : State), s.isTaken n = true → Does (.converterEnable n) s fun t => t.bit Reg.CNV_CFG_EN n = true ∧
    t = { s with regs := t.regs }) ∧
  (∀ (n : Fin 16) (s : State), s.bit Reg.CNV_STAT_PWRDN n = true → (s.ring (s.rd Reg.CNV_CFG_RING n)).live = true →
    s.T ≤ (s.ring (s.rd Reg.CNV_CFG_RING n)).next →
    Does (.converterWake n) s fun t => t.bit Reg.CNV_STAT_PWRDN n = false ∧ t.landing = s.landing ∧ t.cnv = s.cnv) ∧
  (∀ (n : Fin 16) (j : Fin 8) (codes : List (BitVec 18)) (s : State),
    let x := s.adc n
    let e := x.ents.getD j ⟨0, false, 0, 0⟩
    let u := s.advanceTo (x.tk + (j.val + 1) * x.avg * 200)
    let y := u.setAdc n { x with todo := x.todo.drop 1, refBad := u.refOut }
    let sum := (codes.map fun (c : BitVec 18) => c.toInt).foldl (· + ·) 0
    s.bit Reg.CNV_STAT_RUN n = true → x.todo.head? = some j.val → codes.length = x.avg →
    (∀ err : BitVec 80, Does (.conversionResult n j codes err) s fun t => (t.adc n).todo = x.todo.drop 1 ∧
      (classify err = .ue → t.bit Reg.CNV_STAT_PSN n = true)) ∧
    (s.isPair n = false → x.refBad = false → (∀ c ∈ codes, codeOvr c.toInt = false) → Does (.conversionResult n j codes 0#80) s fun t =>
      t.landing = (y.slotWrite n j x.hnum e.scen (resultWord (meanCode sum x.avg) e.ch false false false false)
        (scaledCopy e.scale e.offset sum x.avg) false).landing)) ∧
  (∀ (agree : Bool) (s : State), s.bit Reg.CNV_REFSTAT_REFOK ≠ agree → Does (.referenceWindow agree) s fun t =>
    t.bit Reg.CNV_REFSTAT_REFOK = agree ∧ (agree = false → t.bit Reg.CNV_REFSTAT_REFERR = true) ∧ t.landing = s.landing) ∧
  (∀ (p : Fin 8) (samples : List (BitVec 18)) (err : BitVec 80) (s : State),
    let x := s.ilPair p
    x.run = true → x.begun = true → samples.length = 16 → x.widx + 15 < x.kidx + x.count →
    Does (.interleaveBurst p samples err) s fun t => t.ilPair p = { x with widx := x.widx + 16 } ∧ t.cnv.adcs = s.cnv.adcs) ∧
  (∀ s : State, Does .cnvClrcnt s fun t => (∀ n : Fin 16, t.rd Reg.CNV_CNT_STALECNT n = 0 ∧ t.rd Reg.CNV_CNT_OVRCNT n = 0) ∧
    t = { s with regs := t.regs })

/-- What the output stages take: a DAC latches the clamped code of a clean, finite slot at its seal and keeps its code after a
poisoned one, and a code applies only while outputs are released and the unit does not yield (R156, R157, R158, R443). -/
def Sys2Proof.Claims.DacLatchesAndApplies : Prop :=
  ∀ (d : Fin 16) (n : Fin 8) (s : State),
    let off := s.rd Reg.CNV_DBASE_BASE * 64 + 4 * d.val
    (∀ (w : Cw) (v : Int), (s.lndRead cnvPort off 1).1 = [w] → w.poison = false →
      s.dacCode d (bitsOf w.data.toNat (off % 8 * 8) 32) = some v →
      ((s.dacSeal1 n d).dac d).code = some (clampI (-32768) 32767 v)) ∧
    (∀ w : Cw, (s.lndRead cnvPort off 1).1 = [w] → w.poison = true →
      ((s.dacSeal1 n d).dac d).code = (s.dac d).code ∧ (s.dacSeal1 n d).bit Reg.CNV_DSTAT_PSN d = true) ∧
    (s.outOn n = false → s.dacApply n = s) ∧
    (∀ c : Int, s.outOn n = true → s.bit Reg.CNV_DCFG_EN d = true → s.rd Reg.CNV_DCFG_RING d = n → (s.dac d).code = some c →
      (s.dacApply n).rd Reg.CNV_DSTAT_CODE d = uOf 16 c)

/-- Converters and DACs: start, results, latch and apply: ConverterCommands and DacLatchesAndApplies, together. -/
def Obligations.ConverterAndDac : Prop := ConverterCommands ∧ DacLatchesAndApplies

/-! ### Cyclic programs (R163 to R186, R268, R269) -/

/-- RUN from STOP enters RUN when the configuration can be taken into use and sets RUNREJ otherwise; STOP ends releases, and
the program stands in STOP when the last cycle has ended (R175). A complete snapshot makes its task READY (R163, R189), a
publish of the last segments ends the cycle's books, one of some segments stays in progress (R164, R166), COMMIT takes a force into use unless another entry holds its word (R177). -/
def Obligations.ProgramAndTaskCommands : Prop :=
  ∀ s : State,
    (s.progState = 0 → s.takeConfig.1 = 0 → Does .programRun s fun t => t.progState = 1 ∧ t.tex.stopping = false) ∧
    (s.progState = 0 → s.takeConfig.1 ≠ 0 → Does .programRun s fun t => t.bit Reg.TEX_PSTAT_RUNREJ = true) ∧
    (s.progState = 1 → s.tex.stopping = false → Does .programStop s fun t => t.tex.stopping = true ∧ t.progState = 1 ∧
      t.tex.oc = none ∧ t.tex.tasks = s.tex.tasks ∧ t.landing = s.landing) ∧
    (s.tex.stopping = true → (allTasks.any fun k => (s.task k).isOpen || (s.task k).toPublish) = false →
      Does .stopComplete s fun t => t.progState = 0 ∧ t.tex.stopping = false ∧ ∀ k : Fin 256, (t.task k).wait = none) ∧
    (∀ k : Fin 256, s.tstate k = stSnap → Does (.snapshotComplete k) s fun t => t.tstate k = stReady ∧ t.landing = s.landing ∧
      (t.task k).readyNo = s.tex.readyNo ∧ t.tex.readyNo = s.tex.readyNo + 1) ∧
    (∀ (k : Fin 256) (n : Nat), (s.task k).toPublish = true →
      ((s.task k).desc.nout ≤ (s.task k).pubNext + n → Does (.publish k n) s fun t =>
        t = (s.advanceTo (s.task k).pubAt).publish k ∧ (t.task k).isOpen = false ∧ (t.task k).toPublish = false ∧
          t.bit Reg.TEX_TSTAT_RUNNING k = false) ∧
      ((s.task k).pubNext + n < (s.task k).desc.nout → Does (.publish k n) s fun t =>
        (t.task k).pubNext = (s.task k).pubNext + n ∧ (t.task k).toPublish = true ∧ t.tstate k = s.tstate k)) ∧
    (∀ f : Fin 1024,
      let x := s.forceShadow f
      ((x.act && s.tex.forces.any fun kf => kf.1 != f && kf.2.act && kf.2.out == x.out && kf.2.addr == x.addr) = false →
        Does (.forceCommit f) s fun t => t.force f = x ∧ t.bit Reg.TEX_FCTL_PEND f = false ∧
          ∀ g : Nat, g ≠ f → t.force g = s.force g) ∧
      ((x.act && s.tex.forces.any fun kf => kf.1 != f && kf.2.act && kf.2.out == x.out && kf.2.addr == x.addr) = true →
        Does (.forceCommit f) s fun t => t.bit Reg.TEX_FSTAT_DUPREJ = true ∧ t.tex = s.tex))

/-- A checkpoint starts with the areas of the tasks between cycles gathered; its timer starts one every CKPER × 100 ms; at
the time limit of a power failure it goes on without the rest, marked partial; and with every area gathered it is committed
(R183, R184, R268, R269). A restart in RUN clears items and, cold, the forces, and stands in RUN; a warm one without a
matching checkpoint is refused (R175, R185, R186, R206). -/
def Obligations.CheckpointsAndRestarts : Prop :=
  ∀ s : State,
    (s.progState ≠ 2 → s.tex.ck = none → Does .checkpoint s fun t => t.bit Reg.TEX_CKSTAT_BUSY = true ∧
      ∃ ck, t.tex.ck = some ck ∧ ck.startAt = s.time.edge ∧ ck.powerFail = false ∧ ck.part = false ∧
        ∀ k ∈ ck.need, (s.task k).isOpen = true ∨ (s.task k).toPublish = true) ∧
    (s.rd Reg.TEX_CKCFG_CKPER ≠ 0 → s.progState ≠ 2 → s.tex.ck = none →
      s.time.edge ≤ s.tex.ckTimer + s.rd Reg.TEX_CKCFG_CKPER * 100 * edgesPerMs → Does .checkpointTimer s fun t =>
        t.tex.ckTimer = s.tex.ckTimer + s.rd Reg.TEX_CKCFG_CKPER * 100 * edgesPerMs ∧ t.time.edge = t.tex.ckTimer ∧
          t.bit Reg.TEX_CKSTAT_BUSY = true) ∧
    (∀ ck : CkSt, s.tex.ck = some ck → ck.powerFail = true → ck.need ≠ [] → s.time.edge ≤ ck.startAt + 2 * edgesPerMs →
      Does .checkpointGatherTimeout s fun t => t.time.edge = ck.startAt + 2 * edgesPerMs ∧ ∃ x, t.tex.ck = some x ∧ x.need = [] ∧
        x.part = true ∧ x.areas.map (·.task) = ck.areas.map (·.task) ++ ck.need) ∧
    (∀ ck : CkSt, s.tex.ck = some ck → ck.need = [] → Does .checkpointCommit s fun t => t.tex.ck = none ∧
      t.bit Reg.TEX_CKSTAT_BUSY = false ∧ t.bit Reg.TEX_CKSTAT_PARTIAL = ck.part ∧
      t.rd Reg.TEX_CKTLO_HT + t.rd Reg.TEX_CKTHI_HT * 2 ^ 32 = s.htime) ∧
    (s.progState = 1 → Does .coldRestart s fun t => t.progState = 1 ∧ t.tex.items = [] ∧ t.tex.forces = []) ∧
    (let u := ((s.restartClear true).reloadCode).initAll.newestSlot;
      s.progState = 1 →
      (u.1 = none → Does .warmRestart s fun t => t.progState = 0 ∧ t.bit Reg.TEX_PSTAT_WARMREJ = true) ∧
      (∀ k, u.1 = some k → u.2.retMatch k = true → Does .warmRestart s fun t => t.progState = 1 ∧ t.tex.items = []) ∧
      (∀ k, u.1 = some k → u.2.retMatch k = false → Does .warmRestart s fun t => t.progState = 0 ∧
        t.bit Reg.TEX_PSTAT_WARMREJ = true))

/-- An online change whose checks and code load succeed is armed with its time limit, one that fails is refused with its
cause; armed without a cyclic task it switches at once, toggling the bank, with one at a deadline of its ring; at the limit, or on ABORT, it is refused
(R181, R182). -/
def Obligations.OnlineChangeCommands : Prop :=
  ∀ s : State,
    (let aff := s.ocTasks
      let a := (s.wrB Reg.TEX_OCCTL_ARM true).readDescs (aff.map fun k => (k, 1 - s.rd Reg.TEX_TCFG_BANK k))
      -- of a task that the change disables, the staged bank is looked at for LOADED alone
      let new := a.1.filter fun x => aff.contains x.task && kindEnabled (s.rd Reg.TEX_TCFG_KIND x.task)
      let kept := (allTasks.filter fun k => kindEnabled (s.task k).kind && !aff.contains k).map fun k => (⟨k, (s.task k).desc, false⟩ : TaskDesc)
      let run := (allTasks.filter fun k => kindEnabled (s.task k).kind).map fun k => (⟨k, (s.task k).desc, false⟩ : TaskDesc)
      let c := a.2.checkDescs (kept ++ new) new true
      let Refused := fun (cause : Nat) => Does .onlineChangeArm s fun t => t.tex.oc = none ∧ t.rd Reg.TEX_OCSTAT_CAUSE = cause ∧
        t.bit Reg.TEX_OCSTAT_REJ = true ∧ t.bit Reg.TEX_OCCTL_ARM = false
      let clean := (a.1.any fun x => !x.poison && !x.desc.loaded) = false ∧ (a.1.any fun x => x.poison) = false
      s.tex.oc = none →
      ((a.1.any fun x => !x.poison && !x.desc.loaded) = true → Refused 2) ∧
      ((a.1.any fun x => !x.poison && !x.desc.loaded) = false → (a.1.any fun x => x.poison) = true → Refused 4) ∧
      (clean → c.1 = 0 → (c.2.loadCode c.2.pool (run ++ new) new).1 = false → Refused 4) ∧
      (clean → c.1 = 0 → (c.2.loadCode c.2.pool (run ++ new) new).1 = true → Does .onlineChangeArm s fun t =>
        t.bit Reg.TEX_OCCTL_ARM = true ∧
        t.tex.oc = some (aff, s.time.edge + (if s.rd Reg.TEX_OCCTL_TMO = 0 then 1000 else s.rd Reg.TEX_OCCTL_TMO) * edgesPerMs)) ∧
      (clean → c.1 ≠ 0 → c.1 < 16 → Refused c.1)) ∧
    (∀ (k : Fin 256) (due : Nat), s.tex.oc = some ([k.val], due) → (s.task k).kind ≠ 1 → s.rd Reg.TEX_TCFG_KIND k ≠ 1 →
      (s.task k).isOpen = false → (s.task k).toPublish = false → Does .onlineChangeSwitch s fun t => t.tex.oc = none ∧
        t.bit Reg.TEX_OCSTAT_DONE = true ∧ t.bit Reg.TEX_OCCTL_ARM = false ∧ t.rd Reg.TEX_TCFG_BANK k = 1 - s.rd Reg.TEX_TCFG_BANK k ∧
        (t.task k).kind = s.rd Reg.TEX_TCFG_KIND k) ∧
    (∀ (k : Fin 256) (aff : List Nat) (due : Nat), s.tex.oc = some (aff, due) →
      aff.find? (fun x => (s.task x).kind == 1 || s.rd Reg.TEX_TCFG_KIND x == 1) = some k.val →
      let n := if (s.task k).kind = 1 then (s.task k).ring else s.rd Reg.TEX_TCFG_RING k
      exec .onlineChangeSwitch s = .next (s.inputDeadline n 512) ∧
      ((s.ring n).live = true → (s.ring n).begun = true → (s.ring n).dDone = false →
        Does .onlineChangeSwitch s fun t => (t.ring n).dDone = true)) ∧
    (∀ (aff : List Nat) (due : Nat), s.tex.oc = some (aff, due) →
      (s.time.edge ≤ due → Does .onlineChangeTimeout s fun t => t.tex.oc = none ∧ t.rd Reg.TEX_OCSTAT_CAUSE = 1 ∧ t.time.edge = due ∧
        t.bit Reg.TEX_OCSTAT_REJ = true ∧ t.landing = s.landing) ∧
      (Does .onlineChangeAbort s fun t => t.tex.oc = none ∧ t.rd Reg.TEX_OCSTAT_CAUSE = 6 ∧ t.bit Reg.TEX_OCSTAT_REJ = true ∧
        t.time = s.time ∧ t.tex.tasks = s.tex.tasks))

/-! ### Dispatcher (R190 to R213) -/

/-- The first READY task gets the lowest idle engine with its registers clear and pc at its entry; without one it takes the
engine of its victim, which is READY again (R190, R191, R192, R217, R223). -/
def Obligations.DispatchAndPreemption : Prop :=
  ∀ (k : Fin 256) (e : Fin 8) (s : State), (s.task k).hasCtx = false →
    (∀ l, s.readyOrder = k.val :: l → s.idleFor k = some e.val → Does .dispatch s fun t => (t.eng e).busy = true ∧ (t.eng e).task = k ∧
      t.tstate k = stRun ∧ t.rd Reg.TEX_DSTATE_ENG k = e ∧ (t.eng e).ctx.g = [] ∧ (t.eng e).ctx.tags = 0#32 ∧
      (t.eng e).ctx.pc = BitVec.ofNat 32 ((s.task k).desc.entry * 4) ∧ ∀ f : Nat, f ≠ e → t.eng f = s.eng f) ∧
    (∀ v : Fin 256, s.readyOrder = [k.val] → s.idleFor k = none → s.victimFor k = some e.val → (s.eng e).task = v → v ≠ k →
      (s.fenceDone e).ctxSavable v = true → s.tex.items = [] → Does .preempt s fun t =>
        (t.eng e).busy = true ∧ (t.eng e).task = k ∧ t.tstate k = stRun ∧ t.tstate v = stReady ∧ (t.task v).hasCtx = true ∧
          (t.task v).preempted = true) ∧
    (s.readyOrder = [] → exec .dispatch s = .next s ∧ exec .preempt s = .next s)

/-- Event flags of a task set and clear at once in normal mode, and wait for the boundary in deterministic mode (R194, R211);
at a boundary every wait and delay that expires there ends, a wait with R = 0 and TOUT, or staged in deterministic mode, a delay READY
(R195, R199, R200); a boundary applies what was held before it (R211);
the counters clear. -/
def Obligations.FlagsTimeoutsAndBoundaries : Prop :=
  ∀ (k : Fin 256) (mask : Word) (s : State), s.replaying = false →
    (s.det = false → (s.task k).wait = none →
      (Does (.eflagSet k mask) s fun t => t.flags k = Nat.lor (s.flags k) mask.toNat % 2 ^ 32 ∧ t = { s with regs := t.regs }) ∧
      (Does (.eflagClear k mask) s fun t => t.flags k = (s.flags k - Nat.land (s.flags k) mask.toNat) % 2 ^ 32 ∧
        t = { s with regs := t.regs })) ∧
    (s.det = true →
      (Does (.eflagSet k mask) s fun t => t.regs = s.regs ∧
        t.tex.held = s.tex.held ++ [⟨s.dtick, 4, 0, s.tex.arrival, .setF k mask.toNat⟩]) ∧
      (Does (.eflagClear k mask) s fun t => t.regs = s.regs ∧
        t.tex.held = s.tex.held ++ [⟨s.dtick, 4, 0, s.tex.arrival, .clrF k mask.toNat⟩])) ∧
    (∀ (w : WaitSt) (j rd : Nat), (s.task k).wait = some w → w.due = some j → w.rd = some rd → s.tstate k = stWait → s.det = false →
      exec (.waitTimeout k) s = .next ((s.advanceTo (j * 1000)).expireAll j) ∧
      ((allTasks.filter fun m => s.expiresAt m == some j) = [k.val] → w.holds (s.flags k) = false →
      Does (.waitTimeout k) s fun t => t.tstate k = stReady ∧ t.bit Reg.TEX_DSTATE_TOUT k = true ∧
        t.rd Reg.TEX_DREL_R k = 0 ∧ (t.task k).wait = none ∧ (t.task k).pendRd = some (rd, 0#32) ∧ t.flags k = s.flags k)) ∧
    (∀ (w : WaitSt) (j : Nat), (s.task k).wait = some w → w.due = some j → s.tstate k = stWait → s.det = true →
      (allTasks.filter fun m => s.expiresAt m == some j) = [k.val] → Does (.waitTimeout k) s fun t =>
        t.tex.held = s.tex.held ++ [⟨t.dtick, 0, k, s.tex.arrival, .expiry k⟩] ∧ t.tstate k = stWait) ∧
    (∀ j : Nat, (s.task k).delayDue = some j → s.tstate k = stDelay →
      exec (.delayExpiry k) s = .next ((s.advanceTo (j * 1000)).expireAll j) ∧
      ((allTasks.filter fun m => s.expiresAt m == some j) = [k.val] → Does (.delayExpiry k) s fun t => t.tstate k = stReady ∧
        (t.task k).delayDue = none ∧ t.landing = s.landing)) ∧
    (let u := s.advanceTo ((s.dtick + 1) * 1000);
      s.hif.cmds = [] → s.tly.deferred = [] →
      (s.det = false → exec .tickBoundary s = .next u) ∧
      (∀ h : HeldEffect, s.det = true → s.tex.held = [h] → h.stamp < u.dtick → h.eff = .setF k mask.toNat → s.tex.items = [] →
        (s.task k).wait = none → Does .tickBoundary s fun t => t.flags k = Nat.lor (s.flags k) mask.toNat % 2 ^ 32 ∧ t.tex.held = [])) ∧
    (Does .dispatchClrcnt s fun t => t.rd Reg.TEX_DCNT_RETURN = 0 ∧ t.rd Reg.TEX_DCNT_POSTREJ = 0 ∧ t = { s with regs := t.regs })

/-- The prefetch slot of a member takes the group's next item (R207). An idle engine that leaves or faults is a member no
longer, a fault with its cause; one that joins is tested, and loaded and clean waits for the boundary at which it is a
member again, in both modes (R208, R209, R211, R244). -/
def Obligations.SlotsAndEnginePool : Prop :=
  ∀ (e : Fin 8) (s : State),
    (∀ i : Item, (s.eng e).busy = true → s.det = false → s.bit Reg.TEX_DCFG_GEN (s.eng e).task = true →
      s.bit Reg.TEX_GCFG_NOSLOT (s.rd Reg.TEX_DCFG_GRP (s.eng e).task) = false →
      (s.tex.items.filter fun x => x.place == .slot (s.eng e).task).length < 2 →
      (s.nextHead (s.rd Reg.TEX_DCFG_GRP (s.eng e).task)).1 = some i → Does (.slotFill e) s fun t =>
        t.tex.items = s.tex.items.map fun x => if x.cell = i.cell then { x with place := .slot (s.eng e).task } else x) ∧
    (s.isMember e = true → (s.eng e).busy = false →
      (Does (.engineLeave e) s fun t => t.isMember e = false ∧ (∀ f : Fin 8, f ≠ e → t.isMember f = s.isMember f) ∧ t.landing = s.landing) ∧
      (∀ (c : Fin 4) (w : Nat), c ≠ 0 → Does (.engineFault e c w) s fun t => t.isMember e = false ∧ t.rd Reg.TEX_EFLT_CAUSE e = c ∧
        bitAt (t.rd Reg.TEX_EPOOL_FAULT) e = true)) ∧
    (s.isMember e = false → bitAt (s.rd Reg.TEX_EPOOL_TESTING) e = false → s.tex.joining.contains e.val = false →
      Does (.engineJoin e) s fun t => bitAt (t.rd Reg.TEX_EPOOL_TESTING) e = true ∧ t.isMember e = false ∧ t = { s with regs := t.regs }) ∧
    (bitAt (s.rd Reg.TEX_EPOOL_TESTING) e = true →
      ((allTasks.filter fun k => kindEnabled (s.kindInUse k) && s.inMask k e) = [] → Does (.engineTestDone e none) s fun t => bitAt (t.rd Reg.TEX_EPOOL_TESTING) e = false ∧
        t.tex.joining.contains e.val = true) ∧
      (∀ b : Bool × Nat, Does (.engineTestDone e (some b)) s fun t =>
        bitAt (t.rd Reg.TEX_EPOOL_TESTING) e = false ∧ bitAt (t.rd Reg.TEX_EPOOL_FAULT) e = true ∧ t.tex = s.tex)) ∧
    (s.tex.joining.contains e.val = true → s.det = false → Does (.enginePoolEntry e) s fun t =>
      t.isMember e = true ∧ t.tex.joining.contains e.val = false) ∧
    (s.tex.joining.contains e.val = true → s.det = true → s.replaying = false → s.hif.cmds = [] → s.tly.deferred = [] →
      s.dtick < (s.advanceTo ((s.dtick + 1) * 1000)).dtick → Does (.enginePoolEntry e) s fun t =>
        t.isMember e = true ∧ t.tex.joining.contains e.val = false)

/-! ### Host interface (R270 to R290) -/

/-- The rings: a valid ring starts with its count at 0, an invalid one shows CFGERR; one that is cleared stops once its command in
progress is done, a held command ends ABORTED; a failed one stops and tells the host (R277, R278). -/
def Sys2Proof.Claims.HostRings : Prop :=
  ∀ (r : Fin 42) (s : State),
    (s.bit Reg.HIF_RCFG_EN r = false →
      (s.hostRingValid r = true → ∃ w : State, w.bit Reg.HIF_RCFG_EN r = true ∧ w.bit Reg.HIF_RSTAT_RUN r = true ∧
        w.bit Reg.HIF_RSTAT_CFGERR r = false ∧ w.rd Reg.HIF_RCNT_CNT r = 0 ∧ w.hostCount r = 0 ∧ w.landing = s.landing ∧
        -- what waited for CPL goes on; a record stream says whether an entry waits for it
        exec (.hostRingEnable r) s = .next (if r = 1 then w.hifRun else if 34 ≤ r.val then w.rsWait (r - 34) else w)) ∧
      (s.hostRingValid r = false → Does (.hostRingEnable r) s fun t => t.bit Reg.HIF_RCFG_EN r = false ∧
        t.bit Reg.HIF_RSTAT_CFGERR r = true ∧ t = { s with regs := t.regs })) ∧
    ((r = 0 → ∀ c ∈ s.hif.cmds.take 1, c.posting = false ∧ c.held = false ∧ c.moved = none) →
      Does (.hostRingDisable r) s fun t => t.bit Reg.HIF_RCFG_EN r = false ∧ t.bit Reg.HIF_RSTAT_RUN r = false ∧
        (r = 0 → t.hif.cmds = []) ∧ t.landing = s.landing) ∧
    (∀ (c : HifCmdSt) (l : List HifCmdSt), s.hif.cmds = c :: l → r = 0 →
      (c.posting = true → Does (.hostRingDisable r) s fun t => t.bit Reg.HIF_RCFG_EN r = false ∧
        t.bit Reg.HIF_RSTAT_RUN r = s.bit Reg.HIF_RSTAT_RUN r ∧ t.hif.cmds = [c] ∧ t.hif.stopping = true ∧ t.landing = s.landing) ∧
      (c.posting = false → c.held = true → Does (.hostRingDisable r) s fun t => t.bit Reg.HIF_RSTAT_RUN r = false ∧
        t.hif.cmds = [] ∧ t.rd Reg.HIF_RCNT_CNT 0 = (s.rd Reg.HIF_RCNT_CNT 0 + 1) % 2 ^ 32 ∧ t.landing = s.landing) ∧
      (c.posting = false → c.held = false → c.moved ≠ none →
        exec (.hostRingDisable r) s = .next (((s.wrB Reg.HIF_RCFG_EN false r).cmdPerform c).hostRingStop 0))) ∧
    (∀ c : Fin 16, s.bit Reg.HIF_RSTAT_RUN r = true → Does (.hostRingError r c) s fun t => t.bit Reg.HIF_RSTAT_RUN r = false ∧
      t.bit Reg.HIF_RSTAT_ERR r = true ∧ t.rd Reg.HIF_RSTAT_ERRCAUSE r = c ∧ t.bit Reg.HIF_RCFG_EN r = s.bit Reg.HIF_RCFG_EN r ∧
      ∃ p q : List HostOut, t.hostOut = s.hostOut ++ p ++ .aer c :: q)

/-- A doorbell of a running ring moves the host's count, an early or impossible one is ignored and counted; one rung while BAR0
writes wait for a tick boundary waits behind them, and in D3hot it is an Unsupported Request (R272, R273, R279). -/
def Sys2Proof.Claims.Doorbells : Prop :=
  ∀ (r : Fin 42) (c : Word) (s : State),
    (s.hif.d3 = true → exec (.doorbell r c []) s = .next { s with hostOut := s.hostOut ++ [.unsupported] }) ∧
    (s.hif.d3 = false → s.tly.deferred ≠ [] → exec (.doorbell r c []) s = .next
      { s with tly := { s.tly with deferred := s.tly.deferred ++ [(0xF0000 + 4 * r.val, c, [])] } }) ∧
    (s.hif.d3 = false → s.tly.deferred = [] →
      let fresh := sInt 32 (c.toNat + 2 ^ 32 - s.hostCount r)
      let ahead := sInt 32 (c.toNat + 2 ^ 32 - s.rd Reg.HIF_RCNT_CNT r)
      let s1 : State := { s with hif := { s.hif with host := tabPut 0 s.hif.host r c.toNat, earlyTold := false } }
      (s.bit Reg.HIF_RSTAT_RUN r = false → Does (.doorbell r c []) s fun t => t.hostCount r = s.hostCount r ∧
        t.rd Reg.HIF_DBIGN_EARLY = satAdd 16 (s.rd Reg.HIF_DBIGN_EARLY) 1 ∧ t.rd Reg.HIF_DBLAST_RING = r) ∧
      (s.bit Reg.HIF_RSTAT_RUN r = true → c.toNat = s.hostCount r → exec (.doorbell r c []) s = .next s) ∧
      (s.bit Reg.HIF_RSTAT_RUN r = true → c.toNat ≠ s.hostCount r →
        (0 ≤ fresh → hostProduces r = true → ahead ≤ s.ringSlots r →
          Does (.doorbell r c []) s fun t => t.hostCount r = c.toNat ∧ (r = 0 → t = s1)) ∧
        (0 ≤ fresh → hostProduces r = false → ahead ≤ 0 →
          exec (.doorbell r c []) s = .next (if r = 1 then s1.hifRun else s1.rsWait (r - 34))) ∧
        (fresh < 0 → Does (.doorbell r c []) s fun t => t.hostCount r = s.hostCount r ∧
          t.rd Reg.HIF_DBIGN_BAD = satAdd 16 (s.rd Reg.HIF_DBIGN_BAD) 1 ∧ t.bit Reg.HIF_RSTAT_DBBAD r = true)))

/-- Event entries and interrupts go out (R284, R286); event F resets this island alone (R272); configuration requests are
answered: with CRS before the island is ready, the identity, the size of a BAR, the capabilities (R270, R271, R273). -/
def Sys2Proof.Claims.HostLink : Prop :=
  ∀ (r : Fin 42) (s : State),
    (∀ (e ht : Nat) (l : List CplEntry), s.hif.waits = .event e ht :: l → s.ringRoom 1 = true →
      (∃ w : State, exec .eventEntryWrite s = .next w.hifRun ∧ w.hif.waits = l ∧ w.hif.cmds = s.hif.cmds ∧
        w.rd Reg.HIF_RCNT_CNT 1 = (s.rd Reg.HIF_RCNT_CNT 1 + 1) % 2 ^ 32 ∧ w.landing = s.landing ∧
        ∃ q : List HostOut, w.hostOut = s.hostOut ++ .write (s.slotAddr 1 (s.rd Reg.HIF_RCNT_CNT 1)) (eventEntry e ht) :: q) ∧
      (l = [] → s.hif.cmds = [] → Does .eventEntryWrite s fun t => t.hif.waits = [] ∧ t.landing = s.landing ∧
        t.rd Reg.HIF_RCNT_CNT 1 = (s.rd Reg.HIF_RCNT_CNT 1 + 1) % 2 ^ 32)) ∧
    (tabAt 0 s.hif.unsig r ≠ 0 → s.bit Reg.HIF_RCFG_IEN r = true → max 1 (s.rd Reg.HIF_RIMOD_ICNT r) ≤ tabAt 0 s.hif.unsig r →
      s.hif.msixOn = true → s.hif.msixMask = false → s.bit Reg.MSIX_WORD (s.rd Reg.HIF_RCFG_VEC r) 3 = false →
      Does (.interrupt r) s fun t => tabAt 0 t.hif.unsig r = 0 ∧
        ∃ q : List HostOut, t.hostOut = s.hostOut ++ q ++ [.msi (s.rd Reg.MSIX_WORD (s.rd Reg.HIF_RCFG_VEC r) 0
          + s.rd Reg.MSIX_WORD (s.rd Reg.HIF_RCFG_VEC r) 1 * 2 ^ 32) (s.rd Reg.MSIX_WORD (s.rd Reg.HIF_RCFG_VEC r) 2)]) ∧
    (Does .hifClrcnt s fun t => t.rd Reg.HIF_DBIGN_EARLY = 0 ∧ t.rd Reg.HIF_DBIGN_BAD = 0 ∧ t = { s with regs := t.regs }) ∧
    (Does .functionLevelReset s fun t => t.hif = {} ∧ t.bit Reg.HIF_RSTAT_RUN r = false ∧ t.rings = s.rings ∧ t.landing = s.landing ∧
      t.tex = s.tex ∧ t.time = s.time ∧
      ∀ (f : Field) (i j : Nat), ¬ f.key i j / 2097152 ∈ [1, 13, 15] → t.rd f i j = s.rd f i j) ∧
    (s.bit Reg.PWR_BSTAT_BLAZE = true → Does .hifReady s fun t => t.bit Reg.HIF_STAT_READY = true ∧ t = { s with regs := t.regs }) ∧
    (Does (.configRequest .unsupported) s fun t => t = { s with hostOut := s.hostOut ++ [.unsupported] }) ∧
    (s.bit Reg.HIF_STAT_READY = false → ∀ q : CfgReq, q ≠ .unsupported →
      Does (.configRequest q) s fun t => t = { s with hostOut := s.hostOut ++ [.crs] }) ∧
    (s.bit Reg.HIF_STAT_READY = true →
      (Does (.configRequest (.read 0)) s fun t => t.hostOut = s.hostOut ++ [.config 0x48721F7E#32] ∧ t.regs = s.regs ∧ t.hif = s.hif) ∧
      (∀ v : Word, Does (.configRequest (.write 4 v)) s fun t => t.hostOut = s.hostOut ++ [.configDone] ∧
        t.hif.bar0 % 2 ^ 32 = v.toNat / 0x100000 * 0x100000 ∧ t.hif.bar0 / 2 ^ 32 = s.hif.bar0 / 2 ^ 32 ∧ t.regs = s.regs) ∧
      (∀ (ext : Bool) (id : BitVec 16), hasCapability ext id.toNat = false →
        exec (.configRequest (.capability ext id 0)) s = .next { s with hostOut := s.hostOut ++ [.absent] }) ∧
      (Does (.configRequest (.power true)) s fun t => t.hif = { s.hif with d3 := true } ∧ t.regs = s.regs))

/-- The host's rings: enabled, disabled and failed (R277, R278). Doorbells move the host's count, or are ignored and counted
(R272, R273, R279). Event entries and interrupts go out (R284, R286); event F resets this island alone (R272); configuration
requests are answered (R270, R271). -/
def Obligations.HostRingCommands : Prop := HostRings ∧ Doorbells ∧ HostLink

/-- The command ring stands ready for one command: it and CPL run, nothing waits, CPL has room, the host's count covers it, the host
interface has no Landing request outstanding, and no source is recorded or replayed. -/
abbrev Sys2Proof.Claims.CmdReady (s : State) : Prop :=
  s.bit Reg.HIF_RSTAT_RUN 0 = true ∧ s.bit Reg.HIF_RSTAT_RUN 1 = true ∧ s.hif.stopping = false ∧ s.hif.cmds = [] ∧ s.hif.waits = [] ∧
    s.ringRoom 1 = true ∧ (s.hostCount 0 + 2 ^ 32 - s.rd Reg.HIF_RCNT_CNT 0) % 2 ^ 32 ≠ 0 ∧
    (s.lnd.waiting.all fun w => w.req.port.val != hifPort) = true ∧ s.replaying = false ∧ s.recorded 9 = false ∧ s.traced 9 = false

/-- The command has been fetched from its slot and has completed: none waits, the module's count of the ring is one on. -/
def Sys2Proof.Claims.Completed (s t : State) : Prop :=
  t.hif.cmds = [] ∧ t.rd Reg.HIF_RCNT_CNT 0 = (s.rd Reg.HIF_RCNT_CNT 0 + 1) % 2 ^ 32 ∧
    ∃ q : List HostOut, t.hostOut = s.hostOut ++ .read (s.slotAddr 0 (s.rd Reg.HIF_RCNT_CNT 0)) 32 :: q

/-- A completion for the descriptor with a status went to the host (R284). -/
def Sys2Proof.Claims.Reported (s t : State) (d : HifCmd) (status : Nat) : Prop :=
  ∃ (a : Nat) (b : List Byte) (p q : List HostOut), t.hostOut = s.hostOut ++ p ++ .write a b :: q ∧
    b.take 4 = leBytes 2 d.tag.toNat ++ leBytes 1 d.opc.toNat ++ leBytes 1 status

/-- A command of the ring that may run has its effect and completes: with FLAGS 0 it leaves no completion, with IEC it does; a
reserved opcode completes with BADOPC and a range beyond the Landing with RANGE (R280, R281, R282). -/
def Sys2Proof.Claims.CommandsComplete : Prop :=
  (∀ d : HifCmd, cmdOf d.raw = d) ∧
  ∀ (x : HifCmd) (s : State), CmdReady s →
    let la := x.laddr.toNat
    let raw := fun (opc : BitVec 8) => ({ x with opc := opc } : HifCmd).raw
    (x.flags = 0#8 → Does (.nop (raw 0)) s fun t => Completed s t ∧ t.landing = s.landing) ∧
    (x.flags = 1#8 → Does (.nop (raw 0)) s fun t => Completed s t ∧ Reported s t { x with opc := 0 } 0) ∧
    (∀ opc : BitVec 8, 6 < opc.toNat → Does (.nop (raw opc)) s fun t => Completed s t ∧ Reported s t { x with opc := opc } 1 ∧
      t.landing = s.landing) ∧
    (x.flags = 0#8 → la % 8 = 0 → lndSize < la + 8 →
      Does (.wr64 (raw 1)) s fun t => Completed s t ∧ Reported s t { x with opc := 1 } 3 ∧ t.landing = s.landing) ∧
    (x.flags = 0#8 → la % 8 = 0 → la + 8 ≤ lndSize → s.retTouched la 8 = [] →
      Does (.wr64 (raw 1)) s fun t => Completed s t ∧ t.landing = s.putBoth (s.lndCw la) ⟨x.data, false⟩ ∧ t.mram = s.mram) ∧
    (x.flags = 0#8 → la % 4 = 0 → la + 4 ≤ lndSize → s.onRetired la = false → (s.landing.decode (s.lndCw (la / 8 * 8))).1.poison = false →
      Does (.mwr32 (raw 2)) s fun t => Completed s t ∧
        t.landing = (s.lndMerge32 hifPort la x.mask.toNat x.data.toNat).landing ∧ t.mram = (s.lndMerge32 hifPort la x.mask.toNat x.data.toNat).mram) ∧
    (∀ words : List (BitVec 64 × Bool), x.flags = 0#8 → la % 8 = 0 → x.data.toNat % 8 = 0 → x.mask.toNat = 8 * words.length →
      words ≠ [] → x.mask.toNat ≤ 1048576 → la + x.mask.toNat ≤ lndSize → s.movable la words.length = words.length →
      (∀ w ∈ words, w.2 = false) → Does (.copyin (raw 3) words false none) s fun t => Completed s t ∧
        t.landing = (s.lndWriteCws hifPort la (words.map fun w => ⟨w.1, false⟩)).landing) ∧
    (∀ n : Nat, x.flags = 0#8 → la % 8 = 0 → x.data.toNat % 8 = 0 → x.mask.toNat = 8 * n → n ≠ 0 →
      x.mask.toNat ≤ 1048576 → la + x.mask.toNat ≤ lndSize → s.movable la n = n →
      let u := State.readSeq hifPort la n s
      Does (.copyout (raw 4) none none) s fun t => Completed s t ∧ t.landing = u.2.landing ∧
        (∃ p q : List HostOut, t.hostOut = s.hostOut ++ p ++ .write x.data.toNat (cwBytes u.1) :: q) ∧
        ((∃ w ∈ u.1, w.poison = true) → Reported s t { x with opc := 4 } 5)) ∧
    (x.flags = 0#8 → s.det = false → (s.task (x.arg.toNat % 256)).wait = none → Does (.cmdFset (raw 5)) s fun t => Completed s t ∧
      t.flags (x.arg.toNat % 256) = Nat.lor (s.flags (x.arg.toNat % 256)) (x.data.toNat % 2 ^ 32) % 2 ^ 32) ∧
    (x.flags = 0#8 → s.det = true → Does (.cmdPost (raw 6)) s fun t =>
      t.tex.held.length = s.tex.held.length + 1 ∧ t.hif.cmds.map (·.posting) = [true] ∧
      t.rd Reg.HIF_RCNT_CNT 0 = s.rd Reg.HIF_RCNT_CNT 0) ∧
    (x.flags = 0#8 → s.det = false →
      let p := s.postNow (x.arg.toNat % 4096) x.data.toNat false 4 0
      Does (.cmdPost (raw 6)) s fun t => Completed s t ∧ t.tex.items = p.2.tex.items ∧
        (p.1 ≠ 0 → Reported s t { x with opc := 6 } 8))

/-- Held to its hoist a command runs at that instant, and completes with NORING where the ring does not run (R283); a set-point
descriptor is written at its instant, one rung too late is discarded and counted (R287, R288). -/
def Sys2Proof.Claims.HeldCommandsComplete : Prop :=
  (∀ (c : HifCmdSt) (l : List HifCmdSt) (s : State), s.hif.cmds = c :: l → c.held = true → s.bit Reg.HIF_RSTAT_RUN 0 = true →
    let n := c.d.hring.toNat % 8
    let due := s.bit Reg.HST_RINGCTL_EN n = false ∨ sInt 32 (c.d.hnum.toNat + 2 ^ 32 - (s.ring n).hnum (s.ring n).next) ≤ 0
    (s.bit Reg.HST_RSTAT_RUN n = false → exec .athRelease s = .next ((s.complete c hsNoring none).hifRun) ∧
      (l = [] → s.ringRoom 1 = true → s.hif.waits = [] → Does .athRelease s fun t => t.hif.cmds = [] ∧ Reported s t c.d 10 ∧
        t.rd Reg.HIF_RCNT_CNT 0 = (s.rd Reg.HIF_RCNT_CNT 0 + 1) % 2 ^ 32 ∧ t.landing = s.landing)) ∧
    (s.bit Reg.HST_RSTAT_RUN n = true → due → exec .athRelease s = .next (s.hoistInstant n s.dio.ext 0)) ∧
    -- what the instant does to the held command
    (∀ k : Nat, sInt 32 (c.d.hnum.toNat + 2 ^ 32 - k) = 0 → s.athInstant n k = (s.cmdPerform c).hifRun) ∧
    (∀ k : Nat, sInt 32 (c.d.hnum.toNat + 2 ^ 32 - k) < 0 → s.athInstant n k = (s.complete c hsMissed (some k)).hifRun) ∧
    s.athStop n = (s.complete c hsNoring none).hifRun) ∧
  (∀ (r : Fin 32) (d : SpDesc) (l : List SpDesc) (s : State),
    let n := s.rd Reg.HIF_SPCFG_RING (r + 2)
    let k := (s.ring n).hnum (s.ring n).next
    tabAt [] s.hif.sps (r + 2) = d :: l →
    (s.bit Reg.HIF_RSTAT_RUN (r + 2) = true → sInt 32 (d.hnum + 2 ^ 32 - k) ≤ 0 →
      exec (.setpointPerform r) s = .next (s.hoistInstant n s.dio.ext 0)) ∧
    -- what the instant of hoist `h` at time `t` does to the stream
    (∀ h t : Nat, l = [] → d.rest = 0 → d.slot < s.rd Reg.HIF_SPCFG_NSLOT (r + 2) → d.hnum = h →
      (d.rang + 10000 ≤ t → tabAt [] (s.spInstant (r + 2) h t).hif.sps (r + 2) = [] ∧ (s.spInstant (r + 2) h t).landing =
        (s.srcWrite hifPort 9 (.hoist n h) false (s.rd Reg.HIF_SPBASE_BASE (r + 2) * 32 + 32 * d.slot)
          ((upFrom 0 4).map fun i => (⟨d.raw.extractLsb' (64 * i) 64, false⟩ : Cw))).landing) ∧
      (t < d.rang + 10000 → tabAt [] (s.spInstant (r + 2) h t).hif.sps (r + 2) = [] ∧ (s.spInstant (r + 2) h t).landing = s.landing ∧
        (s.spInstant (r + 2) h t).rd Reg.HIF_SPCNT_LATE (r + 2) = satAdd 16 (s.rd Reg.HIF_SPCNT_LATE (r + 2)) 1)))

/-- BAR2: an aligned read of a codeword delivers its bytes, a write of all eight replaces it (R274); in D3hot both are Unsupported
Requests (R272). -/
def Sys2Proof.Claims.Bar2Accesses : Prop :=
  ∀ (off : BitVec 26) (s : State),
    (s.hif.d3 = true → Does (.bar2Read off 8) s (fun t => t = { s with hostOut := s.hostOut ++ [.unsupported] }) ∧
      Does (.bar2Write off []) s (fun t => t = { s with hostOut := s.hostOut ++ [.unsupported] })) ∧
    (s.hif.d3 = false → off.toNat % 8 = 0 → off.toNat + 8 ≤ lndSize → s.retTouched off.toNat 8 = [] →
      (s.lnd.waiting.all fun w => w.req.port.val != hifPort) = true →
      (let u := s.readCw .land (s.lndCw off.toNat) hifPort;
        u.1.poison = false → Does (.bar2Read off 8) s fun t =>
          t = { u.2 with hostOut := u.2.hostOut ++ [.completion (leBytes 8 u.1.data.toNat) false] }) ∧
      (∀ b : Vector Byte 8, Does (.bar2Write off (b.toList.map some)) s fun t =>
        t.landing = s.putBoth (s.lndCw off.toNat) ⟨BitVec.ofNat 64 (leNat b.toList), false⟩ ∧ t.regs = s.regs ∧ t.hostOut = s.hostOut))

/-- A command of the command ring that may run has its effect and completes, or completes with the status of what is wrong (R280,
R281, R282); held to its hoist it runs at that instant, or completes with NORING where the ring does not run (R283, R284). A
set-point descriptor is written at its instant (R287, R288). BAR2 reads and writes the Landing (R274). -/
def Obligations.HostCommands : Prop := CommandsComplete ∧ HeldCommandsComplete ∧ Bar2Accesses

/-! ### Networks and time (R291 to R317) -/

/-- A PTP message of the engine's domain gives the ports their states, and an Announce gives GMID its grandmaster; a change of it
under a SLAVE port enters holdover (R294, R296, R298). A management message and one of another domain are discarded, and an event
message is timestamped (R294, R295). -/
def Sys2Proof.Claims.PtpMessages : Prop :=
  ∀ (p : Fin 4) (kind : Fin 16) (domain : BitVec 8) (err : Fin 9) (r : PtpResult) (s : State),
    s.ptpOn p = true → s.bit Reg.NET_PSTAT_LINK p = true →
    let m := Instr.ptpMessageReceive p kind domain err r
    (kind.val = 13 ∨ domain.toNat ≠ s.ptpDomain → Does m s fun t => t.regs = s.regs ∧ t.time = s.time ∧
      (kind.val < 4 → tabAt 0 t.net.ptpRx p = uOf 64 (s.rxStamp err))) ∧
    (kind.val ≠ 13 → domain.toNat = s.ptpDomain →
      (kind.val ≠ 11 → Does m s fun t => t.gmId = s.gmId ∧ t.time = s.time ∧ t.landing = s.landing ∧
        (∀ q : Fin 4, s.ptpOn q = true → t.ptpState q = s.ptpAllowed q (bitsOf r.states.toNat (4 * q) 4)) ∧
        (∀ d, r.delay = some d → s.delayKind kind = true → t.rd Reg.NET_SRVDLY_DLY = d.toNat) ∧
        (kind.val < 4 → tabAt 0 t.net.ptpRx p = uOf 64 (s.rxStamp err))) ∧
      (kind.val = 11 → s.ptpSlavePort = none ∨ s.gmId = r.gm.toNat → Does m s fun t => t.gmId = r.gm.toNat ∧
        t.bit Reg.HST_TSTAT_HOLDOVER = s.bit Reg.HST_TSTAT_HOLDOVER ∧ t.time = s.time ∧ t.landing = s.landing) ∧
      (kind.val = 11 → s.ptpSlavePort ≠ none → s.gmId ≠ r.gm.toNat → Does m s fun t => t.gmId = r.gm.toNat ∧
        t.bit Reg.NET_SRVSTAT_GMCHG = true ∧ t.bit Reg.HST_TSTAT_HOLDOVER = true ∧ t.bit Reg.NET_SRVSTAT_LOCKED = false ∧
        t.net.qual = some 0))

/-- A message the engine sends goes out with its stamps and its clock's class when it is due, a Sync and a Pdelay_Resp with their
follow-up, unless a guard holds it (R293, R294, R295, R298); a listening port is placed after its time (R296). -/
def Sys2Proof.Claims.PtpSending : Prop :=
  ∀ (p : Fin 4) (k : Fin 16) (s : State), s.ptpOn p = true → s.bit Reg.NET_PSTAT_LINK p = true →
    (s.ptpSends p k = false → exec (.ptpTransmit p k) s = .next s) ∧
    (s.ptpSends p k = true →
      let u := s.advanceEdge (s.ptpDue p k)
      (u.inGuard p = true → Does (.ptpTransmit p k) s fun t => t.net.ptpPend = s.net.ptpPend ++ [(p.val, k.val)] ∧
        t = { u with net := t.net }) ∧
      (u.inGuard p = false → s.replaying = false → Does (.ptpTransmit p k) s fun t => t.time = u.time ∧ t.regs = u.regs ∧
        ∃ q : List NetOut, q.length = (if k.val = 0 ∨ k.val = 3 then 1 else 0) ∧ t.netOut = s.netOut ++ .ptp
          { port := p, kind := k, htime := u.htime, domain := u.ptpDomain
            cls := if u.bit Reg.HST_TSTAT_HOLDOVER then u.rd Reg.NET_PTPCLS_HCLASS else u.rd Reg.NET_PTPCLS_CLASS
            prio1 := u.rd Reg.NET_PTPCFG_PRIO1, prio2 := u.rd Reg.NET_PTPCFG_PRIO2, gm := u.gmId, ivl := u.kindIvl k } :: q)) ∧
    (∀ e : Nat, tabAt 0 s.net.listen p = e + 1 → Does (.listeningEnd p k) s fun t => t.ptpState p = k ∧
      tabAt 0 t.net.listen p = 0 ∧ t.landing = s.landing ∧ e + 3 * ivlEdges s.annIvl ≤ t.time.edge)

/-- A Sync shows the offset and, owning the rate, sets it by the proportional-integral law, slews where the offset is past
the threshold and a ring runs, and steps device time where none does; eight samples lock (R297); holdover begins at its time-out,
and ends after its qualified samples (R298). -/
def Sys2Proof.Claims.TimeServo : Prop :=
  (∀ (p : Fin 4) (origin : Int) (err : Fin 9) (l : BitVec 8) (s : State), s.ptpOn p = true → s.bit Reg.NET_PSTAT_LINK p = true →
    (s.ptpState p ≠ ptpSlave → Does (.syncReceive p origin err l) s fun t => t.regs = s.regs ∧ t.time = s.time ∧
      tabAt 0 t.net.ptpRx p = uOf 64 (s.rxStamp err)) ∧
    (s.ptpState p = ptpSlave → s.bit Reg.HST_TSTAT_SLEWBUSY = false → s.net.qual = none → s.bit Reg.HST_TCTL_SERVO = true →
      let o := s.syncOffset origin err
      let thr : Int := s.rd Reg.NET_SRVTHR_THR * 65536
      let of64 := fOfRatio b64 o 65536
      let i := clampSym integMax (add64 s.net.integ (mul64 (mul64 (mul64 (to64 (s.rd Reg.NET_SRVKI_KI)) of64) nano64) (pow2f l.toInt)))
      let x := fNeg b64 (add64 (mul64 (mul64 (to64 (s.rd Reg.NET_SRVKP_KP)) of64) nano64) i)
      (o.natAbs ≤ thr → Does (.syncReceive p origin err l) s fun t =>
        t.rdS Reg.NET_SRVOFS_OFS = clampI (-2147483648) 2147483647 (roundNs o) ∧ t.net.integ = i ∧
        t.rdS Reg.HST_RATE_RATE = clampI (-2147483648) 2147483647 (fRoundScaled b64 x 32) ∧ t.time = s.time) ∧
      (thr < o.natAbs → s.anyRing = true → Does (.syncReceive p origin err l) s fun t => t.bit Reg.NET_SRVSTAT_SLEWING = true ∧
        t.rdS Reg.HST_SLEW_SLEW = clampI (-2147483648) 2147483647 (-(roundNs o)) ∧ t.net.integ = s.net.integ ∧
        t.rd Reg.HST_RATE_RATE = s.rd Reg.HST_RATE_RATE) ∧
      (thr < o.natAbs → s.anyRing = false → Does (.syncReceive p origin err l) s fun t => t.net.integ = 0 ∧
        t.time = (s.stepBy (-(roundNs o))).time ∧ t.rd Reg.HST_RATE_RATE = s.rd Reg.HST_RATE_RATE))) ∧
  (∀ s : State,
    (Does .servoLock s fun t => t.bit Reg.NET_SRVSTAT_LOCKED = (s.bit Reg.NET_SRVSTAT_LOCKED || decide (8 ≤ s.net.lockRun)) ∧
      t = { s with regs := t.regs }) ∧
    (∀ b : Bool, s.ptpSlavePort ≠ none ∨ s.net.orphan = true → Does (.holdoverEnter b) s fun t =>
      t.bit Reg.HST_TSTAT_HOLDOVER = true ∧ t.bit Reg.NET_SRVSTAT_LOCKED = false ∧ t.net.qual = some 0 ∧ t.rings = s.rings ∧
      (if b then s.net.syncAt + 3 * ivlEdges s.net.syncIvl else s.net.annAt + 3 * ivlEdges s.annIvl) ≤ t.time.edge) ∧
    (∀ q : Nat, s.net.qual = some q → max 1 (s.rd Reg.NET_SRVCFG_HOLDQ) ≤ q → Does .holdoverExit s fun t =>
      t.bit Reg.HST_TSTAT_HOLDOVER = false ∧ t.net.qual = none ∧ t.time = s.time))

/-- PTP messages move the ports and the grandmaster, and go out when due (R293, R294, R295, R296, R298); the servo keeps device
time (R297), and holdover begins and ends (R298). -/
def Obligations.NetworkTimeCommands : Prop := PtpMessages ∧ PtpSending ∧ TimeServo

/-- A link change shows in the port's status and the Tally (R291); a frame of the side path is received without its tag into the slot
at RXPUT with the time, or dropped when the ring is full (R301); one with a bad FCS or length is counted (R291). -/
def Sys2Proof.Claims.LinksAndReceivedFrames : Prop :=
  (∀ (p : Fin 4) (s : State), s.bit Reg.NET_PCFG_EN p = true →
    (∀ up : Bool, s.bit Reg.NET_PSTAT_LINK p = up → exec (.linkChange p up) s = .next s) ∧
    (∀ up : Bool, s.bit Reg.NET_PSTAT_LINK p ≠ up → Does (.linkChange p up) s fun t =>
      t.bit Reg.NET_PSTAT_LINK p = up ∧ t.bit Reg.NET_PSTAT_LINKCHG p = true ∧ t.time = s.time ∧ t.landing = s.landing ∧
      (s.tly.queue.length < 64 →
        (t.tly.queue.drop s.tly.queue.length).map (fun e => (e.code, e.data.toNat % 65536)) = [(0x0906, p.val)])) ∧
    (s.bit Reg.NET_PSTAT_LINK p = true →
      (∀ (f : List Byte) (ok : Bool), ok = false ∨ f.length < 60 ∨ 1518 < f.length → Does (.sideFrameReceive p f ok) s fun t =>
        t.rd Reg.NET_PCNT_FCS p = satAdd Reg.NET_PCNT_FCS.w (s.rd Reg.NET_PCNT_FCS p) 1 ∧ t = { s with regs := t.regs }) ∧
      (∀ f : List Byte, 60 ≤ f.length → f.length ≤ 1518 →
        (s.netClass p (ethParse f) ≠ .side → exec (.sideFrameReceive p f true) s = .next s) ∧
        (s.netClass p (ethParse f) = .side →
          let put := tabAt 0 s.net.rxput p
          let r := s.lndWord netPort (s.sideAt p + 12)
          let u := r.2
          let b := padTo 60 (untag f)
          ((put + 2 ^ 32 - r.1.1) % 2 ^ 32 = 16 → Does (.sideFrameReceive p f true) s fun t =>
            t.bit Reg.NET_PSTAT_RXDROP p = true ∧ t = { u with regs := t.regs }) ∧
          ((put + 2 ^ 32 - r.1.1) % 2 ^ 32 ≠ 16 → Does (.sideFrameReceive p f true) s fun t =>
            tabAt 0 t.net.rxput p = (put + 1) % 2 ^ 32 ∧ t.landing = ((u.lndWrite netPort (s.sideAt p + 0x10000 + 2048 * (put % 16))
              (leBytes 2 b.length ++ leBytes 6 0 ++ leBytes 8 s.htime ++ leBytes 16 0 ++ b)).lndWrite netPort (s.sideAt p + 8)
                (leBytes 4 ((put + 1) % 2 ^ 32))).landing))))) ∧
  (∀ s : State,
    (Does .netClrcnt s fun t => (∀ p : Fin 4, t.rd Reg.NET_PCNT_FCS p = 0 ∧ t.rd Reg.NET_PCNT_TSOVF p = 0 ∧ t.rd Reg.NET_PRXD_DROP p = 0) ∧
      t.rd Reg.NET_PNCNT_LATEUP = 0 ∧ t.rd Reg.NET_PNCNT_BAD = 0 ∧ t = { s with regs := t.regs }) ∧
    (Does .discoveryClear s fun t => t.net.disc = [] ∧ t.rd Reg.NET_PNSTAT_DISC = 0 ∧ t.landing = s.landing))

/-- The side path sends the slots up to TXPUT in their order and moves TXGET past each (R299, R300): a slot of a length in range goes
out with the port's tag, one out of range, poisoned, or holding a PTP event message is skipped and counted (R295, R300); nothing goes
out in a guard (R293). -/
def Sys2Proof.Claims.SideTransmission : Prop :=
  ∀ (p : Fin 4) (s : State), s.bit Reg.NET_PCFG_EN p = true → s.bit Reg.NET_PSTAT_LINK p = true → s.bit Reg.NET_PCFG_SIDEEN p = true →
    (s.inGuard p = true → Does (.sideTransmit p) s fun t => p.val ∈ t.net.sidePend ∧ t.netOut = s.netOut ∧ t.landing = s.landing) ∧
    (s.inGuard p = false →
      let r := s.lndWord netPort (s.sideAt p)
      let get := tabAt 0 s.net.txget p
      (r.1.2 = true → exec (.sideTransmit p) s = .next r.2) ∧
      (r.1.2 = false → Does (.sideTransmit p) s fun t => ∃ (k : Nat) (fr : List (List Byte)), k ≤ 16 ∧ fr.length ≤ k ∧
        tabAt 0 t.net.txget p % 2 ^ 32 = (get + k) % 2 ^ 32 ∧ t.netOut = s.netOut ++ fr.map (NetOut.frame (2 ^ p.val)) ∧
        (tabAt 0 t.net.txget p = r.1.1 ∨ p.val ∈ t.net.sidePend ∨ k = 16)) ∧
      (r.1.2 = false → r.1.1 = get → exec (.sideTransmit p) s = .next r.2) ∧
      (r.1.2 = false → r.1.1 = (get + 1) % 2 ^ 32 → get < 2 ^ 32 →
        let slot := s.sideAt p + 0x1000 + 2048 * (get % 16)
        let h := r.2.lndBytes netPort slot 8
        let len := leNat (h.1.1.take 2)
        let d := h.2.lndBytes netPort (slot + 32) len
        (h.1.2 = false → 60 ≤ len → len ≤ 1518 → (ethParse d.1.1).ptpEvent = false → Does (.sideTransmit p) s fun t =>
          t.netOut = s.netOut ++ [.frame (2 ^ p.val) (padTo 60 (d.1.1.take 12 ++ s.portTag p ++ d.1.1.drop 12))] ∧
          tabAt 0 t.net.txget p = r.1.1) ∧
        (h.1.2 = true ∨ len < 60 ∨ 1518 < len ∨ (ethParse d.1.1).ptpEvent = true → Does (.sideTransmit p) s fun t =>
          t.netOut = s.netOut ∧ tabAt 0 t.net.txget p = r.1.1 ∧ t.bit Reg.NET_PSTAT_RXDROP p = true)))

/-- A link change shows in the port's status and the Tally (R291); the side path receives frames (R301) and sends its slots
(R293, R295, R299, R300); the clears zero the counters and empty the discovery list. -/
def Obligations.LinkAndSidePathCommands : Prop := LinksAndReceivedFrames ∧ SideTransmission

/-- A station's life (R311 to R316): an enabled record makes it IDLE and a cleared one OFF; an ADMIT without answer is due again and
fails at the fourth time; RELEASE makes it IDLE; enough stale hoists drop it. -/
def Sys2Proof.Claims.StationCommands : Prop :=
  ∀ (i : Fin 256) (s : State),
    (isStation i = false → exec (.stationRecordEnable i) s = .next s) ∧
    (isStation i = true →
      let r := s.stnRecord i
      (r.1.en = true → (s.stn i).state = stnOff ∨ (s.stn i).state = stnIdle → Does (.stationRecordEnable i) s fun t =>
        (t.stn i).rcd = r.1 ∧ (t.stn i).state = stnIdle ∧ ∀ k : Nat, k ≠ i → t.stn k = s.stn k) ∧
      (r.1.en = true → (s.stn i).state ≠ stnOff → (s.stn i).state ≠ stnIdle → exec (.stationRecordEnable i) s = .next r.2) ∧
      (r.1.en = false → (s.stn i).state ≠ stnOff → Does (.stationRecordEnable i) s fun t => t.stn i = {} ∧ ¬ i.val ∈ t.net.queue ∧
        ∀ k : Nat, k ≠ i → t.stn k = s.stn k) ∧
      (r.1.en = false → (s.stn i).state = stnOff → exec (.stationRecordEnable i) s = .next r.2)) ∧
    ((s.stn i).state ≠ stnOff → Does (.stationRelease i) s fun t => (t.stn i).state = stnIdle ∧ ¬ i.val ∈ t.net.queue ∧
      t.net.releases = s.net.releases ++ [(i.val, [1#8])]) ∧
    (s.asCyclic i = true → max 1 (s.rd Reg.NET_PNCFG_DROPN) ≤ (s.stn i).run → Does (.stationDrop i) s fun t =>
      (t.stn i).state = stnDropped ∧ bitAt (t.rd Reg.NET_STDRP_ST (i.val / 32)) (i.val % 32) = true ∧
        bitAt (t.rd Reg.NET_EVSUM_DROP) 0 = true) ∧
    ((s.stn i).wait = true → (s.stn i).due = false → (s.stn i).sentAt + 8 ≤ s.net.bperiod →
      ((s.stn i).resends < 3 → Does (.admitResend i) s fun t =>
        (t.stn i).resends = (s.stn i).resends + 1 ∧ (t.stn i).due = true ∧ (t.stn i).state = (s.stn i).state ∧
        t.landing = s.landing ∧ t.netOut = s.netOut) ∧
      (3 ≤ (s.stn i).resends → Does (.admitResend i) s fun t => (t.stn i).state = stnIdle ∧ (t.stn i).wait = false ∧
        t.bit Reg.NET_PNSTAT_ADMFAIL = true ∧ bitAt (t.rd Reg.NET_STFLT_ST (i.val / 32)) (i.val % 32) = true))

/-- A HAIL DISCOVER queues a station, or joins the discovery list when its MAC is unknown; ACK leads from ASSIGN to PARAM and through
the parameters to READYWAIT; READY is accepted with the CFGID of the block sent (R311, R312, R313, R314). -/
def Sys2Proof.Claims.Hails : Prop :=
  ∀ (p : Fin 4) (f : List Byte) (e : EthIn) (h : PnHdr) (pl : List Byte) (s : State), (s.pnArrive p f true).1 = some (e, h, pl) →
    h.kind = 1 → h.len = 0 →
    let parm := fieldAt h.rest 4 4
    (∀ i : Nat, s.stnByMac e.src = some i →
      let x := s.stn i
      (fieldAt h.rest 0 1 = 0 → s.enabled = true → x.state = stnIdle →
        ¬ i ∈ s.net.queue → s.net.queue.length < 32 → Does (.hailReceive p f true) s fun t => (t.stn i).state = stnQueued ∧
          t.net.queue = s.net.queue ++ [i] ∧ t.rd Reg.NET_PNSTAT_HAILQ = s.net.queue.length + 1) ∧
      (fieldAt h.rest 0 1 = 1 → x.wait = true →
        (x.state = stnAssign → parm = 0 → Does (.hailReceive p f true) s fun t => (t.stn i).state = stnParam ∧ (t.stn i).due = true ∧
          (t.stn i).wait = false ∧ (t.stn i).off = 0) ∧
        (x.state = stnParam → parm % 8 = 0 → parm < x.rcd.pLen → Does (.hailReceive p f true) s fun t =>
          t.stn i = { x with wait := false, due := true, off := parm, resends := 0 } ∧ t.netOut = s.netOut) ∧
        (x.state = stnParam → parm % 8 = 0 → parm = x.rcd.pLen → Does (.hailReceive p f true) s fun t =>
          (t.stn i).state = stnReadyWait ∧ (t.stn i).wait = false ∧ (t.stn i).due = false)) ∧
      (fieldAt h.rest 0 1 = 2 → x.state = stnReadyWait →
        (crc32c x.sent = parm → Does (.hailReceive p f true) s fun t => t.stn i = { x with ready := true }) ∧
        (crc32c x.sent ≠ parm → Does (.hailReceive p f true) s fun t => (t.stn i).state = stnIdle ∧
          t.bit Reg.NET_PNSTAT_ADMFAIL = true))) ∧
    (s.stnByMac e.src = none → ¬ e.src ∈ s.net.disc → s.net.disc.length < 32 → Does (.hailReceive p f true) s fun t =>
      t.bit Reg.NET_PNSTAT_UNKHAIL = true ∧ t.net.disc = s.net.disc ++ [e.src] ∧ t.net.stations = s.net.stations)

/-- A CYCLE_UP of the current hoist is accepted before the deadline and shown by the station's status, held between the deadline and
the seal, and counted late where it names a hoist that has passed (R306, R307); a CYCLE_DOWN shows the claim of its sender, to which
a unit with a lower one yields (R375, R378). -/
def Sys2Proof.Claims.CyclicFrames : Prop :=
  ∀ (p : Fin 4) (f : List Byte) (e : EthIn) (h : PnHdr) (pl : List Byte) (s : State), (s.pnArrive p f true).1 = some (e, h, pl) →
    (h.kind = 4 →
      let x := s.stn h.stn
      let g := s.ring x.rcd.ring
      x.rcd.en = true → e.src = x.rcd.mac → s.asCyclic h.stn = true → h.ring = x.rcd.ring → h.len = x.rcd.inLen → g.begun = true →
      (g.dDone = false → h.hnum = g.now → x.got ≠ h.hnum + 1 →
        Does (.cycleUpReceive p f true) s fun t => (t.stn h.stn).phnum = h.hnum ∧ (t.stn h.stn).stale = false ∧
          (t.stn h.stn).dropped = false ∧ (t.stn h.stn).psn = bitAt h.flags 0 ∧ (t.stn h.stn).got = h.hnum + 1 ∧
          (t.stn h.stn).stalecnt = 0 ∧ t.net.held = s.net.held ∧ t.rings = s.rings) ∧
      (g.dDone = true → g.sDone = false → h.hnum = g.now → x.got ≠ h.hnum + 1 → Does (.cycleUpReceive p f true) s fun t =>
        t.net.held = s.net.held ++ [⟨h.stn, h.flags, h.hnum, pl⟩] ∧ (t.stn h.stn).got = h.hnum + 1 ∧ t.landing = s.landing) ∧
      (h.hnum ≠ g.now → sInt 32 (h.hnum + 2 ^ 32 - g.now) < 0 → Does (.cycleUpReceive p f true) s fun t =>
        t.bit Reg.NET_PNSTAT_LATEUP = true ∧ t = { s with regs := t.regs }) ∧
      (h.hnum = g.now → x.got = h.hnum + 1 → exec (.cycleUpReceive p f true) s = .next s)) ∧
    (h.kind = 3 →
      (h.claim = 0 → exec (.cycleDownReceive p f true) s = .next s) ∧
      (h.claim ≠ 0 → h.claim < 2 ^ 32 → Does (.cycleDownReceive p f true) s fun t =>
        t.rd Reg.TRH_LASTEP_EP = max (s.rd Reg.TRH_LASTEP_EP) (h.claim / 256) ∧ (h.claim, s.time.edge) ∈ t.trh.claims ∧
        (s.ensign ≠ 0 → s.ensign < h.claim → t.ensign = 0 ∧ t.bit Reg.TRH_STAT_YIELDED = true ∧ t.role = roleSync) ∧
        (h.claim ≤ s.ensign → t.ensign = s.ensign ∧ t.role = s.role)))

/-- A station is enabled, admitted, released and dropped (R311 to R316); its HAILs lead through the admission (R312, R313, R314); a
CYCLE_UP gives its inputs (R306, R307), a CYCLE_DOWN shows the claim of its sender (R375, R378). -/
def Obligations.PennantCommands : Prop := StationCommands ∧ Hails ∧ CyclicFrames

/-! ### CAN FD (R318 to R334) -/

/-- A controller with valid timing starts and listens for 200 ms, an invalid one shows CFGERR (R320, R332); requests join those that
are pending, aborts end theirs (R324, R326, R327); integration ends, or BUS-OFF counts its sequences and recovers (R331). -/
def Sys2Proof.Claims.CanControllers : Prop :=
  (∀ (c : Fin 4) (s : State),
    let x := s.canC c
    (s.bit Reg.CAN_CCFG_EN c = false →
      (s.canValid c = true →
        let w := (s.lndWord canPort (s.canAt c + 8)).2
        let l := (w.lndWord canPort (w.canAt c + 12)).2.canReqWords c 0 0x10 []
        Does (.canEnable c) s fun t => t.bit Reg.CAN_CCFG_EN c = true ∧ t.bit Reg.CAN_STAT_RUN c = true ∧
          t.bit Reg.CAN_STAT_INTEG c = true ∧ t.rd Reg.CAN_STAT_FCS c = 0 ∧ t.rd Reg.CAN_ECNT_TEC c = 0 ∧ t.rd Reg.CAN_ECNT_REC c = 0 ∧
          (t.canC c).phase = 1 ∧ (t.canC c).listenEnd = s.time.edge + 200 * edgesPerMs ∧ (t.canC c).reqs = l.1) ∧
      (s.canValid c = false → Does (.canEnable c) s fun t => t.bit Reg.CAN_STAT_CFGERR c = true ∧ t.bit Reg.CAN_CCFG_EN c = false ∧
        t = { s with regs := t.regs })) ∧
    (x.phase = 1 → s.time.edge ≤ x.listenEnd → Does (.canListenEnd c) s fun t => (t.canC c).phase = 2 ∧ t.time.edge = x.listenEnd ∧
      t.landing = s.landing) ∧
    (s.rd Reg.CAN_STAT_FCS c ≠ 2 → x.phase = 2 → Does (.canIntegrated c) s fun t => (t.canC c).phase = 3 ∧
      t.bit Reg.CAN_STAT_INTEG c = false ∧ (s.bit Reg.CAN_FLAG_ERFE c = false → t.landing = s.landing)) ∧
    (s.rd Reg.CAN_STAT_FCS c = 2 → s.rd Reg.CAN_LEC_BORC c < 127 → Does (.canIntegrated c) s fun t =>
      t.rd Reg.CAN_LEC_BORC c = s.rd Reg.CAN_LEC_BORC c + 1 ∧ t = { s with regs := t.regs }) ∧
    (s.rd Reg.CAN_STAT_FCS c = 2 → Does (.canBusoffRecovery c) s fun t => t.rd Reg.CAN_STAT_FCS c = 0 ∧ (t.canC c).phase = 2 ∧
      (t.canC c).tec = 0 ∧ (t.canC c).rec_ = 0 ∧ t.bit Reg.CAN_STAT_INTEG c = true ∧ t.rd Reg.CAN_LEC_BORC c = 128) ∧
    (x.phase = 0 → exec (.canTxRequest c) s = .next s ∧ exec (.canTxAbort c) s = .next s) ∧
    (x.phase ≠ 0 →
      let l := s.canReqWords c 0 0x10 x.reqs
      Does (.canTxRequest c) s fun t => t = { l.2 with can := t.can } ∧ (t.canC c).reqs = l.1 ∧
        (∀ q ∈ x.reqs, q < 131 → q ∈ (t.canC c).reqs) ∧ ∀ d : Nat, d ≠ c → t.canC d = s.canC d) ∧
    (x.phase ≠ 0 →
      let l := s.canReqWords c 4 0x20 []
      (Does (.canTxAbort c) s fun t => (t.canC c).cur = x.cur ∧
        (∀ q : Nat, q ∈ (t.canC c).reqs ↔ q ∈ x.reqs ∧ (¬ q ∈ l.1 ∨ x.cur = some q)) ∧
        (∀ q : Nat, x.cur = some q → q ∈ x.reqs → q ∈ l.1 → (t.canC c).abortCur = true)) ∧
      (∀ q : Nat, x.reqs = [q] → q ∈ l.1 → x.cur = none →
        let b := l.2.lndBytes canPort (l.2.canRecord c q) 8
        exec (.canTxAbort c) s = .next (b.2.canEnd c q 2 (fieldAt b.1.1 6 2))))) ∧
  (∀ s : State, Does .canClrcnt s fun t => (∀ c : Fin 4, t.rd Reg.CAN_CNT_RXLOST c = 0 ∧ t.rd Reg.CAN_CNT_BOFF c = 0) ∧
    t = { s with regs := t.regs })

/-- A frame start puts the chosen frame on the bus unless sending is held (R325, R328), with the time of its start at RX (R333); the
end of an attempt moves TEC and ends the request (R326, R327, R331); the collision and dominant reports (R319, R331). -/
def Sys2Proof.Claims.CanAttempts : Prop :=
  ∀ (c : Fin 4) (s : State),
    let x := s.canC c
    (∀ (lag : Fin 52) (err : Int), x.phase = 3 → s.rd Reg.CAN_STAT_FCS c ≠ 2 → x.cur = none → s.bit Reg.CAN_CCFG_LOM c = false →
      s.replaying = false → s.canHeld c = false →
      let k := if s.bit Reg.CAN_CCFG_TXPRI c then State.canFirst c x.reqs s else State.canLowest c none x.reqs s
      (∀ (q : Nat) (m : CanRec), k.1 = some (q, m) → Does (.canFrameStart c lag err) s fun t => (t.canC c).cur = some q ∧
        (t.canC c).curFrame = some m.frame ∧ (t.canC c).curHt = s.canSof c (-(lag.val : Int)) err ∧
        t.canOut = s.canOut ++ [⟨c, s.htime, decide (s.rd Reg.CAN_STAT_FCS c = 1), m.frame⟩] ∧ t.regs = k.2.regs ∧
        t.landing = k.2.landing) ∧
      (k.1 = none → exec (.canFrameStart c lag err) s = .next k.2)) ∧
    (∀ (lag : Fin 52) (err : Int), s.canHeld c = true → exec (.canFrameStart c lag err) s = .next s) ∧
    (∀ (q : Nat) (f : CanFrame) (d : Option (BitVec 8)), x.cur = some q → x.curFrame = some f →
      (q ∈ x.reqs → Does (.canTxEnd c .sent d) s fun t => (t.canC c).cur = none ∧ (t.canC c).tec = x.tec - 1 ∧ ¬ q ∈ (t.canC c).reqs) ∧
      (x.abortCur = false → Does (.canTxEnd c .lost d) s fun t => (t.canC c).cur = none ∧ (t.canC c).tec = x.tec ∧
        (t.canC c).reqs = x.reqs ∧ t = { s with can := t.can }) ∧
      (x.abortCur = true → q ∈ x.reqs → Does (.canTxEnd c .lost d) s fun t => (t.canC c).cur = none ∧ (t.canC c).tec = x.tec ∧
        ¬ q ∈ (t.canC c).reqs) ∧
      (∀ (lec : Fin 8) (dph arb dom : Bool) (again : Nat), lec ≠ 1 → lec ≠ 3 → x.abortCur = false → x.tec + 8 + 8 * again ≤ 255 →
        Does (.canTxEnd c (.error lec dph arb dom again) d) s fun t => (t.canC c).cur = none ∧ (t.canC c).tec = x.tec + 8 + 8 * again ∧
          (t.canC c).reqs = x.reqs ∧ t.rd Reg.CAN_LEC_LEC c = lec ∧ t.rd Reg.CAN_ECNT_TEC c = x.tec + 8 + 8 * again)) ∧
    (∀ (xtd : Bool) (id : Nat), x.colId = some (xtd, id) → 3 ≤ x.colCount → x.colTold = false → Does (.idCollision c) s fun t =>
      (t.canC c).colTold = true ∧ t.bit Reg.CAN_COLID_XTD c = xtd ∧ t.rd Reg.CAN_COLID_ID c = id % 2 ^ 29 ∧
      t.bit Reg.CAN_STAT_IDCOL c = true) ∧
    (s.canDrives c = true → Does (.dominantTimeout c) s fun t => t.bit Reg.CAN_STAT_DOMTO c = true ∧
      t.canC c = { x with released := true } ∧ t.landing = s.landing) ∧
    (s.canDrives c = false → exec (.dominantTimeout c) s = .next s)

/-- CAN controllers start, take requests and aborts, and recover from BUS-OFF (R320, R324, R326, R327, R331, R332); frames start and
attempts end (R319, R325, R328, R333). -/
def Obligations.CanSendCommands : Prop := CanControllers ∧ CanAttempts

/-- A received frame moves REC down and goes where the first matching object sends it: into the queue, which counts a frame lost
when it holds 64, or into the object (R329, R330, R331); without a match it is queued only under ACCNM. A receive error moves
REC up, a recessive res bit makes the controller integrate again (R318, R331); the consumer's RXGET is taken (R330). -/
def Obligations.CanReceiveCommands : Prop :=
  ∀ (c : Fin 4) (s : State), (s.canC c).phase ≠ 0 →
    (∀ (f : CanFrame) (ago : BitVec 32) (err : Int), s.rd Reg.CAN_STAT_FCS c ≠ 2 → (f.fdf = true → s.bit Reg.CAN_CCFG_FDEN c = true) →
      let b := canBytes f (s.canSof c ago.toNat err)
      let u := State.canMatch c f (upFrom 0 128) (s.canRecDown c)
      (∀ o w : Nat, u.1 = some (o, false, w) → exec (.canFrameReceive c f ago err) s = .next (u.2.canStore c o w b) ∧
        -- the record and the status word of the object, of a source that is neither recorded nor traced
        (s.replaying = false → u.2.recorded 7 = false → u.2.traced 7 = false → s.bit Reg.CAN_FLAG_RXFE c = false →
          let ovw := if bitAt w 31 then Nat.min 0xFFFF (w % 65536 + 1) else w % 65536
          Does (.canFrameReceive c f ago err) s fun t =>
            t.landing = ((u.2.lndWrite canPort (u.2.canAt c + (0x1800 + 96 * o + 0x10)) b).lndWrite canPort (u.2.canAt c + (0x1800 + 96 * o + 12))
              (leBytes 4 (2 ^ 31 + w % 2 ^ 31 / 65536 * 65536 + ovw))).landing)) ∧
      ((∃ o w : Nat, u.1 = some (o, true, w)) ∨ (u.1 = none ∧ u.2.bit Reg.CAN_CCFG_ACCNM c = true) →
        (((s.canC c).rxput + 2 ^ 32 - (s.canC c).rxget) % 2 ^ 32 < 64 → Does (.canFrameReceive c f ago err) s fun t =>
          t = u.2.canQueue c b ∧ (t.canC c).rxput = ((s.canC c).rxput + 1) % 2 ^ 32) ∧
        (64 ≤ ((s.canC c).rxput + 2 ^ 32 - (s.canC c).rxget) % 2 ^ 32 → Does (.canFrameReceive c f ago err) s fun t =>
          (t.canC c).rxput = (s.canC c).rxput ∧ t.bit Reg.CAN_STAT_RXLOST c = true ∧ t.landing = u.2.landing)) ∧
      (u.1 = none → u.2.bit Reg.CAN_CCFG_ACCNM c = false → (s.canC c).rec_ ≤ 127 → Does (.canFrameReceive c f ago err) s fun t =>
        t = u.2 ∧ (t.canC c).rec_ = (s.canC c).rec_ - 1 ∧ (t.canC c).tec = (s.canC c).tec)) ∧
    (∀ (lec : Fin 8) (dph plus : Bool), s.rd Reg.CAN_STAT_FCS c ≠ 2 →
      (Does (.canReceiveError c lec dph plus false) s fun t => t.rd Reg.CAN_LEC_LEC c = lec ∧ t.bit Reg.CAN_LEC_DPH c = dph ∧
        (t.canC c).tec = (s.canC c).tec ∧ (t.canC c).rec_ = Nat.min 255 ((s.canC c).rec_ + (if plus then 8 else 1))) ∧
      (s.bit Reg.CAN_CCFG_PXHD c = true → Does (.canReceiveError c lec dph plus true) s fun t => t.rd Reg.CAN_LEC_LEC c = 2 ∧
        (t.canC c).rec_ = Nat.min 255 ((s.canC c).rec_ + (if plus then 8 else 1))) ∧
      (s.bit Reg.CAN_CCFG_PXHD c = false → Does (.canReceiveError c lec dph plus true) s fun t => t.bit Reg.CAN_STAT_PXE c = true ∧
        (t.canC c).rec_ = (s.canC c).rec_ ∧
        ((s.canC c).phase = 3 → (t.canC c).phase = 2 ∧ t.bit Reg.CAN_STAT_INTEG c = true))) ∧
    (let r := s.lndWord canPort (s.canAt c + 12);
      (r.1.2 = false → Does (.canRxRelease c) s fun t => (t.canC c).rxget = r.1.1 ∧ t = { r.2 with can := t.can }) ∧
      (r.1.2 = true → exec (.canRxRelease c) s = .next r.2))

/-! ### Safety (R335 to R368) -/

/-- The cycle ends every 250 us with its count moved on; it takes the faults found since the last one, class C first: such a fault, or
one of the cycle's own diagnostics, enters SAFE with every group in STO and SDIS open, an input's latches at the input (R335, R341,
R342, R356, R357). -/
def Sys2Proof.Claims.SafetyCycleEnd : Prop :=
  (∀ (d : SafObs) (s : State), s.time.edge ≤ s.saf.cycAt + 50000 →
    (Does (.safetyCycle d) s fun t => t.time.edge = s.saf.cycAt + 50000 ∧ t.saf.cycAt = t.time.edge ∧ t.saf.heartbeat = t.time.edge ∧
      t.saf.cyc = (s.saf.cyc + 1) % 2 ^ 32 ∧ t.saf.hist = (d.counts :: s.saf.hist).take 5 ∧ t.saf.found = []) ∧
    (∀ code obj : Nat, code < 16 → (code, obj) = (s.saf.found ++ [(3, 0)]).headD (0, 0) → (s.saf.found = [] → d.smem = true ∧
        ¬ 3 * 64 ∈ s.saf.conds) → s.mstate ≠ msSafe → Does (.safetyCycle d) s fun t => t.mstate = msSafe ∧
      t.rd Reg.SAF_STAT_FCODE = code ∧ t.bit Reg.SAF_STAT_REL = false ∧ t.saf.sdis = false ∧ ∀ g : Fin 8, t.gstate g = gsSto)) ∧
  (∀ (n : Fin 12) (code : Nat) (s : State), code = 0x21 ∨ code = 0x22 → s.saf.found = [(code, n.val)] → s.mstate ≠ msSafe →
    (s.takeFound.sin n).flt = true ∧ bitAt (s.takeFound.rd Reg.SAF_SINST_FLT) n = true ∧ s.takeFound.saf.found = [] ∧
      s.takeFound.rd Reg.SAF_STAT_FCODE = code ∧ s.takeFound.mstate = s.mstate)

/-- A changed contact is accepted after FILT, contacts that disagree for DISC and a contact that fails a test pulse are input faults
(R341, R342): found at once, taken at the cycle end (R335). -/
def Sys2Proof.Claims.SafeInputs : Prop :=
  ∀ (n : Fin 12) (b : Bool) (s : State),
    let i := 2 * n.val + b2n b
    let x := tabAt ({} : ContactSt) s.saf.contacts i
    (∀ closed : Bool, x.raw ≠ closed → Does (.safeInputChange n b closed) s fun t => tabAt ({} : ContactSt) t.saf.contacts i =
      { x with raw := closed, since := s.time.edge } ∧ t = { s with saf := { s.saf with contacts := t.saf.contacts } }) ∧
    (x.raw ≠ x.acc → s.inMode n ≠ 0 → s.time.edge ≤ x.since + s.blk (inAt n + 2) 2 * edgesPerMs → Does (.contactAccepted n b) s fun t =>
      (tabAt ({} : ContactSt) t.saf.contacts i).acc = x.raw ∧ t.time.edge = x.since + s.blk (inAt n + 2) 2 * edgesPerMs) ∧
    (∀ t0 : Nat, (s.sin n).disc = some t0 → (s.sin n).discTold = false → s.time.edge ≤ t0 + s.blk (inAt n + 4) 2 * edgesPerMs →
      Does (.discrepancyTimeout n) s fun t => t.saf.found = s.saf.found ++ [(0x22, n.val)] ∧ (t.sin n).discTold = true ∧
        t.mstate = s.mstate ∧ t.time.edge = t0 + s.blk (inAt n + 4) 2 * edgesPerMs) ∧
    (∀ hi lo : BitVec 12, s.saf.block.isSome = true → Does (.testPulse b hi lo) s fun t =>
      tabAt 0 t.saf.pulses (b2n b) = max 1 t.time.edge ∧ t.mstate = s.mstate ∧ (∀ f ∈ s.saf.found, f ∈ t.saf.found) ∧
      -- a contact of this source that stays high, or one of the other that goes low
      (s.inMode n ≠ 0 → bitAt (s.blk (inAt n + 1) 1) 0 = true → (s.sin n).flt = false →
        (bitAt hi.toNat n = true ∧ (b = true → s.twoContacts n = true)) ∨ (bitAt lo.toNat n = true ∧ (b = false → s.twoContacts n = true)) →
        (0x21, n.val) ∈ t.saf.found))

/-- A failed output pulse, clock or SDIS test is found, and enters SAFE at the cycle end (R335, R356); the clock check shows whether
CLK_TB is within limits (R23); the watchdog opens SDIS at once (R338); INIT ends in NORMAL with a good block and in UNCONF without
one (R337, R354, R364). -/
def Sys2Proof.Claims.SafetySelfTests : Prop :=
  ∀ s : State,
    (∀ o : Fin 12, s.outputOn o = true →
      (Does (.outputTestPulse o false) s fun t => tabAt 0 t.saf.pulses (2 + o) = max 1 t.time.edge ∧ t.mstate = s.mstate ∧
        t.outputOn o = true ∧ t.saf.found = s.saf.found) ∧
      (Does (.outputTestPulse o true) s fun t => t.saf.found = s.saf.found ++ [(6, 0)] ∧ t.mstate = s.mstate)) ∧
    (Does .outputWatchdog s fun t => t.saf.sdis = false ∧ t.saf.wdog = true ∧ t.mstate = s.mstate ∧ ∀ o : Fin 12, t.outputOn o = false) ∧
    (∀ (ppm : Int) (adv : Nat), s.time.edge ≤ s.saf.nextClock → Does (.clockCheck ppm adv) s fun t =>
      t.time.edge = s.saf.nextClock ∧ t.saf.nextClock = s.saf.nextClock + edgesPerMs ∧ t.mstate = s.mstate ∧
      t.bit Reg.SYS_CLKSTAT_SAFXOK = decide (ppm.natAbs ≤ 30000) ∧
      (ppm.natAbs ≤ 30000 → 970000 ≤ adv → adv ≤ 1030000 → ¬ 1 * 64 ∈ t.saf.conds ∧ ¬ 2 * 64 ∈ t.saf.conds ∧
        t.saf.found = s.saf.found) ∧
      (30000 < ppm.natAbs → ¬ 1 * 64 ∈ s.saf.conds → (1, 0) ∈ t.saf.found) ∧
      (adv < 970000 ∨ 1030000 < adv → ¬ 2 * 64 ∈ s.saf.conds → (2, 0) ∈ t.saf.found)) ∧
    (s.mstate = msInit →
      (Does (.sdisTest true) s fun t => t.saf.sdisTested = true ∧ t.saf.sdisAt = s.time.edge ∧ t.mstate = msInit ∧
        t.bit Reg.SAF_STAT_SDISDUE = false) ∧
      (Does (.sdisTest false) s fun t => t.saf.found = s.saf.found ++ [(7, 0)] ∧ t.mstate = msInit) ∧
      (s.pwr.recovery = false → s.pwr.booted = true → s.saf.found = [] →
        (s.saf.wdog = true → Does .safetyInitDone s fun t => t.mstate = msInit ∧ t.saf.found = [(10, 0)] ∧ t.saf.wdog = false) ∧
        (s.saf.wdog = false →
          (s.copiesRead.1 = none → Does .safetyInitDone s fun t => t.mstate = msUnconf ∧ t.saf.block = none ∧ t.saf.sdisTested = true ∧
            t.bit Reg.SAF_STAT_REL = false) ∧
          (∀ x : List Byte, s.copiesRead.1 = some x → Does .safetyInitDone s fun t => t.mstate = msNormal ∧ t.saf.block = some x ∧
            t.bit Reg.SAF_STAT_CONF = true ∧ t.bit Reg.SAF_STAT_REL = true ∧ t.saf.sdis = true ∧
            t.rd Reg.SAF_PACT_CRC = blockCrc x % 2 ^ 32))))

/-- The safety cycle and what it takes (R335, R356, R357); inputs (R341, R342); self-tests (R337, R338, R354, R364). -/
def Obligations.SafetyEngineCommands : Prop := SafetyCycleEnd ∧ SafeInputs ∧ SafetySelfTests

/-- What event P, B, W, S or K leaves: boot has not run, the program stands in STOP, safety in INIT, the outputs are held, the
cause of the coming boot is set (R429, R434). -/
def Sys2Proof.Claims.AfterReset (t : State) (cause : Nat) : Prop :=
  t.pwr.booted = false ∧ t.pwr.cause = cause ∧ t.progState = 0 ∧ t.mstate = msInit ∧ t.bit Reg.PWR_STAT_OUTREL = false ∧
    t.saf.sdis = false ∧ t.tex.items = []

/-- A reset request waits for the cycle end (R347); the half-mast commands (R358); the brakes' lead ends in STO (R350); a brake test
starts only in its conditions, writes its torque after 200 ms, and ends PASS after TTEST with AGE, DUE and lock cleared, or ABORTED
(R352, R353); a module in SAFE resets itself after 100 ms (R359). -/
def Obligations.SafetyGroupAndBrakeCommands : Prop :=
  ∀ s : State,
    (∀ (m : BitVec 8) (g : Fin 8), Does (.groupReset m) s fun t => t.grp g = { s.grp g with ack := (s.grp g).ack || m.getLsbD g } ∧
      t = { s with saf := t.saf }) ∧
    (Does .halfmastAck s fun t => t = { s with saf := { s.saf with fack := true } }) ∧
    (s.mstate = msHalfmast →
      (Does .halfmastEnd s fun t => t.saf.hmOverTime = true ∧ t.rd Reg.SAF_HMREM_S = 0 ∧ t.mstate = msHalfmast ∧ t.time = s.time) ∧
      (s.time.edge ≤ s.saf.hmAt + s.blk 8 2 * 1000 * edgesPerMs → Does .halfmastTimeout s fun t => t.saf.hmOverTime = true ∧
        t.rd Reg.SAF_HMREM_S = 0 ∧ t.time.edge = s.saf.hmAt + s.blk 8 2 * 1000 * edgesPerMs)) ∧
    (∀ (g : Fin 8) (e : Nat), (s.grp g).lead = some e → s.gstate g = gsSs1 → s.time.edge ≤ e → Does (.brakeLeadEnd g) s fun t =>
      t.gstate g = gsSto ∧ t.time.edge = e ∧ (t.grp g).lead = none) ∧
    (∀ b : Fin 4,
      let g := s.brkGroup b
      let ok := s.brkOn b = true ∧ s.gstate g = gsSto ∧ s.bit Reg.SAF_GSTAT_DEM g = false ∧ (s.grp g).outflt = false ∧
        (s.grp g).envbr = false ∧ (s.grp g).hmbr = false ∧ s.mstate = msNormal ∧ s.progState = 1 ∧ s.replaying = false
      (ok → Does (.brakeTestStart b) s fun t => t.gstate g = gsBtest ∧ (t.brk b).run = true ∧ (t.brk b).start = s.time.edge ∧
        t.bit Reg.SAF_BTSTAT_RUN b = true ∧ t.rd Reg.SAF_BTSTAT_RESULT b = 0) ∧
      (¬ ok → Does (.brakeTestStart b) s fun t => t.rd Reg.SAF_BTSTAT_RESULT b = btRefused ∧ t.saf = s.saf ∧ t.landing = s.landing) ∧
      ((s.brk b).run = true →
        ((s.brk b).torque = none → s.time.edge ≤ (s.brk b).start + 200 * edgesPerMs → Does (.brakeTestTorque b) s fun t =>
          (t.brk b).torque = some ((s.brk b).start + 200 * edgesPerMs) ∧ t.time.edge = (s.brk b).start + 200 * edgesPerMs) ∧
        (∀ t0 : Nat, (s.brk b).torque = some t0 → s.time.edge ≤ t0 + s.blk (brkAt b + 2) 2 * edgesPerMs →
          Does (.brakeTestPass b) s fun t => t.time.edge = t0 + s.blk (brkAt b + 2) 2 * edgesPerMs ∧ t.gstate g = gsSto ∧
            t.rd Reg.SAF_BTSTAT_RESULT b = btPass ∧ t.rd Reg.SAF_BTSTAT_AGE b = 0 ∧ t.bit Reg.SAF_BTSTAT_DUE b = false ∧
            (t.brk b).run = false ∧ (t.brk b).lock = false) ∧
        (Does .brakeTestAbort s fun t => (t.brk b).run = false ∧ t.rd Reg.SAF_BTSTAT_RESULT b = btAborted ∧ t.gstate g = gsSto)) ∧
      (s.brkOn b = true → s.blk (brkAt b + 16) 2 ≠ 0 → s.blk (brkAt b + 16) 2 ≤ s.rd Reg.SAF_BTSTAT_AGE b →
        Does (.brakeTestDue b) s fun t => t.bit Reg.SAF_BTSTAT_DUE b = true ∧ t.saf = s.saf)) ∧
    (∀ e : Nat, s.saf.safeAt = some e → s.mstate = msSafe → s.bit Reg.SAF_STAT_SAFELOCK = false → s.running = true →
      Does .safeReset s fun t => t = (s.advanceEdge (e + 100 * edgesPerMs)).eventW 3 ∧ AfterReset t 3 ∧ t.pwr.wdsrc = 3 ∧ t.keep = s.keep)

/-- LOAD takes a good block from the Landing for confirmation and refuses one that is poisoned, malformed or damaged; CONFIRM with
its check value takes it into use and enters NORMAL; DISCARD drops it (R361 to R363). That LOAD is refused in INIT, HALFMAST and SAFE,
and CONFIRM outside UNCONF, is read from R354's table of what leaves each state. -/
def Obligations.SafetyParameterCommands : Prop :=
  ∀ s : State,
    ((s.everySto = false ∨ s.replaying = true ∨ s.mstate = msInit ∨ s.mstate = msHalfmast ∨ s.mstate = msSafe) → Does .paramLoad s fun t =>
      t.bit Reg.SAF_PSTAT_REJ = true ∧ t.rd Reg.SAF_PSTAT_CAUSE = 1 ∧ t.saf = s.saf ∧ t.mstate = s.mstate) ∧
    (s.everySto = true → s.replaying = false → s.mstate ≠ msInit → s.mstate ≠ msHalfmast → s.mstate ≠ msSafe →
      let r := s.lndBytes 7 (s.rd Reg.SAF_PADDR_ADDR * 8) 2048
      let b := r.1.1
      let p := r.1.2
      (p = true → Does .paramLoad s fun t => t.rd Reg.SAF_PSTAT_CAUSE = 5 ∧ t.saf = s.saf) ∧
      (p = false → blockOk b = false → Does .paramLoad s fun t => t.rd Reg.SAF_PSTAT_CAUSE = 2 ∧ t.saf = s.saf) ∧
      (p = false → blockOk b = true → blockCrcOk b = false → Does .paramLoad s fun t => t.rd Reg.SAF_PSTAT_CAUSE = 3 ∧ t.saf = s.saf) ∧
      (p = false → blockOk b = true → blockCrcOk b = true → Does .paramLoad s fun t => t.saf.staged = some b ∧ t.saf.block = s.saf.block ∧
        t.mstate = msUnconf ∧ t.bit Reg.SAF_PSTAT_STAGED = true ∧ t.bit Reg.SAF_STAT_REL = false ∧
        t.rd Reg.SAF_PCRC_CRC = blockCrc b % 2 ^ 32)) ∧
    (s.saf.staged = none → Does .paramConfirm s fun t => t.rd Reg.SAF_PSTAT_CAUSE = 6 ∧ t.saf = s.saf ∧ t.mram = s.mram) ∧
    (∀ b : List Byte, s.saf.staged = some b →
      (s.mstate ≠ msUnconf → Does .paramConfirm s fun t => t.rd Reg.SAF_PSTAT_CAUSE = 1 ∧ t.saf = s.saf ∧ t.mram = s.mram) ∧
      (s.mstate = msUnconf → blockCrc b ≠ s.rd Reg.SAF_PCONF_CRC → Does .paramConfirm s fun t => t.rd Reg.SAF_PSTAT_CAUSE = 4 ∧
        t.saf = s.saf ∧ t.mram = s.mram) ∧
      (s.mstate = msUnconf → blockCrc b = s.rd Reg.SAF_PCONF_CRC → Does .paramConfirm s fun t => t.saf.block = some b ∧ t.saf.staged = none ∧
        t.mstate = msNormal ∧ t.bit Reg.SAF_STAT_CONF = true ∧ t.bit Reg.SAF_PSTAT_STAGED = false ∧ t.rd Reg.SAF_PACT_CRC = blockCrc b) ∧
      (Does .paramDiscard s fun t => t.saf.staged = none ∧ t.saf.block = s.saf.block ∧ t.bit Reg.SAF_PSTAT_STAGED = false ∧
        t.mstate = (if s.saf.block.isSome ∧ s.mstate = msUnconf then msNormal else s.mstate)))

/-! ### Redundant pairs (R370 to R392) -/

/-- Lanes go down after 20 us of silence and come up after 1 ms of frames (R372); a CLAIM goes out every 10 us with its CRC
(R371, R372) and expires from the window (R375); one received shows the partner's claim, and its fall to 0 makes an INSTEP
standby take over, as the loss of both lanes does (R389): next epoch, ACTIVE, every ring held to its seal (R374). A negotiation ends ACTIVE
or in SYNC (R380); a hand-over waits for the seal of HR0 and dips there (R390). -/
def Obligations.TerhaClaimCommands : Prop :=
  ∀ s : State,
    (∀ l : Fin 2, bitAt (s.rd Reg.TRH_STAT_LANEUP) l = true → s.time.edge ≤ tabAt 0 s.trh.laneLast l + laneSilence →
      Does (.laneDown l) s fun t => bitAt (t.rd Reg.TRH_STAT_LANEUP) l = false ∧ t.bit Reg.TRH_STAT_LANEDN = true ∧
        t.time.edge = tabAt 0 s.trh.laneLast l + laneSilence) ∧
    (∀ l : Fin 2,
      let due := tabAt 0 s.trh.laneSince l + edgesPerMs
      bitAt (s.rd Reg.TRH_STAT_LANEUP) l = false → s.bit Reg.TRH_CTL_PAIR = true → tabAt 0 s.trh.laneLast l ≠ 0 →
      s.time.edge ≤ due → due ≤ tabAt 0 s.trh.laneLast l + laneSilence →
      Does (.laneUp l) s fun t => bitAt (t.rd Reg.TRH_STAT_LANEUP) l = true ∧ t.time.edge = due) ∧
    (s.bit Reg.TRH_CTL_PAIR = true → s.pwr.standby = false → s.time.edge ≤ s.trh.nextClaim → Does .claimTransmit s fun t =>
      let b := trhHeader 1 false 40 s.trh.seq 0 0 ++ (s.advanceEdge s.trh.nextClaim).claimPayload
      t.time.edge = s.trh.nextClaim ∧ t.trh.nextClaim = s.trh.nextClaim + 10 * edgesPerUs ∧
      t.trhOut = s.trhOut ++ [⟨3, b ++ leBytes 4 (crc32c b), []⟩] ∧ t.trh.seq = (s.trh.seq + 1) % 2 ^ 32 ∧ t.role = s.role) ∧
    (∀ c : Nat × Nat, s.trh.claims = [c] → Does .claimWindowExpiry s fun t => t.trh.claims = [] ∧ t.rd Reg.TRH_HIGH_E = 0 ∧
      c.2 + s.claimWindow < t.time.edge) ∧
    (∀ (l : Fin 2) (f : List Byte), s.bit Reg.TRH_CTL_PAIR = true → s.pwr.standby = false → trhParse f = none →
      exec (.claimReceive l f) s = .next (s.inc Reg.TRH_CNT_BAD)) ∧
    (∀ (l : Fin 2) (f : List Byte) (h : TrhHdr), s.bit Reg.TRH_CTL_PAIR = true → s.pwr.standby = false → trhParse f = some h → h.type = 1 →
      (Does (.claimReceive l f) s fun t => t.rd Reg.TRH_PENS_E = fieldAt h.payload 0 4 ∧ t.rd Reg.TRH_PIDENT_ID = fieldAt h.payload 8 4 ∧
        t.trh.pseen = true ∧ t.trh.prole = fieldAt h.payload 12 1 ∧ tabAt 0 t.trh.laneLast l = s.time.edge) ∧
      (s.rd Reg.TRH_PENS_E ≠ 0 → fieldAt h.payload 0 4 = 0 → s.role = roleInstep → s.rd Reg.TRH_LASTEP_EP < 0xFFFFFF →
        Does (.claimReceive l f) s fun t => t.role = roleActive ∧ t.bit Reg.TRH_STAT_TAKEN = true ∧
          t.rd Reg.TRH_ENSIGN_E = s.cand % 2 ^ 32 ∧ t.rd Reg.TRH_LASTEP_EP = s.rd Reg.TRH_LASTEP_EP + 1 ∧
          ∀ n : Fin 8, tabAt 0 t.trh.ringHold n = 2)) ∧
    (let e := max (tabAt 0 s.trh.laneLast 0) (tabAt 0 s.trh.laneLast 1) + s.lossEdges;
      (s.mayTake = true → s.rd Reg.TRH_LASTEP_EP < 0xFFFFFF → Does .linkLossTimeout s fun t => t.role = roleActive ∧
        t.bit Reg.TRH_STAT_TAKEN = true ∧ t.rd Reg.TRH_ENSIGN_E = s.cand % 2 ^ 32 ∧ e ≤ t.time.edge) ∧
      (s.mayTake = false → exec .linkLossTimeout s = .next (s.advanceEdge e))) ∧
    (s.role = roleNegotiate →
      (s.trh.negClaim = true → Does .negotiationEnd s fun t => t.role = roleSync ∧ t.trh.passOk = false) ∧
      (s.trh.negClaim = false → s.bit Reg.TRH_CTL_PAIR = true → s.cand ≤ s.trh.pcand → Does .negotiationEnd s fun t => t.role = roleSync) ∧
      (s.trh.negClaim = false → (s.bit Reg.TRH_CTL_PAIR = false ∨ s.trh.pcand < s.cand) → s.rd Reg.TRH_LASTEP_EP < 0xFFFFFF →
        Does .negotiationEnd s fun t => t.role = roleActive ∧ t.rd Reg.TRH_ENSIGN_E = s.cand % 2 ^ 32 ∧
          t.rd Reg.TRH_LASTEP_EP = s.rd Reg.TRH_LASTEP_EP + 1 ∧ t.trh.ringHold = [])) ∧
    (s.role = roleActive →
      (s.partnerInStep = true → Does .handover s fun t => t = { s with trh := { s.trh with handover := true } }) ∧
      (s.partnerInStep = false → Does .handover s fun t => t.bit Reg.TRH_STAT_HOREJ = true ∧ t.trh = s.trh) ∧
      (s.trh.handover = true → s.partnerInStep = true → Does .handoverDip s fun t => t.role = roleDipped ∧ t.rd Reg.TRH_ENSIGN_E = 0 ∧
        t.rd Reg.TRH_STAT_DIPCAUSE = 5 ∧ t.bit Reg.TRH_STAT_DIPPED = true ∧ t.trh.handover = false) ∧
      (s.trh.handover = true → s.partnerInStep = false → Does .handoverDip s fun t => t.role = roleActive ∧
        t.bit Reg.TRH_STAT_HOREJ = true ∧ t.trh.handover = false)) ∧
    (Does .terhaClrcnt s fun t => t.rd Reg.TRH_CNT_TAKEOVER = 0 ∧ t.rd Reg.TRH_CNT_MIRLATE = 0 ∧ t.rd Reg.TRH_CNT_BAD = 0 ∧
      t = { s with regs := t.regs })

/-- A standby gathers the records and retained data of the frames it receives (R384 to R386); a pass runs from PULL through
START, PASSDATA, ROUND2 and END: the active unit shows it busy and keeps the dirty blocks, the standby writes the data and is
in step at the end only with a matching CRC (R381, R391). -/
def Obligations.TerhaMirrorCommands : Prop :=
  (∀ (l : Fin 2) (f : List Byte) (psn : List Nat) (h : TrhHdr) (s : State), s.bit Reg.TRH_CTL_PAIR = true → s.pwr.standby = false → trhParse f = some h →
    (h.type = 2 → (s.role = roleSync ∨ s.role = roleInstep) →
      let x := tabAt ({} : HoistIn) s.trh.hoistIn h.ring
      -- a frame of the hoist that is not complete yet goes behind what has come, its poisoned places with it
      let d : PsnData := PsnData.app (if x.hnum = h.hnum ∧ x.last = false then (x.bytes, x.psn) else ([], [])) (h.payload, psn)
      Does (.hoistFrameReceive l f psn) s fun t => tabAt ({} : HoistIn) t.trh.hoistIn h.ring =
        { seen := true, hnum := h.hnum, bytes := d.1, psn := d.2, last := h.last } ∧
        t.regs = s.regs ∧ t.landing = s.landing) ∧
    (h.type = 3 → (s.role = roleSync ∨ s.role = roleInstep) →
      let k := fieldAt h.payload 4 1
      Does (.retFrameReceive l f psn) s fun t => (t.task k).retIn = (if (s.task k).retLast then [] else (s.task k).retIn) ++
        [(fieldAt h.payload 0 4, h.payload.drop 8, psnPart psn 8 h.payload.length)] ∧ (t.task k).retLast = h.last ∧ t.landing = s.landing) ∧
    (h.type = 6 → s.role = roleActive → Does (.pullReceive l f) s fun t => t.bit Reg.TRH_PASS_BUSY = true ∧
      t.bit Reg.TRH_PASS_R2 = false ∧ t.rd Reg.TRH_PASS_PROG = 0 ∧ t.lnd.dirtyOn = true ∧ t.lnd.dirty = []) ∧
    (s.role = roleSync → h.type = 5 → fieldAt h.payload 0 1 = 1 → Does (.passStartReceive l f) s fun t =>
      t.bit Reg.TRH_PASS_BUSY = true ∧ t.rd Reg.TRH_PASS_PROG = 0 ∧ t.trh.passBytes = fieldAt h.payload 4 4 ∧ t.trh.passSeen = 0 ∧
      t.trh.passOk = false) ∧
    (s.role = roleSync → s.bit Reg.TRH_PASS_BUSY = true →
      (h.type = 4 → Does (.passdataReceive l f psn) s fun t => t.trh.passSeen = s.trh.passSeen + (h.payload.length - 8) ∧
        t.landing = (s.srcWritePsn trhPort 13 (.hoist 0 0) (fieldAt h.payload 0 4) (h.payload.drop 8, psnPart psn 8 h.payload.length)).landing ∧
        t.role = roleSync) ∧
      (h.type = 5 → fieldAt h.payload 0 1 = 2 → Does (.passRound2Receive l f) s fun t => t.bit Reg.TRH_PASS_R2 = true ∧
        t.landing = s.landing) ∧
      (h.type = 5 → fieldAt h.payload 0 1 = 3 → Does (.passEndReceive l f) s fun t => t.bit Reg.TRH_PASS_BUSY = false ∧
        t.rd Reg.TRH_PASS_PROG = 1000 ∧ (t.trh.passOk = false → t.role = roleSync) ∧ (t.role = roleInstep → t.inStepNow = true)))) ∧
  (∀ s : State, s.role = roleActive → s.bit Reg.TRH_PASS_BUSY = true → Does .passctlEndSend s fun t =>
    t.bit Reg.TRH_PASS_BUSY = false ∧ t.bit Reg.TRH_PASS_R2 = false ∧ t.rd Reg.TRH_PASS_PROG = 1000 ∧ t.lnd.dirtyOn = false ∧
      t.lnd.dirty = [])

/-! ### The Tally, recording and replay (R394 to R414) -/

/-- A queued event becomes the next record, with its CRC, or counts as a repeat of the last one (R396, R397), and waits during a
clear (R400); a pending repeat count goes out after 1 ms (R397); the window shows a record and whether it is good (R399); only
the two keys in time open the clear, which leaves the CLEARED record alone (R400). -/
def Obligations.TallyCommands : Prop :=
  ∀ s : State,
    (∀ (e : TlyEvent) (q : List TlyEvent), s.bit Reg.TLY_STAT_CLRBUSY = false → s.tly.queue = e :: q → s.tly.lostNew = 0 →
      s.bit Reg.TLY_STAT_FULL = false →
      let n := s.rd Reg.TLY_STAT_NREC
      let r := tallyRecord (tallyHead e) 0 0
      (s.tallySame e = false → s.tly.dirty = false → n < 32767 → Does .tallyWrite s fun t => t.tly.queue = q ∧
        t.rd Reg.TLY_STAT_NREC = n + 1 ∧ t.tly.repeats = 0 ∧
        t.mram = ((s.mramPut (tallyOff n) (r.take 24)).mramPut (tallyOff n + 24) (r.drop 24)).mram) ∧
      (s.tallySame e = true → Does .tallyWrite s fun t => t.tly.queue = q ∧ t.rd Reg.TLY_STAT_NREC = n ∧
        t.tly.repeats = Nat.min (s.tly.repeats + 1) 0xFFFF)) ∧
    (s.bit Reg.TLY_STAT_CLRBUSY = true → Does .tallyWrite s fun t => t = s) ∧
    (s.tly.dirty = true → s.time.edge ≤ s.tly.lastWrite + edgesPerMs → Does .tallyRepeatUpdate s fun t => t.tly.dirty = false ∧
      t.time.edge = s.tly.lastWrite + edgesPerMs ∧ t.mram = (s.tallyTail s.tallyLast s.tly.last s.tly.repeats).mram) ∧
    (∀ i : Fin 32768,
      let r := s.mramGet (tallyOff i) 32
      let b := r.1.1
      let p := r.1.2
      let shown : State → Prop := fun t => t.rd Reg.TLY_CUR_INDEX = i ∧ t.bit Reg.TLY_WSTAT_PSN = p ∧ t.bit Reg.TLY_WSTAT_BUSY = false ∧
        t.bit Reg.TLY_WSTAT_VALID = (!p && decide (crc16 (b.take 30) = leNat (b.drop 30))) ∧
        t.bit Reg.TLY_WSTAT_EMPTY = decide (leNat ((b.drop 8).take 2) = 0) ∧
        (∀ k : Fin 8, t.rd Reg.TLY_WIN_D k = leNat ((b.drop (4 * k.val)).take 4)) ∧ t = { r.2 with regs := t.regs }
      Does (.tallyRead i) s shown ∧ ((s.rd Reg.TLY_CUR_INDEX + 1) % 32768 = i → Does .tallyNext s shown)) ∧
    (∀ key : Word,
      (s.tly.unlock = 0 → key = 0x7A11#32 → Does (.tallyUnlock key) s fun t => t.tly.unlock = 1 ∧ t.bit Reg.TLY_CLR_UNLOCKED = false) ∧
      (s.tly.unlock = 1 → s.unlockFresh = true → key = 0xC1EA#32 → Does (.tallyUnlock key) s fun t => t.tly.unlock = 2 ∧
        t.bit Reg.TLY_CLR_UNLOCKED = true) ∧
      (key ≠ 0x7A11#32 → key ≠ 0xC1EA#32 → Does (.tallyUnlock key) s fun t => t.tly.unlock = 0 ∧
        t.bit Reg.TLY_CLR_UNLOCKED = false)) ∧
    (s.tly.unlock ≠ 0 → s.time.edge ≤ s.tly.unlockAt + edgesPerMs + 1 → Does .tallyUnlockTimeout s fun t => t.tly.unlock = 0 ∧
      t.bit Reg.TLY_CLR_UNLOCKED = false ∧ t.time.edge = s.tly.unlockAt + edgesPerMs + 1) ∧
    (s.tly.unlock = 2 ∧ s.unlockFresh = true → Does .tallyClear s fun t => t.rd Reg.TLY_STAT_NREC = 1 ∧ t.bit Reg.TLY_STAT_FULL = false ∧
      t.bit Reg.TLY_STAT_CLRBUSY = true ∧ t.tly.unlock = 0 ∧ t.tly.clearAt = some 1) ∧
    (¬ (s.tly.unlock = 2 ∧ s.unlockFresh = true) → Does .tallyClear s fun t => t.mram = s.mram ∧ t.tly.unlock = 0 ∧
      t.rd Reg.TLY_STAT_NREC = s.rd Reg.TLY_STAT_NREC) ∧
    (∀ n : Nat, s.tly.clearAt = some n → Does .tallyClearDone s fun t => t.bit Reg.TLY_STAT_CLRBUSY = false ∧ t.tly.clearAt = none ∧
      t.mram = (s.tallyZero n).mram ∧ t.landing = s.landing)

/-- Recording and replay start only from rest, and a replay only with the identities it was recorded under (R408, R411); a
staged entry goes to its ring when it has room (R407); the trace ring starts empty and freezes when its post-trigger count has
run out (R409, R410); an entry of the replay buffer is written at its instant (R412); an abort ends the replay with cause 6 in STOP
(R413). -/
def Obligations.RecordAndReplayCommands : Prop :=
  ∀ s : State,
    (s.bit Reg.TLY_RSTAT_RUN = false →
      (s.recReady = true → s.replaying = false → Does .recordStart s fun t => t.bit Reg.TLY_RSTAT_RUN = true ∧ t.tly.rsStart = s.htime ∧
        t.tex.items = [] ∧ t.cle.passes = [] ∧ t.time = s.time) ∧
      (s.recReady = false ∨ s.replaying = true → Does .recordStart s fun t => t.bit Reg.TLY_RSTAT_REJ = true ∧
        t.bit Reg.TLY_RSTAT_RUN = false ∧ t = { s with regs := t.regs })) ∧
    (s.bit Reg.TLY_RSTAT_RUN = true → Does .recordStop s fun t => t.bit Reg.TLY_RSTAT_RUN = false ∧ t.progState = s.progState ∧
      t.time = s.time) ∧
    (∀ (k : Fin 8) (m : Nat) (l : List (Nat × Nat)), s.takeStaged s.tly.staged = some ((k.val, m), l) →
      let r := s.lndBytes 7 (s.stagingOff m) 32
      Does .recordEntryDrain s fun t => t.tly.staged = l ∧ t.landing = r.2.landing ∧
        t.rd Reg.HIF_RCNT_CNT (34 + k.val) = (s.rd Reg.HIF_RCNT_CNT (34 + k.val) + 1) % 2 ^ 32 ∧
        ∃ q : List HostOut, t.hostOut = s.hostOut ++ .write (s.slotAddr (34 + k) (s.rd Reg.HIF_RCNT_CNT (34 + k))) r.1.1 :: q) ∧
    (s.takeStaged s.tly.staged = none → exec .recordEntryDrain s = .next s.rsWaits) ∧
    (s.bit Reg.TLY_TRCFG_EN = false → Does .traceEnable s fun t => t.bit Reg.TLY_TRCFG_EN = true ∧ t.bit Reg.TLY_TRSTAT_FROZEN = false ∧
      t.tly.widx = 0 ∧ t.tly.post = none ∧ t.landing = s.landing) ∧
    (s.tly.post = some 0 → Does .traceFreeze s fun t => t.bit Reg.TLY_TRSTAT_FROZEN = true ∧ t.tly.post = none ∧
      t.landing = s.landing) ∧
    (s.replaying = false →
      let rest := s.recReady = true ∧ s.bit Reg.TLY_RSTAT_RUN = false ∧ s.everySto = true ∧ ∀ n : Fin 8, s.bit Reg.HST_RINGCTL_EN n = false
      (¬ rest → Does .replayStart s fun t => t.rd Reg.TLY_RPSTAT_CAUSE = 9 ∧ t.bit Reg.TLY_RSTAT_REJ = true ∧ t.replaying = false) ∧
      (rest → s.cfgId ≠ s.rd Reg.TLY_RPCFG_ID → Does .replayStart s fun t => t.rd Reg.TLY_RPSTAT_CAUSE = 7 ∧
        t.bit Reg.TLY_RSTAT_REJ = true ∧ t.replaying = false) ∧
      (rest → s.cfgId = s.rd Reg.TLY_RPCFG_ID → s.rd Reg.TLY_FWID_ID ≠ s.rd Reg.TLY_RPFW_ID → Does .replayStart s fun t =>
        t.rd Reg.TLY_RPSTAT_CAUSE = 8 ∧ t.bit Reg.TLY_RSTAT_REJ = true ∧ t.replaying = false) ∧
      (rest → s.cfgId = s.rd Reg.TLY_RPCFG_ID → s.rd Reg.TLY_FWID_ID = s.rd Reg.TLY_RPFW_ID → Does .replayStart s fun t =>
        t.replaying = true ∧ t.bit Reg.TEX_DCTL_DET = true ∧ t.bit Reg.HST_TCTL_SERVO = false ∧ t.bit Reg.PWR_STAT_OUTREL = false ∧
        t.T = s.rd Reg.TLY_RPT0L_HT + s.rd Reg.TLY_RPT0H_HT * 2 ^ 32)) ∧
    (s.replaying = true →
      (Does .replayAbort s fun t => t.replaying = false ∧ t.rd Reg.TLY_RPSTAT_CAUSE = 6 ∧ t.bit Reg.TLY_RPSTAT_END = true ∧
        t.progState = 0) ∧
      (let get := s.rd Reg.TLY_RPGET_CNT
        let n := (s.rd Reg.TLY_RPPUT_CNT + 2 ^ 32 - get) % 2 ^ 32
        (n = 0 → Does .replayInject s fun t => t = s) ∧
        ∀ (c : Nat) (e : RpEntry),
          let g := State.rpGroup n get none s
          let u := g.2
          g.1 = [(c, e)] → e.tick = true →
          (u.T < u.rpInstant e → u.tly.rpLast ≤ u.rpInstant e → exec .replayInject s = .next u) ∧
          (¬ e.src ∈ [0, 1, 11, 12, 14, 15] → e.src < 16 → u.tly.rpLast < u.rpInstant e → u.rpInstant e ≤ u.T →
            (e.timed = true → u.T ≤ u.rpInstant e + u.rpGrace e) →
            Does .replayInject s fun t => t.rd Reg.TLY_RPGET_CNT = (get + 1) % 2 ^ 32 ∧ t.tly.rpLast = u.rpInstant e ∧
              t.landing = (u.lndWriteCws 7 (e.addr / 8 * 8)
                (⟨BitVec.ofNat 64 e.d0, e.p0⟩ :: (if e.half then [] else [⟨BitVec.ofNat 64 e.d1, e.p1⟩]))).landing) ∧
          (e.src = 1 → u.tly.rpLast < u.rpInstant e → u.rpInstant e ≤ u.T → u.T ≤ u.rpInstant e + u.rpGrace e →
            Does .replayInject s fun t => ∃ w : State, w.rd Reg.TLY_RPGET_CNT = (get + 1) % 2 ^ 32 ∧ w.tly.rpLast = u.rpInstant e ∧
              w.landing = u.landing ∧ t = w.regWrite e.addr (e.d0 % 2 ^ 32))))

/-! ### Power, reset and start-up (R416 to R446) -/

/-- The power stage (R421 to R428, R432): rails up give event P, a fall of VBUS the warning with its time, a deeper one event B, a
recovery the record of the dip; the end of the bank loses the Landing; the analogue rails, the hold-up charge, standby and the keep
domain's source show as they change. Events W and S come from their causes alone (R430, R431). -/
def Obligations.PowerAndResetCommands : Prop :=
  (∀ s : State,
    (∀ mv : BitVec 16, s.pwr.rails = false → s.pwr.standby = false → Does (.powerOnReset mv) s fun t => AfterReset t 1 ∧ t.pwr.rails = true ∧
      t.bit Reg.PWR_STAT_VBUSOK = true ∧ t.bit Reg.PWR_STAT_PGANA = true ∧ t.rd Reg.PWR_VBUS_MV = mv.toNat ∧ t.landing = {} ∧
      t.mram = s.mram ∧ t.pending = s.pending) ∧
    (Does .analogueRailFault s fun t => t.pwr.analogue = false ∧ t.bit Reg.PWR_STAT_PGANA = false ∧ t.landing = s.landing) ∧
    (∀ b : Bool, s.pwr.rails = true ∨ b = true → Does (.keepSourceSwitch b) s fun t => t.pwr.vkeep = b ∧ t.bit Reg.PWR_KSTAT_KEEPSRC = b ∧
      t.keep = s.keep) ∧
    (s.pwr.rails = false → s.pwr.standby = false → Does (.keepSourceSwitch false) s fun t => t.keep = {} ∧
      t.bit Reg.PWR_KSTAT_RTCVAL = false) ∧
    (s.pwr.brown = true → Does .holdupExhausted s fun t => t.pwr.rails = false ∧ t.pwr.bankLow = true ∧ t.landing = {} ∧
      t.progState = 0 ∧ t.mram = s.mram) ∧
    (s.pwr.standby = true → ∃ u, exec .standbyExit s = .next u.boot ∧ AfterReset u 5 ∧ u.pwr.standby = false ∧ u.pwr.rails = true ∧
      u.landing = {} ∧ u.keep = s.keep ∧
      -- and boot ends in recovery without valid firmware, in STOP with CFGERR without a valid configuration
      (let f := (u.bootPower.bootTally.bootKeep.bootCauses.bootRetire).bootFirmware;
        (f.1 = false → u.boot.pwr.booted = true ∧ u.boot.pwr.recovery = true) ∧
        (f.1 = true → f.2.readConfig.1 = none → u.boot.pwr.booted = true ∧ u.boot.bit Reg.PWR_BSTAT_CFGERR = true ∧
          u.boot.bit Reg.PWR_BSTAT_BLAZE = true)))) ∧
  (∀ s : State, s.running = true →
    (∀ mv : BitVec 16, Does (.holdupCharged mv) s fun t => t.bit Reg.PWR_STAT_HURDY = true ∧ t.rd Reg.PWR_VBUS_HUV = mv.toNat ∧
      t = { s with regs := t.regs }) ∧
    (∀ mv : BitVec 16, s.bit Reg.PWR_STAT_PFW = false → Does (.powerFailWarning mv) s fun t => t.bit Reg.PWR_STAT_PFW = true ∧
      t.bit Reg.PWR_STAT_VBUSOK = false ∧ t.rd Reg.PWR_VBUS_MV = mv.toNat ∧ t.pwr.pfwAt = s.time.edge ∧ t.tex.ck.isSome = true) ∧
    (∀ (low : BitVec 16) (dur : Word), s.bit Reg.PWR_STAT_PFW = true →
      s.time.edge ≤ s.pwr.pfwAt + dur.toNat * edgesPerUs + edgesPerMs → Does (.powerFailClear low dur) s fun t =>
        t.bit Reg.PWR_STAT_PFW = false ∧ t.bit Reg.PWR_STAT_VBUSOK = true ∧ t.bit Reg.PWR_STAT_DIP = true ∧
        t.rd Reg.PWR_DIPMIN_MV = low.toNat ∧ t.rd Reg.PWR_DIPDUR_US = dur.toNat ∧
        t.rd Reg.PWR_DIPMIN_CNT = satAdd 16 (s.rd Reg.PWR_DIPMIN_CNT) 1 ∧
        t.time.edge = s.pwr.pfwAt + dur.toNat * edgesPerUs + edgesPerMs) ∧
    (∀ mv : BitVec 16, Does (.brownOut mv) s fun t => AfterReset t 2 ∧ t.pwr.brown = true ∧ t.rd Reg.PWR_SPSSTAT_ON = 0 ∧
      t.bit Reg.PWR_STAT_HURDY = false) ∧
    (∀ src : Fin 16, 1 ≤ src.val → src.val ≤ 4 → (src.val = 3 → s.bit Reg.SAF_STAT_SAFELOCK = false) →
      Does (.moduleWatchdogReset src) s fun t => AfterReset t 3 ∧ t.pwr.wdsrc = src ∧ t.keep = s.keep) ∧
    (s.progState = 0 → s.everySto = true → Does .standbyEntry s fun t => t.pwr.standby = true ∧ t.pwr.rails = false ∧ t.landing = {} ∧
      t.keep = s.keep ∧ t.mstate = msInit) ∧
    (s.progState ≠ 0 ∨ s.everySto = false → Does .standbyEntry s fun t => t.bit Reg.PWR_STAT_STBYREJ = true ∧ t.pwr = s.pwr ∧
      t.landing = s.landing) ∧
    (Does .rtcUpdate s fun t => t.bit Reg.PWR_KSTAT_RTCVAL = true ∧ t.pwr.rtcSec = t.time.sec ∧
      t.pwr.rtcFrac = t.time.ns * 32768 / 1000000000 ∧
      (s.time.sec + 1 < 2 ^ 48 → (s.time.sec + 1) * 1000000000 ≤ t.T))) ∧
  (∀ (v : Word) (s : State),
    (v.toNat / 65536 = 0x5253 → v.toNat % 2 = 1 → Does (.softwareReset v) s fun t => AfterReset t 4 ∧ t.keep = s.keep) ∧
    (v.toNat / 65536 ≠ 0x5253 ∨ v.toNat % 2 = 0 → Does (.softwareReset v) s fun t => t = s))

/-- Boot without valid firmware is recovery; without a valid configuration it stops in STOP with CFGERR; with one it sets the blaze
and the pair negotiates (R436 to R439). The time gate opens on its condition or at its time (R442). Outputs are released in RUN with
safety's release (R443); sensor supplies and the keep SRAM act as written (R445, R446). -/
def Obligations.BootAndOutputCommands : Prop :=
  (∀ s : State, s.pwr.booted = false → s.pwr.standby = false → (s.pwr.rails = true ∨ s.pwr.brown = true) →
    let f := (s.bootPower.bootTally.bootKeep.bootCauses.bootRetire).bootFirmware
    (f.1 = false → Does .boot s fun t => t.pwr.booted = true ∧ t.pwr.recovery = true ∧ t.bit Reg.PWR_BSTAT_BLAZE = true ∧
      t.bit Reg.PWR_BSTAT_NOFW = true) ∧
    (f.1 = true →
      (f.2.readConfig.1 = none → Does .boot s fun t => t.pwr.booted = true ∧ t.bit Reg.PWR_BSTAT_CFGERR = true ∧
        t.bit Reg.PWR_BSTAT_BLAZE = true ∧ t.role = roleNegotiate) ∧
      (f.2.readConfig.1 = some [] → f.2.readConfig.2.bit Reg.PWR_BOOTCFG_TLOCK = false → f.2.readConfig.2.startCode = 0 →
        Does .boot s fun t => t.pwr.booted = true ∧ t.bit Reg.PWR_BSTAT_BLAZE = true ∧ t.role = roleNegotiate ∧ t.pwr.gate = false) ∧
      -- the three passes of a configuration: around the blaze, after it, and behind the time gate
      (∀ l : List CfgRec, f.2.readConfig.1 = some l →
        let apply := fun (x : State) (k : List CfgRec) => x.over k fun r a => a.cfgApply r
        let w := (apply (apply f.2.readConfig.2 (l.filter (·.bl))).blaze.bootTime (l.filter fun r => !r.bl && !r.defer)).bootIslands
        let d : State := { w with pwr := { w.pwr with recs := l.filter fun r => !r.bl && r.defer } }
        w.pwr.booted = true ∧ w.role = roleNegotiate ∧
        (w.bit Reg.PWR_BOOTCFG_TLOCK = true → w.gateOpen = false →
          exec .boot s = .next { d with pwr := { d.pwr with gate := true, gateAt := d.time.edge } }) ∧
        (w.bit Reg.PWR_BOOTCFG_TLOCK = false ∨ w.gateOpen = true → exec .boot s = .next d.bootProceed)))) ∧
  (∀ s : State, s.pwr.gate = true → s.pwr.recs = [] → s.startCode = 0 →
    (s.gateOpen = true → Does .timeGateOpen s fun t => t.pwr.gate = false ∧ t.regs = s.regs ∧ t.landing = s.landing) ∧
    (s.time.edge ≤ s.pwr.gateAt + max 1 (s.rd Reg.PWR_BOOTCFG_TLTMO) * 1000 * edgesPerMs → Does .timeGateTimeout s fun t => t.pwr.gate = false ∧
      t.time.edge = s.pwr.gateAt + max 1 (s.rd Reg.PWR_BOOTCFG_TLTMO) * 1000 * edgesPerMs ∧ t.landing = s.landing)) ∧
  (∀ s : State,
    (s.progState = 1 → s.bit Reg.SAF_STAT_REL = true → s.replaying = false → Does .outputRelease s fun t =>
      t.bit Reg.PWR_STAT_OUTREL = true) ∧
    (s.progState ≠ 1 ∨ s.bit Reg.SAF_STAT_REL = false ∨ s.replaying = true → Does .outputRelease s fun t => t = s) ∧
    (∀ n : Fin 8,
      (∀ b : Bool, Does (.spsSwitch n b) s fun t => bitAt (t.rd Reg.PWR_SPSCTL_EN) n = b ∧ bitAt (t.rd Reg.PWR_SPSSTAT_ON) n = b ∧
        t = { s with regs := t.regs }) ∧
      (bitAt (s.rd Reg.PWR_SPSSTAT_ON) n = true → Does (.spsLimit n) s fun t => bitAt (t.rd Reg.PWR_SPSSTAT_LIM) n = true ∧
        t.bit Reg.PWR_EVSUM_SPSLIM = true ∧ t.rd Reg.PWR_SPSCTL_EN = s.rd Reg.PWR_SPSCTL_EN)) ∧
    (∀ (w : Fin 8192) (c : Cw), c.poison = false →
      (∀ v : Word, s.keep.decode (w.val / 2) = (c, .clean) → Does (.keepWrite w v) s fun t =>
        t = { s with keep := s.keep.put (w.val / 2) ⟨mergeBytes (if w.val % 2 = 0 then 0x0F#8 else 0xF0#8) c.data
          (BitVec.ofNat 64 (v.toNat * 2 ^ (32 * (w.val % 2)))), false⟩ }) ∧
      (∀ up : BitVec 80, (s.keep.upset (w.val / 2) up).decode (w.val / 2) = (c, .clean) → Does (.keepRead w up) s fun t =>
        t.hostOut = s.hostOut ++ [.completion (leBytes 4 (bitsOf c.data.toNat (32 * (w.val % 2)) 32)) false] ∧ t.regs = s.regs)))

/-! ### The whole block -/

/-- From every state, every command and the idle edge answer a next state: nothing the block is given faults or is refused, and
nothing ends a run. -/
def Obligations.EveryStepAnswersANextState : Prop :=
  (∀ (i : Instr) (s : State), ∃ t, exec i s = .next t) ∧ ∀ s : State, GoesOn s

/-- Every step keeps the canonical forms: addresses strictly rising and no entry equal to what an unlisted address reads as, in
the Landing, the MRAM, the keep SRAM, the state memories and the engines' code and data memories, and rising keys in the table of
register values. So equal memories are equal data. -/
def Obligations.EveryStepKeepsMemoriesCanonical : Prop :=
  ∀ s t : State, s.canonical = true → step s = .next t → t.canonical = true

/-- Every step keeps device time within its fields: SEC below 2^48, NS below a second, ACC and the slew's share below a
nanosecond (R30, R31, R33, R34). -/
def Obligations.EveryStepKeepsTimeInRange : Prop :=
  ∀ s t : State, s.timeInRange = true → step s = .next t → t.timeInRange = true

/-- Reset: every field of every register the spec gives reads as its reset value, the program stands in STOP, safety in INIT with
SDIS open, no ring runs, no output stage is released and no claim is raised; device time is 0 and within its fields, the queue is empty and the
memories are canonical and list nothing (R9, R13, R374, R434). -/
def Obligations.ResetLeaves : Prop :=
  (∀ (f : Field) (i j : Nat), State.reset.rd f i j = f.reset i % 2 ^ 32) ∧
    State.reset.progState = 0 ∧ State.reset.mstate = msInit ∧ State.reset.saf.sdis = false ∧ State.reset.enabled = false ∧
    (∀ n : Fin 8, State.reset.bit Reg.HST_RSTAT_RUN n = false) ∧ State.reset.bit Reg.PWR_STAT_OUTREL = false ∧
    State.reset.T = 0 ∧ State.reset.pending = [] ∧ State.reset.canonical = true ∧ State.reset.timeInRange = true ∧ State.reset.landing = {} ∧
    State.reset.mram = {} ∧ State.reset.keep = {}
end

