-- ==== Sys2Proof/Laws/Table.lean ====
section
/-! SUPPORT. Sparse tables: what an update leaves at each number, and that every update keeps the canonical form. -/
namespace Sys2Proof.Machine

variable {α : Type}

theorem tabAt_tabDel_same (d : α) (t : Tab α) (k : Nat) : tabAt d (tabDel t k) k = d := by
  induction t with
  | nil => rfl
  | cons p t ih =>
    obtain ⟨a, v⟩ := p
    by_cases h : k = a
    · subst h; simp only [tabDel, if_true, ih]
    · simp [tabDel, h, tabAt, ih]

theorem tabAt_tabDel_ne (d : α) (t : Tab α) {k k' : Nat} (h : k' ≠ k) : tabAt d (tabDel t k) k' = tabAt d t k' := by
  induction t with
  | nil => rfl
  | cons p t ih =>
    obtain ⟨a, v⟩ := p
    by_cases h1 : k = a
    · subst h1; simp [tabDel, tabAt, h, ih]
    · by_cases h2 : k' = a
      · subst h2; simp [tabDel, tabAt, h1]
      · simp [tabDel, tabAt, h1, h2, ih]

theorem tabAt_tabIns_ne (d : α) (t : Tab α) {k k' : Nat} (v : α) (h : k' ≠ k) : tabAt d (tabIns t k v) k' = tabAt d t k' := by
  induction t with
  | nil => simp [tabIns, tabAt, h]
  | cons p t ih =>
    obtain ⟨a, w⟩ := p
    by_cases h1 : k < a
    · simp [tabIns, tabAt, h1, h]
    · by_cases h2 : k' = a
      · subst h2; simp [tabIns, tabAt, h1]
      · simp [tabIns, tabAt, h1, h2, ih]

/-- Number `k` is not listed. -/
theorem tabAt_tabIns_same (d : α) (t : Tab α) (k : Nat) (v : α) : tabAt d (tabIns (tabDel t k) k v) k = v := by
  induction t with
  | nil => simp [tabDel, tabIns, tabAt]
  | cons p t ih =>
    obtain ⟨a, w⟩ := p
    by_cases h1 : k = a
    · simp [tabDel, h1]; subst h1; exact ih
    · by_cases h2 : k < a
      · simp [tabDel, h1, tabIns, h2, tabAt]
      · simp [tabDel, h1, tabIns, h2, tabAt, ih]

/-- A read after an update. -/
theorem tabAt_tabPut [DecidableEq α] (d : α) (t : Tab α) (k k' : Nat) (v : α) :
    tabAt d (tabPut d t k v) k' = if k' = k then v else tabAt d t k' := by
  unfold tabPut
  by_cases hv : v = d
  · by_cases h : k' = k
    · subst h; simp [hv, tabAt_tabDel_same]
    · simp [hv, h, tabAt_tabDel_ne d t h]
  · by_cases h : k' = k
    · subst h; simp [hv, tabAt_tabIns_same]
    · simp [hv, h, tabAt_tabIns_ne d _ v h, tabAt_tabDel_ne d t h]

@[simp] theorem tabAt_tabPut_same [DecidableEq α] (d : α) (t : Tab α) (k : Nat) (v : α) :
    tabAt d (tabPut d t k v) k = v := by simp [tabAt_tabPut]

theorem tabAt_tabPut_ne [DecidableEq α] (d d' : α) (t : Tab α) {k k' : Nat} (v : α) (h : k' ≠ k) :
    tabAt d (tabPut d' t k v) k' = tabAt d t k' := by
  unfold tabPut
  by_cases hv : v = d'
  · simp [hv, tabAt_tabDel_ne d t h]
  · simp [hv, tabAt_tabIns_ne d _ v h, tabAt_tabDel_ne d t h]

@[simp] theorem tabAt_nil (d : α) (k : Nat) : tabAt d [] k = d := rfl

/-! ### The canonical form -/

theorem tabRising_weaken {lo lo' : Nat} {t : Tab α} (h : lo' ≤ lo) (ht : tabRising lo t = true) : tabRising lo' t = true := by
  cases t with
  | nil => rfl
  | cons p t => simp [tabRising] at *; exact ⟨by omega, ht.2⟩

theorem tabRising_tabDel {lo k : Nat} {t : Tab α} (ht : tabRising lo t = true) : tabRising lo (tabDel t k) = true := by
  induction t generalizing lo with
  | nil => rfl
  | cons p t ih =>
    obtain ⟨a, v⟩ := p
    simp [tabRising] at ht
    by_cases h : k = a
    · simp [tabDel, h]; subst h; exact ih (tabRising_weaken (by omega) ht.2)
    · simp [tabDel, h, tabRising]; exact ⟨ht.1, ih ht.2⟩

theorem tabRising_tabIns {lo k : Nat} {t : Tab α} {v : α} (hk : lo ≤ k) (ht : tabRising lo t = true)
    (hn : ∀ p ∈ t, p.1 ≠ k) : tabRising lo (tabIns t k v) = true := by
  induction t generalizing lo with
  | nil => simp [tabIns, tabRising, hk]
  | cons p t ih =>
    obtain ⟨a, w⟩ := p
    simp [tabRising] at ht
    have ha : a ≠ k := hn (a, w) (by simp)
    by_cases h : k < a
    · simp only [tabIns, h, if_true, tabRising, Bool.and_eq_true, decide_eq_true_eq]; exact ⟨hk, by omega, ht.2⟩
    · simp [tabIns, h, tabRising, ht.1]
      exact ih (by omega) ht.2 (fun p hp => hn p (by simp [hp]))

theorem tabDel_ne {t : Tab α} {k : Nat} : ∀ p ∈ tabDel t k, p.1 ≠ k := by
  induction t with
  | nil => simp [tabDel]
  | cons p t ih =>
    obtain ⟨a, v⟩ := p
    by_cases h : k = a
    · subst h; simp only [tabDel, if_true]; exact ih
    · intro q hq
      simp [tabDel, h] at hq
      rcases hq with rfl | hq
      · simpa using fun h' => h h'.symm
      · exact ih q hq

theorem mem_tabDel {t : Tab α} {k : Nat} {p : Nat × α} (hp : p ∈ tabDel t k) : p ∈ t := by
  induction t with
  | nil => simp [tabDel] at hp
  | cons q t ih =>
    obtain ⟨a, v⟩ := q
    by_cases h : k = a
    · simp [tabDel, h] at hp; subst h; exact List.mem_cons_of_mem _ (ih hp)
    · simp [tabDel, h] at hp
      rcases hp with rfl | hp
      · simp
      · exact List.mem_cons_of_mem _ (ih hp)

theorem mem_tabIns {t : Tab α} {k : Nat} {v : α} {p : Nat × α} (hp : p ∈ tabIns t k v) : p = (k, v) ∨ p ∈ t := by
  induction t with
  | nil => simpa [tabIns] using hp
  | cons q t ih =>
    obtain ⟨a, w⟩ := q
    by_cases h : k < a
    · simpa [tabIns, h] using hp
    · simp [tabIns, h] at hp
      rcases hp with rfl | hp
      · simp
      · rcases ih hp with h' | h'
        · exact .inl h'
        · exact .inr (List.mem_cons_of_mem _ h')

/-- Every update keeps the canonical form. -/
theorem tabWf_tabPut [DecidableEq α] {d : α} {t : Tab α} (k : Nat) (v : α) (ht : tabWf d t = true) :
    tabWf d (tabPut d t k v) = true := by
  simp only [tabWf, Bool.and_eq_true, List.all_eq_true, decide_eq_true_eq] at *
  unfold tabPut
  by_cases hv : v = d
  · simp only [hv, if_true]
    exact ⟨tabRising_tabDel ht.1, fun p hp => ht.2 p (mem_tabDel hp)⟩
  · simp only [hv, if_false]
    refine ⟨tabRising_tabIns (by omega) (tabRising_tabDel ht.1) tabDel_ne, fun p hp => ?_⟩
    rcases mem_tabIns hp with rfl | hp
    · exact hv
    · exact ht.2 p (mem_tabDel hp)

theorem tabWf_tabDel [DecidableEq α] {d : α} {t : Tab α} (k : Nat) (ht : tabWf d t = true) : tabWf d (tabDel t k) = true := by
  simp only [tabWf, Bool.and_eq_true, List.all_eq_true, decide_eq_true_eq] at *
  exact ⟨tabRising_tabDel ht.1, fun p hp => ht.2 p (mem_tabDel hp)⟩

/-- Filtering a table keeps its canonical form. -/
theorem tabRising_filter {lo : Nat} {t : Tab α} (q : Nat × α → Bool) (ht : tabRising lo t = true) :
    tabRising lo (t.filter q) = true := by
  induction t generalizing lo with
  | nil => rfl
  | cons p t ih =>
    obtain ⟨a, v⟩ := p
    simp [tabRising] at ht
    by_cases h : q (a, v)
    · simp [h, tabRising]; exact ⟨ht.1, ih ht.2⟩
    · simp [h]; exact ih (tabRising_weaken (by omega) ht.2)

theorem tabWf_filter [DecidableEq α] {d : α} {t : Tab α} (q : Nat × α → Bool) (ht : tabWf d t = true) :
    tabWf d (t.filter q) = true := by
  simp only [tabWf, Bool.and_eq_true, List.all_eq_true, decide_eq_true_eq] at *
  exact ⟨tabRising_filter q ht.1, fun p hp => ht.2 p ((List.mem_filter.mp hp).1)⟩

/-! ### Sets of numbers -/

theorem mem_setIns {l : List Nat} {k a : Nat} : a ∈ setIns l k ↔ a = k ∨ a ∈ l := by
  induction l with
  | nil => simp [setIns]
  | cons b l ih =>
    by_cases h : k < b
    · simp [setIns, h]
    · by_cases h2 : k = b
      · subst h2; simp [setIns]
      · simp only [setIns, h, h2, if_false, List.mem_cons, ih]; exact ⟨fun x => x.elim (fun y => .inr (.inl y)) (fun y => y.elim .inl fun z => .inr (.inr z)), fun x => x.elim (fun y => .inr (.inl y)) fun y => y.elim .inl fun z => .inr (.inr z)⟩

theorem contains_setTo (l : List Nat) (k a : Nat) (b : Bool) :
    (setTo l k b).contains a = if a = k then b else l.contains a := by
  cases b <;> by_cases h : a = k <;> simp [setTo, setDel, mem_setIns, h, List.contains_eq_mem]

end Sys2Proof.Machine
end

