-- ==== Sys2Proof/Laws/Memory.lean ====
section
/-! SUPPORT. Memories of codewords: a read after a write, what a write leaves alone, and that every operation keeps the canonical
form; reads of clean codewords change nothing. -/
namespace Sys2Proof.Machine

/-! ### Bytes of numbers -/

theorem leNat_leBytes (n : Nat) : ∀ v : Nat, leNat (leBytes n v) = v % 256 ^ n := by
  induction n with
  | zero => intro v; simp [leBytes, leNat, Nat.mod_one]
  | succ n ih =>
    intro v
    simp only [leBytes, leNat, ih, BitVec.toNat_ofNat]
    rw [show (256 : Nat) ^ (n + 1) = 256 * 256 ^ n by rw [Nat.pow_succ, Nat.mul_comm], Nat.mod_mul]

theorem leBytes_length (n : Nat) : ∀ v : Nat, (leBytes n v).length = n := by
  induction n with
  | zero => intro v; rfl
  | succ n ih => intro v; simp [leBytes, ih]

/-! ### The canonical form -/

theorem Mem.wf_setByte {m : Mem} (a : Nat) (v : Byte) (h : m.wf = true) : (m.setByte a v).wf = true := by
  simp only [Mem.wf, Bool.and_eq_true] at *
  exact ⟨⟨tabWf_tabPut a v h.1.1, h.1.2⟩, h.2⟩

theorem Mem.wf_setBytes (l : List Byte) : ∀ (m : Mem) (a : Nat), m.wf = true → (m.setBytes a l).wf = true := by
  induction l with
  | nil => intro m a h; exact h
  | cons b l ih => intro m a h; exact ih _ _ (Mem.wf_setByte a b h)

theorem setIns_rising {k : Nat} : ∀ (l : List Nat) (lo : Nat), lo ≤ k → tabRising lo (l.map fun w => (w, ())) = true →
    tabRising lo ((setIns l k).map fun w => (w, ())) = true := by
  intro l
  induction l with
  | nil => intro lo hk _; simp [setIns, tabRising, hk]
  | cons a l ih =>
    intro lo hk h
    simp [tabRising] at h
    unfold setIns
    split
    · simp [tabRising, hk, h.2]; omega
    · split
      · simp [tabRising, h]
      · simp only [List.map_cons, tabRising, Bool.and_eq_true, decide_eq_true_eq]
        exact ⟨h.1, ih _ (by omega) h.2⟩

theorem setDel_rising {k : Nat} : ∀ (l : List Nat) (lo : Nat), tabRising lo (l.map fun w => (w, ())) = true →
    tabRising lo ((setDel l k).map fun w => (w, ())) = true := by
  intro l
  induction l with
  | nil => intro lo h; exact h
  | cons a l ih =>
    intro lo h
    simp [tabRising] at h
    by_cases ha : a = k
    · rw [show setDel (a :: l) k = setDel l k by simp [setDel, ha]]
      exact tabRising_weaken (Nat.le_succ_of_le h.1) (ih _ h.2)
    · rw [show setDel (a :: l) k = a :: setDel l k by simp [setDel, ha]]
      simp only [List.map_cons, tabRising, Bool.and_eq_true, decide_eq_true_eq]
      exact ⟨h.1, ih _ h.2⟩

theorem setTo_rising {l : List Nat} (k : Nat) (b : Bool) (h : tabRising 0 (l.map fun w => (w, ())) = true) :
    tabRising 0 ((setTo l k b).map fun w => (w, ())) = true := by
  cases b
  · exact setDel_rising l 0 h
  · exact setIns_rising l 0 (Nat.zero_le _) h

theorem Mem.wf_put {m : Mem} (w : Nat) (c : Cw) (h : m.wf = true) : (m.put w c).wf = true := by
  have h1 := Mem.wf_setBytes (leBytes 8 c.data.toNat) m (w * 8) h
  simp only [Mem.wf, Mem.put, Bool.and_eq_true] at *
  exact ⟨⟨h1.1.1, setTo_rising w c.poison h1.1.2⟩, tabWf_tabDel w h1.2⟩

theorem Mem.wf_upset {m : Mem} (w : Nat) (mask : BitVec 80) (h : m.wf = true) : (m.upset w mask).wf = true := by
  unfold Mem.upset
  split
  · exact h
  · simp only [Mem.wf, Bool.and_eq_true] at *
    exact ⟨h.1, tabWf_tabPut w _ h.2⟩

theorem Mem.wf_empty : ({} : Mem).wf = true := by decide

theorem State.reset_landing_wf : State.reset.landing.wf = true ∧ State.reset.mram.wf = true ∧ State.reset.keep.wf = true := by decide

/-! ### A read after a write -/

theorem Mem.byte_setByte (m : Mem) (a a' : Nat) (v : Byte) : (m.setByte a v).byte a' = if a' = a then v else m.byte a' :=
  tabAt_tabPut _ _ _ _ _

/-- Bytes below or above those set stay. -/
theorem Mem.byte_setBytes_outside (l : List Byte) : ∀ (m : Mem) (a a' : Nat), a' < a ∨ a + l.length ≤ a' →
    (m.setBytes a l).byte a' = m.byte a' := by
  induction l with
  | nil => intro m a a' _; rfl
  | cons b l ih =>
    intro m a a' h
    have hl : (b :: l).length = l.length + 1 := rfl
    show ((m.setByte a b).setBytes (a + 1) l).byte a' = _
    rw [ih _ _ _ (by omega), Mem.byte_setByte, if_neg (by omega)]

/-- Bytes that were set. -/
theorem Mem.byte_setBytes_inside (l : List Byte) : ∀ (m : Mem) (a i : Nat) (h : i < l.length),
    (m.setBytes a l).byte (a + i) = l[i] := by
  induction l with
  | nil => intro m a i h; simp at h
  | cons b l ih =>
    intro m a i h
    show ((m.setByte a b).setBytes (a + 1) l).byte (a + i) = _
    cases i with
    | zero => rw [Mem.byte_setBytes_outside _ _ _ _ (by omega), Mem.byte_setByte]; simp
    | succ i =>
      have hi : i < l.length := by simpa using h
      rw [show a + (i + 1) = a + 1 + i by omega, ih _ _ i hi]; rfl

/-- The bytes of a codeword as a list. -/
theorem Mem.bytes_setBytes (l : List Byte) : ∀ (m : Mem) (a : Nat), (upFrom a l.length).map (m.setBytes a l).byte = l := by
  induction l with
  | nil => intro m a; rfl
  | cons b l ih =>
    intro m a
    show ((m.setByte a b).setBytes (a + 1) l).byte a :: (upFrom (a + 1) l.length).map ((m.setByte a b).setBytes (a + 1) l).byte = _
    rw [ih, Mem.byte_setBytes_outside _ _ _ _ (by omega), Mem.byte_setByte, if_pos rfl]

theorem mem_upFrom {n : Nat} : ∀ {lo a : Nat}, a ∈ upFrom lo n → lo ≤ a ∧ a < lo + n := by
  induction n with
  | zero => intro lo a h; simp [upFrom] at h
  | succ n ih =>
    intro lo a h
    simp [upFrom] at h
    rcases h with rfl | h
    · omega
    · have := ih h; omega

theorem Mem.byte_put_outside (m : Mem) (w : Nat) (c : Cw) {a : Nat} (h : a < w * 8 ∨ w * 8 + 8 ≤ a) : (m.put w c).byte a = m.byte a := by
  show (m.setBytes (w * 8) (leBytes 8 c.data.toNat)).byte a = _
  exact Mem.byte_setBytes_outside _ _ _ _ (by rw [leBytes_length]; exact h)

theorem Mem.word_put (m : Mem) (w w' : Nat) (c : Cw) : (m.put w c).word w' = if w' = w then c.data else m.word w' := by
  by_cases h : w' = w
  · subst h
    have hb := Mem.bytes_setBytes (leBytes 8 c.data.toNat) m (w' * 8)
    rw [leBytes_length] at hb
    have : (upFrom (w' * 8) 8).map (m.put w' c).byte = leBytes 8 c.data.toNat := hb
    rw [Mem.word, this, leNat_leBytes, if_pos rfl]
    apply BitVec.eq_of_toNat_eq
    have := c.data.isLt
    rw [BitVec.toNat_ofNat]; omega
  · rw [if_neg h, Mem.word, Mem.word]
    congr 2
    apply List.map_congr_left
    intro a ha
    have := mem_upFrom ha
    exact Mem.byte_put_outside m w c (by omega)

theorem Mem.stored_put (m : Mem) (w w' : Nat) (c : Cw) : (m.put w c).stored w' = if w' = w then c else m.stored w' := by
  have hp : (m.put w c).poison.contains w' = if w' = w then c.poison else m.poison.contains w' := by
    show (setTo (m.setBytes (w * 8) (leBytes 8 c.data.toNat)).poison w c.poison).contains w' = _
    have : ∀ (l : List Byte) (m : Mem) (a : Nat), (m.setBytes a l).poison = m.poison := by
      intro l
      induction l with
      | nil => intro m a; rfl
      | cons b l ih => intro m a; exact ih _ _
    rw [this, contains_setTo]
  rw [Mem.stored, Mem.word_put, hp]
  split <;> rfl

theorem Mem.flips_put (m : Mem) (w : Nat) (c : Cw) : (m.put w c).flips = tabDel m.flips w := by
  have : ∀ (l : List Byte) (m : Mem) (a : Nat), (m.setBytes a l).flips = m.flips := by
    intro l
    induction l with
    | nil => intro m a; rfl
    | cons b l ih => intro m a; exact ih _ _
  show tabDel (m.setBytes _ _).flips w = _
  rw [this]

/-- A codeword written is delivered clean; every other is delivered as before. -/
theorem Mem.decode_put (m : Mem) (w w' : Nat) (c : Cw) : (m.put w c).decode w' = if w' = w then (c, .clean) else m.decode w' := by
  by_cases h : w' = w
  · subst h
    simp only [Mem.decode, Mem.flips_put, tabAt_tabDel_same, Mem.stored_put, if_true]
  · simp only [Mem.decode, Mem.flips_put, tabAt_tabDel_ne _ _ h, Mem.stored_put, if_neg h]

/-! ### Reads of clean codewords -/

/-- A clean codeword is delivered and nothing changes. -/
theorem State.readCw_clean {s : State} {id : MemId} {w : Nat} {c : Cw} (port : Nat) (scrub : Bool)
    (h : (s.mem id).decode w = (c, .clean)) : s.readCw id w port scrub = (c, s) := by
  simp only [State.readCw, h]

/-- Clean codewords of the MRAM, read as bytes. -/
theorem State.mramGet_clean (s : State) (off n : Nat) (h : ∀ i < n / 8, (s.mram.decode (off / 8 + i)).2 = .clean) :
    s.mramGet off n = (((upFrom 0 (n / 8)).flatMap fun i => leBytes 8 (s.mram.decode (off / 8 + i)).1.data.toNat,
      (upFrom 0 (n / 8)).any fun i => (s.mram.decode (off / 8 + i)).1.poison), s) := by
  have key : ∀ (l : List Nat) (a : List Byte) (p : Bool), (∀ i ∈ l, (s.mram.decode (off / 8 + i)).2 = .clean) →
      l.foldl (fun (acc : (List Byte × Bool) × State) i =>
        let (c, s1) := acc.2.readCw .mram (off / 8 + i) 7
        ((acc.1.1 ++ leBytes 8 c.data.toNat, acc.1.2 || c.poison), s1)) ((a, p), s)
      = ((a ++ l.flatMap fun i => leBytes 8 (s.mram.decode (off / 8 + i)).1.data.toNat,
          p || l.any fun i => (s.mram.decode (off / 8 + i)).1.poison), s) := by
    intro l
    induction l with
    | nil => intro a p _; simp
    | cons i l ih =>
      intro a p hl
      have hi := hl i (by simp)
      have hr : s.readCw .mram (off / 8 + i) 7 = ((s.mram.decode (off / 8 + i)).1, s) :=
        State.readCw_clean 7 false (Prod.ext rfl hi)
      simp only [List.foldl_cons, hr, List.flatMap_cons, List.any_cons]
      rw [ih _ _ fun j hj => hl j (by simp [hj])]
      simp [List.append_assoc, Bool.or_assoc]
  have := key (upFrom 0 (n / 8)) [] false fun i hi => h i (by have := mem_upFrom hi; omega)
  rw [List.nil_append, Bool.false_or] at this
  exact this

/-- With no request waiting in the Landing an access has none of its own port to wait for. -/
theorem State.inOrder_idle {s : State} (h : s.lnd.waiting = []) (port off : Nat) : s.inOrder port off = s := by
  simp [State.inOrder, State.lndServe, h]

/-- Clean codewords of the Landing within it and outside retired pages. -/
theorem State.readSeq_clean (s : State) (hw : s.lnd.waiting = []) (port n : Nat) : ∀ off : Nat,
    (∀ i < n, off + 8 * i < lndSize ∧ s.retEntry (off + 8 * i) = none ∧ (s.landing.decode (s.lndCw (off + 8 * i))).2 = .clean) →
    State.readSeq port off n s = ((upFrom 0 n).map fun i => (s.landing.decode (s.lndCw (off + 8 * i))).1, s) := by
  have shift : ∀ (m k : Nat), (upFrom (k + 1) m) = (upFrom k m).map (· + 1) := by
    intro m
    induction m with
    | zero => intro k; rfl
    | succ m ih => intro k; simp only [upFrom, List.map_cons, ih]
  induction n with
  | zero => intro off _; rfl
  | succ n ih =>
    intro off h
    have h0 := h 0 (by omega)
    simp only [Nat.mul_zero, Nat.add_zero] at h0
    have hr : s.lndCwRead port off = ((s.landing.decode (s.lndCw off)).1, s) := by
      unfold State.lndCwRead
      rw [State.inOrder_idle hw]
      unfold State.cwReadNow
      rw [if_neg (Nat.not_le.mpr h0.1), h0.2.1, if_neg (by decide)]
      exact State.readCw_clean port false (Prod.ext rfl h0.2.2)
    have hn := ih (off + 8) fun i hi => by
      have := h (i + 1) (by omega)
      rw [show off + 8 * (i + 1) = off + 8 + 8 * i by omega] at this
      exact this
    unfold State.readSeq
    rw [hr]
    dsimp only
    rw [hn]
    dsimp only
    have e : (upFrom 0 n).map ((fun i => (s.landing.decode (s.lndCw (off + 8 * i))).1) ∘ fun x => x + 1)
        = (upFrom 0 n).map fun i => (s.landing.decode (s.lndCw (off + 8 + 8 * i))).1 := by
      apply List.map_congr_left
      intro i _
      show (s.landing.decode (s.lndCw (off + 8 * (i + 1)))).1 = _
      rw [show off + 8 * (i + 1) = off + 8 + 8 * i by omega]
    rw [upFrom, shift n 0, List.map_cons, List.map_map, e]
    simp only [Nat.mul_zero, Nat.add_zero]

/-- With no retired page a clean stretch of the Landing reads as its bytes, and nothing changes. -/
theorem State.lndBytes_clean (s : State) (hw : s.lnd.waiting = []) (port off n : Nat) (hr : s.retValid = [])
    (h : ∀ i < (off % 8 + n + 7) / 8, off / 8 * 8 + 8 * i < lndSize ∧ (s.landing.decode (s.lndCw (off / 8 * 8 + 8 * i))).2 = .clean) :
    let l := (upFrom 0 ((off % 8 + n + 7) / 8)).map fun i => (s.landing.decode (s.lndCw (off / 8 * 8 + 8 * i))).1
    s.lndBytes port off n = ((((cwBytes l).drop (off % 8)).take n, anyPoison l), s) := by
  have hn : ∀ len, s.noteRetired port off len = s := by
    intro len; simp [State.noteRetired, State.retTouched, hr]
  have hs := State.readSeq_clean s hw port ((off % 8 + n + 7) / 8) (off / 8 * 8) fun i hi =>
    ⟨(h i hi).1, by simp [State.retEntry, hr], (h i hi).2⟩
  simp only [State.lndBytes, hn, hs]

end Sys2Proof.Machine
end

