-- ==== Sys2Proof/Laws/Regs.lean ====
section
/-! SUPPORT. Register fields: what a write leaves in each field. -/
namespace Sys2Proof.Machine

/-- A field after a write to it: the value cut to the field's width. -/
theorem rd_wr_same (s : State) (f : Field) (v i j : Nat) (hw : f.w ≤ 32 := by decide) : (s.wr f v i j).rd f i j = v % 2 ^ f.w := by
  have h : v % 2 ^ f.w < 2 ^ 32 :=
    Nat.lt_of_lt_of_le (Nat.mod_lt _ (Nat.two_pow_pos _)) (Nat.pow_le_pow_right (by decide) hw)
  unfold State.rd State.wr
  rw [tabAt_tabPut_same, BitVec.toNat_ofNat, Nat.mod_eq_of_lt h]

/-- A field after a write to another. -/
theorem rd_wr_ne (s : State) (f g : Field) (v i j i' j' : Nat) (h : g.key i' j' ≠ f.key i j) :
    (s.wr f v i j).rd g i' j' = s.rd g i' j' := by
  unfold State.rd State.wr
  rw [tabAt_tabPut_ne _ _ _ _ h]

/-! ### Every field lies within its register -/

theorem blockFields_fit : ∀ b < 16, ∀ f ∈ Reg.blockFields b, f.lo + f.bs * (f.c2 - 1) < 32 := by decide +kernel

theorem mem_upFrom_lt {n : Nat} : ∀ {lo a : Nat}, a ∈ upFrom lo n → lo ≤ a ∧ a < lo + n := by
  induction n with
  | zero => intro lo a h; simp [upFrom] at h
  | succ n ih =>
    intro lo a h
    simp [upFrom] at h
    rcases h with rfl | h
    · omega
    · have := ih h; omega

/-- A field found at an offset has its bits under that offset. -/
theorem fieldsAt_key {o : Nat} {x : Field × Nat × Nat} (hx : x ∈ fieldsAt o) : x.1.key x.2.1 x.2.2 / 32 = o := by
  unfold fieldsAt at hx
  obtain ⟨f, hf, hx⟩ := List.mem_flatMap.mp hx
  obtain ⟨⟨i, j⟩, hij, rfl⟩ := List.mem_map.mp hx
  unfold Field.indicesAt at hij
  obtain ⟨j', hj', hij⟩ := List.mem_filterMap.mp hij
  have hj := (mem_upFrom_lt hj').2
  have hb : o / 0x10000 < 16 := by
    refine Nat.lt_of_not_le fun hn => ?_
    have : Reg.blockFields (o / 0x10000) = [] := by
      unfold Reg.blockFields
      split <;> first | rfl | omega
    rw [this] at hf; simp at hf
  have hfit := blockFields_fit _ hb f hf
  dsimp only at hij
  split at hij
  · simp at hij
  · generalize (if f.s1 = 0 then 0 else (o - (f.base + f.s2 * j')) / f.s1) = k at hij
    split at hij
    · rename_i heq
      simp only [Option.some.injEq, Prod.mk.injEq] at hij
      obtain ⟨rfl, rfl⟩ := hij
      simp only [Bool.and_eq_true, beq_iff_eq] at heq
      have hbs : f.bs * j' ≤ f.bs * (f.c2 - 1) := Nat.mul_le_mul_left _ (by omega)
      have h2 := heq.2
      show ((f.base + f.s1 * k + f.s2 * j') * 32 + f.lo + f.bs * j') / 32 = o
      omega
    · simp at hij

/-- A register other than the one a field lies in keeps its value. -/
theorem regWord_wr_ne (s : State) (f : Field) (v i j : Nat) {o : Nat} (h : f.key i j / 32 ≠ o) : (s.wr f v i j).regWord o = s.regWord o := by
  have key : ∀ (l : List (Field × Nat × Nat)) (a : Word), (∀ x ∈ l, x.1.key x.2.1 x.2.2 / 32 = o) →
      l.foldl (fun a fij => a ||| BitVec.ofNat 32 ((s.wr f v i j).rd fij.1 fij.2.1 fij.2.2 * 2 ^ (fij.1.lo + fij.1.bs * fij.2.2))) a =
      l.foldl (fun a fij => a ||| BitVec.ofNat 32 (s.rd fij.1 fij.2.1 fij.2.2 * 2 ^ (fij.1.lo + fij.1.bs * fij.2.2))) a := by
    intro l
    induction l with
    | nil => intro a _; rfl
    | cons x l ih =>
      intro a hl
      have hx := hl x (by simp)
      rw [List.foldl_cons, List.foldl_cons, rd_wr_ne s f x.1 v i j x.2.1 x.2.2 (fun e => h (by rw [← e, hx])), ih _ fun y hy => hl y (by simp [hy])]
  exact key _ _ fun x hx => fieldsAt_key hx

end Sys2Proof.Machine
end

