-- ==== Sys2Proof/Laws/State.lean ====
section
/-! SUPPORT. What each named update of the state leaves unchanged, field by field. -/
namespace Sys2Proof.Machine

variable (s : State)

/-! ### `wr` -/
@[simp] theorem State.wr_pending (f : Field) (v i j : Nat) : (s.wr f v i j).pending = s.pending := rfl
@[simp] theorem State.wr_time (f : Field) (v i j : Nat) : (s.wr f v i j).time = s.time := rfl
@[simp] theorem State.wr_rings (f : Field) (v i j : Nat) : (s.wr f v i j).rings = s.rings := rfl
@[simp] theorem State.wr_lists (f : Field) (v i j : Nat) : (s.wr f v i j).lists = s.lists := rfl
@[simp] theorem State.wr_landing (f : Field) (v i j : Nat) : (s.wr f v i j).landing = s.landing := rfl
@[simp] theorem State.wr_mram (f : Field) (v i j : Nat) : (s.wr f v i j).mram = s.mram := rfl
@[simp] theorem State.wr_keep (f : Field) (v i j : Nat) : (s.wr f v i j).keep = s.keep := rfl
@[simp] theorem State.wr_code (f : Field) (v i j : Nat) : (s.wr f v i j).code = s.code := rfl
@[simp] theorem State.wr_dmem (f : Field) (v i j : Nat) : (s.wr f v i j).dmem = s.dmem := rfl
@[simp] theorem State.wr_cleMem (f : Field) (v i j : Nat) : (s.wr f v i j).cleMem = s.cleMem := rfl
@[simp] theorem State.wr_axsMem (f : Field) (v i j : Nat) : (s.wr f v i j).axsMem = s.axsMem := rfl
@[simp] theorem State.wr_lnd (f : Field) (v i j : Nat) : (s.wr f v i j).lnd = s.lnd := rfl
@[simp] theorem State.wr_tly (f : Field) (v i j : Nat) : (s.wr f v i j).tly = s.tly := rfl
@[simp] theorem State.wr_pwr (f : Field) (v i j : Nat) : (s.wr f v i j).pwr = s.pwr := rfl
@[simp] theorem State.wr_fresh (f : Field) (v i j : Nat) : (s.wr f v i j).fresh = s.fresh := rfl
@[simp] theorem State.wr_hif (f : Field) (v i j : Nat) : (s.wr f v i j).hif = s.hif := rfl
@[simp] theorem State.wr_tex (f : Field) (v i j : Nat) : (s.wr f v i j).tex = s.tex := rfl
@[simp] theorem State.wr_trh (f : Field) (v i j : Nat) : (s.wr f v i j).trh = s.trh := rfl
@[simp] theorem State.wr_cle (f : Field) (v i j : Nat) : (s.wr f v i j).cle = s.cle := rfl
@[simp] theorem State.wr_axs (f : Field) (v i j : Nat) : (s.wr f v i j).axs = s.axs := rfl
@[simp] theorem State.wr_fbk (f : Field) (v i j : Nat) : (s.wr f v i j).fbk = s.fbk := rfl
@[simp] theorem State.wr_trhOut (f : Field) (v i j : Nat) : (s.wr f v i j).trhOut = s.trhOut := rfl
@[simp] theorem State.wr_cnv (f : Field) (v i j : Nat) : (s.wr f v i j).cnv = s.cnv := rfl
@[simp] theorem State.wr_dio (f : Field) (v i j : Nat) : (s.wr f v i j).dio = s.dio := rfl
@[simp] theorem State.wr_net (f : Field) (v i j : Nat) : (s.wr f v i j).net = s.net := rfl
@[simp] theorem State.wr_netOut (f : Field) (v i j : Nat) : (s.wr f v i j).netOut = s.netOut := rfl
@[simp] theorem State.wr_can (f : Field) (v i j : Nat) : (s.wr f v i j).can = s.can := rfl
@[simp] theorem State.wr_canOut (f : Field) (v i j : Nat) : (s.wr f v i j).canOut = s.canOut := rfl
@[simp] theorem State.wr_saf (f : Field) (v i j : Nat) : (s.wr f v i j).saf = s.saf := rfl
@[simp] theorem State.wr_hostOut (f : Field) (v i j : Nat) : (s.wr f v i j).hostOut = s.hostOut := rfl

/-! ### `wrB` -/
@[simp] theorem State.wrB_pending (f : Field) (b : Bool) (i j : Nat) : (s.wrB f b i j).pending = s.pending := rfl
@[simp] theorem State.wrB_time (f : Field) (b : Bool) (i j : Nat) : (s.wrB f b i j).time = s.time := rfl
@[simp] theorem State.wrB_rings (f : Field) (b : Bool) (i j : Nat) : (s.wrB f b i j).rings = s.rings := rfl
@[simp] theorem State.wrB_lists (f : Field) (b : Bool) (i j : Nat) : (s.wrB f b i j).lists = s.lists := rfl
@[simp] theorem State.wrB_landing (f : Field) (b : Bool) (i j : Nat) : (s.wrB f b i j).landing = s.landing := rfl
@[simp] theorem State.wrB_mram (f : Field) (b : Bool) (i j : Nat) : (s.wrB f b i j).mram = s.mram := rfl
@[simp] theorem State.wrB_keep (f : Field) (b : Bool) (i j : Nat) : (s.wrB f b i j).keep = s.keep := rfl
@[simp] theorem State.wrB_code (f : Field) (b : Bool) (i j : Nat) : (s.wrB f b i j).code = s.code := rfl
@[simp] theorem State.wrB_dmem (f : Field) (b : Bool) (i j : Nat) : (s.wrB f b i j).dmem = s.dmem := rfl
@[simp] theorem State.wrB_cleMem (f : Field) (b : Bool) (i j : Nat) : (s.wrB f b i j).cleMem = s.cleMem := rfl
@[simp] theorem State.wrB_axsMem (f : Field) (b : Bool) (i j : Nat) : (s.wrB f b i j).axsMem = s.axsMem := rfl
@[simp] theorem State.wrB_lnd (f : Field) (b : Bool) (i j : Nat) : (s.wrB f b i j).lnd = s.lnd := rfl
@[simp] theorem State.wrB_tly (f : Field) (b : Bool) (i j : Nat) : (s.wrB f b i j).tly = s.tly := rfl
@[simp] theorem State.wrB_pwr (f : Field) (b : Bool) (i j : Nat) : (s.wrB f b i j).pwr = s.pwr := rfl
@[simp] theorem State.wrB_fresh (f : Field) (b : Bool) (i j : Nat) : (s.wrB f b i j).fresh = s.fresh := rfl
@[simp] theorem State.wrB_hif (f : Field) (b : Bool) (i j : Nat) : (s.wrB f b i j).hif = s.hif := rfl
@[simp] theorem State.wrB_tex (f : Field) (b : Bool) (i j : Nat) : (s.wrB f b i j).tex = s.tex := rfl
@[simp] theorem State.wrB_trh (f : Field) (b : Bool) (i j : Nat) : (s.wrB f b i j).trh = s.trh := rfl
@[simp] theorem State.wrB_cle (f : Field) (b : Bool) (i j : Nat) : (s.wrB f b i j).cle = s.cle := rfl
@[simp] theorem State.wrB_axs (f : Field) (b : Bool) (i j : Nat) : (s.wrB f b i j).axs = s.axs := rfl
@[simp] theorem State.wrB_fbk (f : Field) (b : Bool) (i j : Nat) : (s.wrB f b i j).fbk = s.fbk := rfl
@[simp] theorem State.wrB_trhOut (f : Field) (b : Bool) (i j : Nat) : (s.wrB f b i j).trhOut = s.trhOut := rfl
@[simp] theorem State.wrB_cnv (f : Field) (b : Bool) (i j : Nat) : (s.wrB f b i j).cnv = s.cnv := rfl
@[simp] theorem State.wrB_dio (f : Field) (b : Bool) (i j : Nat) : (s.wrB f b i j).dio = s.dio := rfl
@[simp] theorem State.wrB_net (f : Field) (b : Bool) (i j : Nat) : (s.wrB f b i j).net = s.net := rfl
@[simp] theorem State.wrB_netOut (f : Field) (b : Bool) (i j : Nat) : (s.wrB f b i j).netOut = s.netOut := rfl
@[simp] theorem State.wrB_can (f : Field) (b : Bool) (i j : Nat) : (s.wrB f b i j).can = s.can := rfl
@[simp] theorem State.wrB_canOut (f : Field) (b : Bool) (i j : Nat) : (s.wrB f b i j).canOut = s.canOut := rfl
@[simp] theorem State.wrB_saf (f : Field) (b : Bool) (i j : Nat) : (s.wrB f b i j).saf = s.saf := rfl
@[simp] theorem State.wrB_hostOut (f : Field) (b : Bool) (i j : Nat) : (s.wrB f b i j).hostOut = s.hostOut := rfl

/-! ### `wrS` -/
@[simp] theorem State.wrS_pending (f : Field) (v : Int) (i j : Nat) : (s.wrS f v i j).pending = s.pending := rfl
@[simp] theorem State.wrS_time (f : Field) (v : Int) (i j : Nat) : (s.wrS f v i j).time = s.time := rfl
@[simp] theorem State.wrS_rings (f : Field) (v : Int) (i j : Nat) : (s.wrS f v i j).rings = s.rings := rfl
@[simp] theorem State.wrS_lists (f : Field) (v : Int) (i j : Nat) : (s.wrS f v i j).lists = s.lists := rfl
@[simp] theorem State.wrS_landing (f : Field) (v : Int) (i j : Nat) : (s.wrS f v i j).landing = s.landing := rfl
@[simp] theorem State.wrS_mram (f : Field) (v : Int) (i j : Nat) : (s.wrS f v i j).mram = s.mram := rfl
@[simp] theorem State.wrS_keep (f : Field) (v : Int) (i j : Nat) : (s.wrS f v i j).keep = s.keep := rfl
@[simp] theorem State.wrS_code (f : Field) (v : Int) (i j : Nat) : (s.wrS f v i j).code = s.code := rfl
@[simp] theorem State.wrS_dmem (f : Field) (v : Int) (i j : Nat) : (s.wrS f v i j).dmem = s.dmem := rfl
@[simp] theorem State.wrS_cleMem (f : Field) (v : Int) (i j : Nat) : (s.wrS f v i j).cleMem = s.cleMem := rfl
@[simp] theorem State.wrS_axsMem (f : Field) (v : Int) (i j : Nat) : (s.wrS f v i j).axsMem = s.axsMem := rfl
@[simp] theorem State.wrS_lnd (f : Field) (v : Int) (i j : Nat) : (s.wrS f v i j).lnd = s.lnd := rfl
@[simp] theorem State.wrS_tly (f : Field) (v : Int) (i j : Nat) : (s.wrS f v i j).tly = s.tly := rfl
@[simp] theorem State.wrS_pwr (f : Field) (v : Int) (i j : Nat) : (s.wrS f v i j).pwr = s.pwr := rfl
@[simp] theorem State.wrS_fresh (f : Field) (v : Int) (i j : Nat) : (s.wrS f v i j).fresh = s.fresh := rfl
@[simp] theorem State.wrS_hif (f : Field) (v : Int) (i j : Nat) : (s.wrS f v i j).hif = s.hif := rfl
@[simp] theorem State.wrS_tex (f : Field) (v : Int) (i j : Nat) : (s.wrS f v i j).tex = s.tex := rfl
@[simp] theorem State.wrS_trh (f : Field) (v : Int) (i j : Nat) : (s.wrS f v i j).trh = s.trh := rfl
@[simp] theorem State.wrS_cle (f : Field) (v : Int) (i j : Nat) : (s.wrS f v i j).cle = s.cle := rfl
@[simp] theorem State.wrS_axs (f : Field) (v : Int) (i j : Nat) : (s.wrS f v i j).axs = s.axs := rfl
@[simp] theorem State.wrS_fbk (f : Field) (v : Int) (i j : Nat) : (s.wrS f v i j).fbk = s.fbk := rfl
@[simp] theorem State.wrS_trhOut (f : Field) (v : Int) (i j : Nat) : (s.wrS f v i j).trhOut = s.trhOut := rfl
@[simp] theorem State.wrS_cnv (f : Field) (v : Int) (i j : Nat) : (s.wrS f v i j).cnv = s.cnv := rfl
@[simp] theorem State.wrS_dio (f : Field) (v : Int) (i j : Nat) : (s.wrS f v i j).dio = s.dio := rfl
@[simp] theorem State.wrS_net (f : Field) (v : Int) (i j : Nat) : (s.wrS f v i j).net = s.net := rfl
@[simp] theorem State.wrS_netOut (f : Field) (v : Int) (i j : Nat) : (s.wrS f v i j).netOut = s.netOut := rfl
@[simp] theorem State.wrS_can (f : Field) (v : Int) (i j : Nat) : (s.wrS f v i j).can = s.can := rfl
@[simp] theorem State.wrS_canOut (f : Field) (v : Int) (i j : Nat) : (s.wrS f v i j).canOut = s.canOut := rfl
@[simp] theorem State.wrS_saf (f : Field) (v : Int) (i j : Nat) : (s.wrS f v i j).saf = s.saf := rfl
@[simp] theorem State.wrS_hostOut (f : Field) (v : Int) (i j : Nat) : (s.wrS f v i j).hostOut = s.hostOut := rfl

/-! ### `inc` -/
@[simp] theorem State.inc_pending (f : Field) (i j n : Nat) : (s.inc f i j n).pending = s.pending := rfl
@[simp] theorem State.inc_time (f : Field) (i j n : Nat) : (s.inc f i j n).time = s.time := rfl
@[simp] theorem State.inc_rings (f : Field) (i j n : Nat) : (s.inc f i j n).rings = s.rings := rfl
@[simp] theorem State.inc_lists (f : Field) (i j n : Nat) : (s.inc f i j n).lists = s.lists := rfl
@[simp] theorem State.inc_landing (f : Field) (i j n : Nat) : (s.inc f i j n).landing = s.landing := rfl
@[simp] theorem State.inc_mram (f : Field) (i j n : Nat) : (s.inc f i j n).mram = s.mram := rfl
@[simp] theorem State.inc_keep (f : Field) (i j n : Nat) : (s.inc f i j n).keep = s.keep := rfl
@[simp] theorem State.inc_code (f : Field) (i j n : Nat) : (s.inc f i j n).code = s.code := rfl
@[simp] theorem State.inc_dmem (f : Field) (i j n : Nat) : (s.inc f i j n).dmem = s.dmem := rfl
@[simp] theorem State.inc_cleMem (f : Field) (i j n : Nat) : (s.inc f i j n).cleMem = s.cleMem := rfl
@[simp] theorem State.inc_axsMem (f : Field) (i j n : Nat) : (s.inc f i j n).axsMem = s.axsMem := rfl
@[simp] theorem State.inc_lnd (f : Field) (i j n : Nat) : (s.inc f i j n).lnd = s.lnd := rfl
@[simp] theorem State.inc_tly (f : Field) (i j n : Nat) : (s.inc f i j n).tly = s.tly := rfl
@[simp] theorem State.inc_pwr (f : Field) (i j n : Nat) : (s.inc f i j n).pwr = s.pwr := rfl
@[simp] theorem State.inc_fresh (f : Field) (i j n : Nat) : (s.inc f i j n).fresh = s.fresh := rfl
@[simp] theorem State.inc_hif (f : Field) (i j n : Nat) : (s.inc f i j n).hif = s.hif := rfl
@[simp] theorem State.inc_tex (f : Field) (i j n : Nat) : (s.inc f i j n).tex = s.tex := rfl
@[simp] theorem State.inc_trh (f : Field) (i j n : Nat) : (s.inc f i j n).trh = s.trh := rfl
@[simp] theorem State.inc_cle (f : Field) (i j n : Nat) : (s.inc f i j n).cle = s.cle := rfl
@[simp] theorem State.inc_axs (f : Field) (i j n : Nat) : (s.inc f i j n).axs = s.axs := rfl
@[simp] theorem State.inc_fbk (f : Field) (i j n : Nat) : (s.inc f i j n).fbk = s.fbk := rfl
@[simp] theorem State.inc_trhOut (f : Field) (i j n : Nat) : (s.inc f i j n).trhOut = s.trhOut := rfl
@[simp] theorem State.inc_cnv (f : Field) (i j n : Nat) : (s.inc f i j n).cnv = s.cnv := rfl
@[simp] theorem State.inc_dio (f : Field) (i j n : Nat) : (s.inc f i j n).dio = s.dio := rfl
@[simp] theorem State.inc_net (f : Field) (i j n : Nat) : (s.inc f i j n).net = s.net := rfl
@[simp] theorem State.inc_netOut (f : Field) (i j n : Nat) : (s.inc f i j n).netOut = s.netOut := rfl
@[simp] theorem State.inc_can (f : Field) (i j n : Nat) : (s.inc f i j n).can = s.can := rfl
@[simp] theorem State.inc_canOut (f : Field) (i j n : Nat) : (s.inc f i j n).canOut = s.canOut := rfl
@[simp] theorem State.inc_saf (f : Field) (i j n : Nat) : (s.inc f i j n).saf = s.saf := rfl
@[simp] theorem State.inc_hostOut (f : Field) (i j n : Nat) : (s.inc f i j n).hostOut = s.hostOut := rfl

/-! ### `setBitOf` -/
@[simp] theorem State.setBitOf_pending (f : Field) (b i : Nat) : (s.setBitOf f b i).pending = s.pending := rfl
@[simp] theorem State.setBitOf_time (f : Field) (b i : Nat) : (s.setBitOf f b i).time = s.time := rfl
@[simp] theorem State.setBitOf_rings (f : Field) (b i : Nat) : (s.setBitOf f b i).rings = s.rings := rfl
@[simp] theorem State.setBitOf_lists (f : Field) (b i : Nat) : (s.setBitOf f b i).lists = s.lists := rfl
@[simp] theorem State.setBitOf_landing (f : Field) (b i : Nat) : (s.setBitOf f b i).landing = s.landing := rfl
@[simp] theorem State.setBitOf_mram (f : Field) (b i : Nat) : (s.setBitOf f b i).mram = s.mram := rfl
@[simp] theorem State.setBitOf_keep (f : Field) (b i : Nat) : (s.setBitOf f b i).keep = s.keep := rfl
@[simp] theorem State.setBitOf_code (f : Field) (b i : Nat) : (s.setBitOf f b i).code = s.code := rfl
@[simp] theorem State.setBitOf_dmem (f : Field) (b i : Nat) : (s.setBitOf f b i).dmem = s.dmem := rfl
@[simp] theorem State.setBitOf_cleMem (f : Field) (b i : Nat) : (s.setBitOf f b i).cleMem = s.cleMem := rfl
@[simp] theorem State.setBitOf_axsMem (f : Field) (b i : Nat) : (s.setBitOf f b i).axsMem = s.axsMem := rfl
@[simp] theorem State.setBitOf_lnd (f : Field) (b i : Nat) : (s.setBitOf f b i).lnd = s.lnd := rfl
@[simp] theorem State.setBitOf_tly (f : Field) (b i : Nat) : (s.setBitOf f b i).tly = s.tly := rfl
@[simp] theorem State.setBitOf_pwr (f : Field) (b i : Nat) : (s.setBitOf f b i).pwr = s.pwr := rfl
@[simp] theorem State.setBitOf_fresh (f : Field) (b i : Nat) : (s.setBitOf f b i).fresh = s.fresh := rfl
@[simp] theorem State.setBitOf_hif (f : Field) (b i : Nat) : (s.setBitOf f b i).hif = s.hif := rfl
@[simp] theorem State.setBitOf_tex (f : Field) (b i : Nat) : (s.setBitOf f b i).tex = s.tex := rfl
@[simp] theorem State.setBitOf_trh (f : Field) (b i : Nat) : (s.setBitOf f b i).trh = s.trh := rfl
@[simp] theorem State.setBitOf_cle (f : Field) (b i : Nat) : (s.setBitOf f b i).cle = s.cle := rfl
@[simp] theorem State.setBitOf_axs (f : Field) (b i : Nat) : (s.setBitOf f b i).axs = s.axs := rfl
@[simp] theorem State.setBitOf_fbk (f : Field) (b i : Nat) : (s.setBitOf f b i).fbk = s.fbk := rfl
@[simp] theorem State.setBitOf_trhOut (f : Field) (b i : Nat) : (s.setBitOf f b i).trhOut = s.trhOut := rfl
@[simp] theorem State.setBitOf_cnv (f : Field) (b i : Nat) : (s.setBitOf f b i).cnv = s.cnv := rfl
@[simp] theorem State.setBitOf_dio (f : Field) (b i : Nat) : (s.setBitOf f b i).dio = s.dio := rfl
@[simp] theorem State.setBitOf_net (f : Field) (b i : Nat) : (s.setBitOf f b i).net = s.net := rfl
@[simp] theorem State.setBitOf_netOut (f : Field) (b i : Nat) : (s.setBitOf f b i).netOut = s.netOut := rfl
@[simp] theorem State.setBitOf_can (f : Field) (b i : Nat) : (s.setBitOf f b i).can = s.can := rfl
@[simp] theorem State.setBitOf_canOut (f : Field) (b i : Nat) : (s.setBitOf f b i).canOut = s.canOut := rfl
@[simp] theorem State.setBitOf_saf (f : Field) (b i : Nat) : (s.setBitOf f b i).saf = s.saf := rfl
@[simp] theorem State.setBitOf_hostOut (f : Field) (b i : Nat) : (s.setBitOf f b i).hostOut = s.hostOut := rfl

/-! ### `clrBitOf` -/
@[simp] theorem State.clrBitOf_pending (f : Field) (b i : Nat) : (s.clrBitOf f b i).pending = s.pending := rfl
@[simp] theorem State.clrBitOf_time (f : Field) (b i : Nat) : (s.clrBitOf f b i).time = s.time := rfl
@[simp] theorem State.clrBitOf_rings (f : Field) (b i : Nat) : (s.clrBitOf f b i).rings = s.rings := rfl
@[simp] theorem State.clrBitOf_lists (f : Field) (b i : Nat) : (s.clrBitOf f b i).lists = s.lists := rfl
@[simp] theorem State.clrBitOf_landing (f : Field) (b i : Nat) : (s.clrBitOf f b i).landing = s.landing := rfl
@[simp] theorem State.clrBitOf_mram (f : Field) (b i : Nat) : (s.clrBitOf f b i).mram = s.mram := rfl
@[simp] theorem State.clrBitOf_keep (f : Field) (b i : Nat) : (s.clrBitOf f b i).keep = s.keep := rfl
@[simp] theorem State.clrBitOf_code (f : Field) (b i : Nat) : (s.clrBitOf f b i).code = s.code := rfl
@[simp] theorem State.clrBitOf_dmem (f : Field) (b i : Nat) : (s.clrBitOf f b i).dmem = s.dmem := rfl
@[simp] theorem State.clrBitOf_cleMem (f : Field) (b i : Nat) : (s.clrBitOf f b i).cleMem = s.cleMem := rfl
@[simp] theorem State.clrBitOf_axsMem (f : Field) (b i : Nat) : (s.clrBitOf f b i).axsMem = s.axsMem := rfl
@[simp] theorem State.clrBitOf_lnd (f : Field) (b i : Nat) : (s.clrBitOf f b i).lnd = s.lnd := rfl
@[simp] theorem State.clrBitOf_tly (f : Field) (b i : Nat) : (s.clrBitOf f b i).tly = s.tly := rfl
@[simp] theorem State.clrBitOf_pwr (f : Field) (b i : Nat) : (s.clrBitOf f b i).pwr = s.pwr := rfl
@[simp] theorem State.clrBitOf_fresh (f : Field) (b i : Nat) : (s.clrBitOf f b i).fresh = s.fresh := rfl
@[simp] theorem State.clrBitOf_hif (f : Field) (b i : Nat) : (s.clrBitOf f b i).hif = s.hif := rfl
@[simp] theorem State.clrBitOf_tex (f : Field) (b i : Nat) : (s.clrBitOf f b i).tex = s.tex := rfl
@[simp] theorem State.clrBitOf_trh (f : Field) (b i : Nat) : (s.clrBitOf f b i).trh = s.trh := rfl
@[simp] theorem State.clrBitOf_cle (f : Field) (b i : Nat) : (s.clrBitOf f b i).cle = s.cle := rfl
@[simp] theorem State.clrBitOf_axs (f : Field) (b i : Nat) : (s.clrBitOf f b i).axs = s.axs := rfl
@[simp] theorem State.clrBitOf_fbk (f : Field) (b i : Nat) : (s.clrBitOf f b i).fbk = s.fbk := rfl
@[simp] theorem State.clrBitOf_trhOut (f : Field) (b i : Nat) : (s.clrBitOf f b i).trhOut = s.trhOut := rfl
@[simp] theorem State.clrBitOf_cnv (f : Field) (b i : Nat) : (s.clrBitOf f b i).cnv = s.cnv := rfl
@[simp] theorem State.clrBitOf_dio (f : Field) (b i : Nat) : (s.clrBitOf f b i).dio = s.dio := rfl
@[simp] theorem State.clrBitOf_net (f : Field) (b i : Nat) : (s.clrBitOf f b i).net = s.net := rfl
@[simp] theorem State.clrBitOf_netOut (f : Field) (b i : Nat) : (s.clrBitOf f b i).netOut = s.netOut := rfl
@[simp] theorem State.clrBitOf_can (f : Field) (b i : Nat) : (s.clrBitOf f b i).can = s.can := rfl
@[simp] theorem State.clrBitOf_canOut (f : Field) (b i : Nat) : (s.clrBitOf f b i).canOut = s.canOut := rfl
@[simp] theorem State.clrBitOf_saf (f : Field) (b i : Nat) : (s.clrBitOf f b i).saf = s.saf := rfl
@[simp] theorem State.clrBitOf_hostOut (f : Field) (b i : Nat) : (s.clrBitOf f b i).hostOut = s.hostOut := rfl

/-! ### `setTask` -/
@[simp] theorem State.setTask_pending (t : Nat) (x : TaskSt) : (s.setTask t x).pending = s.pending := rfl
@[simp] theorem State.setTask_regs (t : Nat) (x : TaskSt) : (s.setTask t x).regs = s.regs := rfl
@[simp] theorem State.setTask_time (t : Nat) (x : TaskSt) : (s.setTask t x).time = s.time := rfl
@[simp] theorem State.setTask_rings (t : Nat) (x : TaskSt) : (s.setTask t x).rings = s.rings := rfl
@[simp] theorem State.setTask_lists (t : Nat) (x : TaskSt) : (s.setTask t x).lists = s.lists := rfl
@[simp] theorem State.setTask_landing (t : Nat) (x : TaskSt) : (s.setTask t x).landing = s.landing := rfl
@[simp] theorem State.setTask_mram (t : Nat) (x : TaskSt) : (s.setTask t x).mram = s.mram := rfl
@[simp] theorem State.setTask_keep (t : Nat) (x : TaskSt) : (s.setTask t x).keep = s.keep := rfl
@[simp] theorem State.setTask_code (t : Nat) (x : TaskSt) : (s.setTask t x).code = s.code := rfl
@[simp] theorem State.setTask_dmem (t : Nat) (x : TaskSt) : (s.setTask t x).dmem = s.dmem := rfl
@[simp] theorem State.setTask_cleMem (t : Nat) (x : TaskSt) : (s.setTask t x).cleMem = s.cleMem := rfl
@[simp] theorem State.setTask_axsMem (t : Nat) (x : TaskSt) : (s.setTask t x).axsMem = s.axsMem := rfl
@[simp] theorem State.setTask_lnd (t : Nat) (x : TaskSt) : (s.setTask t x).lnd = s.lnd := rfl
@[simp] theorem State.setTask_tly (t : Nat) (x : TaskSt) : (s.setTask t x).tly = s.tly := rfl
@[simp] theorem State.setTask_pwr (t : Nat) (x : TaskSt) : (s.setTask t x).pwr = s.pwr := rfl
@[simp] theorem State.setTask_fresh (t : Nat) (x : TaskSt) : (s.setTask t x).fresh = s.fresh := rfl
@[simp] theorem State.setTask_hif (t : Nat) (x : TaskSt) : (s.setTask t x).hif = s.hif := rfl
@[simp] theorem State.setTask_trh (t : Nat) (x : TaskSt) : (s.setTask t x).trh = s.trh := rfl
@[simp] theorem State.setTask_cle (t : Nat) (x : TaskSt) : (s.setTask t x).cle = s.cle := rfl
@[simp] theorem State.setTask_axs (t : Nat) (x : TaskSt) : (s.setTask t x).axs = s.axs := rfl
@[simp] theorem State.setTask_fbk (t : Nat) (x : TaskSt) : (s.setTask t x).fbk = s.fbk := rfl
@[simp] theorem State.setTask_trhOut (t : Nat) (x : TaskSt) : (s.setTask t x).trhOut = s.trhOut := rfl
@[simp] theorem State.setTask_cnv (t : Nat) (x : TaskSt) : (s.setTask t x).cnv = s.cnv := rfl
@[simp] theorem State.setTask_dio (t : Nat) (x : TaskSt) : (s.setTask t x).dio = s.dio := rfl
@[simp] theorem State.setTask_net (t : Nat) (x : TaskSt) : (s.setTask t x).net = s.net := rfl
@[simp] theorem State.setTask_netOut (t : Nat) (x : TaskSt) : (s.setTask t x).netOut = s.netOut := rfl
@[simp] theorem State.setTask_can (t : Nat) (x : TaskSt) : (s.setTask t x).can = s.can := rfl
@[simp] theorem State.setTask_canOut (t : Nat) (x : TaskSt) : (s.setTask t x).canOut = s.canOut := rfl
@[simp] theorem State.setTask_saf (t : Nat) (x : TaskSt) : (s.setTask t x).saf = s.saf := rfl
@[simp] theorem State.setTask_hostOut (t : Nat) (x : TaskSt) : (s.setTask t x).hostOut = s.hostOut := rfl

/-! ### `setEng` -/
@[simp] theorem State.setEng_pending (e : Nat) (x : EngSt) : (s.setEng e x).pending = s.pending := rfl
@[simp] theorem State.setEng_regs (e : Nat) (x : EngSt) : (s.setEng e x).regs = s.regs := rfl
@[simp] theorem State.setEng_time (e : Nat) (x : EngSt) : (s.setEng e x).time = s.time := rfl
@[simp] theorem State.setEng_rings (e : Nat) (x : EngSt) : (s.setEng e x).rings = s.rings := rfl
@[simp] theorem State.setEng_lists (e : Nat) (x : EngSt) : (s.setEng e x).lists = s.lists := rfl
@[simp] theorem State.setEng_landing (e : Nat) (x : EngSt) : (s.setEng e x).landing = s.landing := rfl
@[simp] theorem State.setEng_mram (e : Nat) (x : EngSt) : (s.setEng e x).mram = s.mram := rfl
@[simp] theorem State.setEng_keep (e : Nat) (x : EngSt) : (s.setEng e x).keep = s.keep := rfl
@[simp] theorem State.setEng_code (e : Nat) (x : EngSt) : (s.setEng e x).code = s.code := rfl
@[simp] theorem State.setEng_dmem (e : Nat) (x : EngSt) : (s.setEng e x).dmem = s.dmem := rfl
@[simp] theorem State.setEng_cleMem (e : Nat) (x : EngSt) : (s.setEng e x).cleMem = s.cleMem := rfl
@[simp] theorem State.setEng_axsMem (e : Nat) (x : EngSt) : (s.setEng e x).axsMem = s.axsMem := rfl
@[simp] theorem State.setEng_lnd (e : Nat) (x : EngSt) : (s.setEng e x).lnd = s.lnd := rfl
@[simp] theorem State.setEng_tly (e : Nat) (x : EngSt) : (s.setEng e x).tly = s.tly := rfl
@[simp] theorem State.setEng_pwr (e : Nat) (x : EngSt) : (s.setEng e x).pwr = s.pwr := rfl
@[simp] theorem State.setEng_fresh (e : Nat) (x : EngSt) : (s.setEng e x).fresh = s.fresh := rfl
@[simp] theorem State.setEng_hif (e : Nat) (x : EngSt) : (s.setEng e x).hif = s.hif := rfl
@[simp] theorem State.setEng_trh (e : Nat) (x : EngSt) : (s.setEng e x).trh = s.trh := rfl
@[simp] theorem State.setEng_cle (e : Nat) (x : EngSt) : (s.setEng e x).cle = s.cle := rfl
@[simp] theorem State.setEng_axs (e : Nat) (x : EngSt) : (s.setEng e x).axs = s.axs := rfl
@[simp] theorem State.setEng_fbk (e : Nat) (x : EngSt) : (s.setEng e x).fbk = s.fbk := rfl
@[simp] theorem State.setEng_trhOut (e : Nat) (x : EngSt) : (s.setEng e x).trhOut = s.trhOut := rfl
@[simp] theorem State.setEng_cnv (e : Nat) (x : EngSt) : (s.setEng e x).cnv = s.cnv := rfl
@[simp] theorem State.setEng_dio (e : Nat) (x : EngSt) : (s.setEng e x).dio = s.dio := rfl
@[simp] theorem State.setEng_net (e : Nat) (x : EngSt) : (s.setEng e x).net = s.net := rfl
@[simp] theorem State.setEng_netOut (e : Nat) (x : EngSt) : (s.setEng e x).netOut = s.netOut := rfl
@[simp] theorem State.setEng_can (e : Nat) (x : EngSt) : (s.setEng e x).can = s.can := rfl
@[simp] theorem State.setEng_canOut (e : Nat) (x : EngSt) : (s.setEng e x).canOut = s.canOut := rfl
@[simp] theorem State.setEng_saf (e : Nat) (x : EngSt) : (s.setEng e x).saf = s.saf := rfl
@[simp] theorem State.setEng_hostOut (e : Nat) (x : EngSt) : (s.setEng e x).hostOut = s.hostOut := rfl

/-! ### `setCtx` -/
@[simp] theorem State.setCtx_pending (e : Nat) (c : CtxSt) : (s.setCtx e c).pending = s.pending := rfl
@[simp] theorem State.setCtx_regs (e : Nat) (c : CtxSt) : (s.setCtx e c).regs = s.regs := rfl
@[simp] theorem State.setCtx_time (e : Nat) (c : CtxSt) : (s.setCtx e c).time = s.time := rfl
@[simp] theorem State.setCtx_rings (e : Nat) (c : CtxSt) : (s.setCtx e c).rings = s.rings := rfl
@[simp] theorem State.setCtx_lists (e : Nat) (c : CtxSt) : (s.setCtx e c).lists = s.lists := rfl
@[simp] theorem State.setCtx_landing (e : Nat) (c : CtxSt) : (s.setCtx e c).landing = s.landing := rfl
@[simp] theorem State.setCtx_mram (e : Nat) (c : CtxSt) : (s.setCtx e c).mram = s.mram := rfl
@[simp] theorem State.setCtx_keep (e : Nat) (c : CtxSt) : (s.setCtx e c).keep = s.keep := rfl
@[simp] theorem State.setCtx_code (e : Nat) (c : CtxSt) : (s.setCtx e c).code = s.code := rfl
@[simp] theorem State.setCtx_dmem (e : Nat) (c : CtxSt) : (s.setCtx e c).dmem = s.dmem := rfl
@[simp] theorem State.setCtx_cleMem (e : Nat) (c : CtxSt) : (s.setCtx e c).cleMem = s.cleMem := rfl
@[simp] theorem State.setCtx_axsMem (e : Nat) (c : CtxSt) : (s.setCtx e c).axsMem = s.axsMem := rfl
@[simp] theorem State.setCtx_lnd (e : Nat) (c : CtxSt) : (s.setCtx e c).lnd = s.lnd := rfl
@[simp] theorem State.setCtx_tly (e : Nat) (c : CtxSt) : (s.setCtx e c).tly = s.tly := rfl
@[simp] theorem State.setCtx_pwr (e : Nat) (c : CtxSt) : (s.setCtx e c).pwr = s.pwr := rfl
@[simp] theorem State.setCtx_fresh (e : Nat) (c : CtxSt) : (s.setCtx e c).fresh = s.fresh := rfl
@[simp] theorem State.setCtx_hif (e : Nat) (c : CtxSt) : (s.setCtx e c).hif = s.hif := rfl
@[simp] theorem State.setCtx_trh (e : Nat) (c : CtxSt) : (s.setCtx e c).trh = s.trh := rfl
@[simp] theorem State.setCtx_cle (e : Nat) (c : CtxSt) : (s.setCtx e c).cle = s.cle := rfl
@[simp] theorem State.setCtx_axs (e : Nat) (c : CtxSt) : (s.setCtx e c).axs = s.axs := rfl
@[simp] theorem State.setCtx_fbk (e : Nat) (c : CtxSt) : (s.setCtx e c).fbk = s.fbk := rfl
@[simp] theorem State.setCtx_trhOut (e : Nat) (c : CtxSt) : (s.setCtx e c).trhOut = s.trhOut := rfl
@[simp] theorem State.setCtx_cnv (e : Nat) (c : CtxSt) : (s.setCtx e c).cnv = s.cnv := rfl
@[simp] theorem State.setCtx_dio (e : Nat) (c : CtxSt) : (s.setCtx e c).dio = s.dio := rfl
@[simp] theorem State.setCtx_net (e : Nat) (c : CtxSt) : (s.setCtx e c).net = s.net := rfl
@[simp] theorem State.setCtx_netOut (e : Nat) (c : CtxSt) : (s.setCtx e c).netOut = s.netOut := rfl
@[simp] theorem State.setCtx_can (e : Nat) (c : CtxSt) : (s.setCtx e c).can = s.can := rfl
@[simp] theorem State.setCtx_canOut (e : Nat) (c : CtxSt) : (s.setCtx e c).canOut = s.canOut := rfl
@[simp] theorem State.setCtx_saf (e : Nat) (c : CtxSt) : (s.setCtx e c).saf = s.saf := rfl
@[simp] theorem State.setCtx_hostOut (e : Nat) (c : CtxSt) : (s.setCtx e c).hostOut = s.hostOut := rfl

/-! ### `setRing` -/
@[simp] theorem State.setRing_pending (n : Nat) (r : RingSt) : (s.setRing n r).pending = s.pending := rfl
@[simp] theorem State.setRing_regs (n : Nat) (r : RingSt) : (s.setRing n r).regs = s.regs := rfl
@[simp] theorem State.setRing_time (n : Nat) (r : RingSt) : (s.setRing n r).time = s.time := rfl
@[simp] theorem State.setRing_lists (n : Nat) (r : RingSt) : (s.setRing n r).lists = s.lists := rfl
@[simp] theorem State.setRing_landing (n : Nat) (r : RingSt) : (s.setRing n r).landing = s.landing := rfl
@[simp] theorem State.setRing_mram (n : Nat) (r : RingSt) : (s.setRing n r).mram = s.mram := rfl
@[simp] theorem State.setRing_keep (n : Nat) (r : RingSt) : (s.setRing n r).keep = s.keep := rfl
@[simp] theorem State.setRing_code (n : Nat) (r : RingSt) : (s.setRing n r).code = s.code := rfl
@[simp] theorem State.setRing_dmem (n : Nat) (r : RingSt) : (s.setRing n r).dmem = s.dmem := rfl
@[simp] theorem State.setRing_cleMem (n : Nat) (r : RingSt) : (s.setRing n r).cleMem = s.cleMem := rfl
@[simp] theorem State.setRing_axsMem (n : Nat) (r : RingSt) : (s.setRing n r).axsMem = s.axsMem := rfl
@[simp] theorem State.setRing_lnd (n : Nat) (r : RingSt) : (s.setRing n r).lnd = s.lnd := rfl
@[simp] theorem State.setRing_tly (n : Nat) (r : RingSt) : (s.setRing n r).tly = s.tly := rfl
@[simp] theorem State.setRing_pwr (n : Nat) (r : RingSt) : (s.setRing n r).pwr = s.pwr := rfl
@[simp] theorem State.setRing_fresh (n : Nat) (r : RingSt) : (s.setRing n r).fresh = s.fresh := rfl
@[simp] theorem State.setRing_hif (n : Nat) (r : RingSt) : (s.setRing n r).hif = s.hif := rfl
@[simp] theorem State.setRing_tex (n : Nat) (r : RingSt) : (s.setRing n r).tex = s.tex := rfl
@[simp] theorem State.setRing_trh (n : Nat) (r : RingSt) : (s.setRing n r).trh = s.trh := rfl
@[simp] theorem State.setRing_cle (n : Nat) (r : RingSt) : (s.setRing n r).cle = s.cle := rfl
@[simp] theorem State.setRing_axs (n : Nat) (r : RingSt) : (s.setRing n r).axs = s.axs := rfl
@[simp] theorem State.setRing_fbk (n : Nat) (r : RingSt) : (s.setRing n r).fbk = s.fbk := rfl
@[simp] theorem State.setRing_trhOut (n : Nat) (r : RingSt) : (s.setRing n r).trhOut = s.trhOut := rfl
@[simp] theorem State.setRing_cnv (n : Nat) (r : RingSt) : (s.setRing n r).cnv = s.cnv := rfl
@[simp] theorem State.setRing_dio (n : Nat) (r : RingSt) : (s.setRing n r).dio = s.dio := rfl
@[simp] theorem State.setRing_net (n : Nat) (r : RingSt) : (s.setRing n r).net = s.net := rfl
@[simp] theorem State.setRing_netOut (n : Nat) (r : RingSt) : (s.setRing n r).netOut = s.netOut := rfl
@[simp] theorem State.setRing_can (n : Nat) (r : RingSt) : (s.setRing n r).can = s.can := rfl
@[simp] theorem State.setRing_canOut (n : Nat) (r : RingSt) : (s.setRing n r).canOut = s.canOut := rfl
@[simp] theorem State.setRing_saf (n : Nat) (r : RingSt) : (s.setRing n r).saf = s.saf := rfl
@[simp] theorem State.setRing_hostOut (n : Nat) (r : RingSt) : (s.setRing n r).hostOut = s.hostOut := rfl

/-! ### `draw` -/
@[simp] theorem State.draw_pending : s.draw.2.pending = s.pending := rfl
@[simp] theorem State.draw_regs : s.draw.2.regs = s.regs := rfl
@[simp] theorem State.draw_time : s.draw.2.time = s.time := rfl
@[simp] theorem State.draw_rings : s.draw.2.rings = s.rings := rfl
@[simp] theorem State.draw_lists : s.draw.2.lists = s.lists := rfl
@[simp] theorem State.draw_landing : s.draw.2.landing = s.landing := rfl
@[simp] theorem State.draw_mram : s.draw.2.mram = s.mram := rfl
@[simp] theorem State.draw_keep : s.draw.2.keep = s.keep := rfl
@[simp] theorem State.draw_code : s.draw.2.code = s.code := rfl
@[simp] theorem State.draw_dmem : s.draw.2.dmem = s.dmem := rfl
@[simp] theorem State.draw_cleMem : s.draw.2.cleMem = s.cleMem := rfl
@[simp] theorem State.draw_axsMem : s.draw.2.axsMem = s.axsMem := rfl
@[simp] theorem State.draw_lnd : s.draw.2.lnd = s.lnd := rfl
@[simp] theorem State.draw_tly : s.draw.2.tly = s.tly := rfl
@[simp] theorem State.draw_pwr : s.draw.2.pwr = s.pwr := rfl
@[simp] theorem State.draw_hif : s.draw.2.hif = s.hif := rfl
@[simp] theorem State.draw_tex : s.draw.2.tex = s.tex := rfl
@[simp] theorem State.draw_trh : s.draw.2.trh = s.trh := rfl
@[simp] theorem State.draw_cle : s.draw.2.cle = s.cle := rfl
@[simp] theorem State.draw_axs : s.draw.2.axs = s.axs := rfl
@[simp] theorem State.draw_fbk : s.draw.2.fbk = s.fbk := rfl
@[simp] theorem State.draw_trhOut : s.draw.2.trhOut = s.trhOut := rfl
@[simp] theorem State.draw_cnv : s.draw.2.cnv = s.cnv := rfl
@[simp] theorem State.draw_dio : s.draw.2.dio = s.dio := rfl
@[simp] theorem State.draw_net : s.draw.2.net = s.net := rfl
@[simp] theorem State.draw_netOut : s.draw.2.netOut = s.netOut := rfl
@[simp] theorem State.draw_can : s.draw.2.can = s.can := rfl
@[simp] theorem State.draw_canOut : s.draw.2.canOut = s.canOut := rfl
@[simp] theorem State.draw_saf : s.draw.2.saf = s.saf := rfl
@[simp] theorem State.draw_hostOut : s.draw.2.hostOut = s.hostOut := rfl
@[simp] theorem State.draw_fresh : s.draw.2.fresh = s.fresh + 1 := rfl
@[simp] theorem State.draw_fst : s.draw.1 = s.fresh := rfl

/-! ### `raise` -/
@[simp] theorem State.raise_pending (k : Nat) : (s.raise k).pending = s.pending := by
  unfold State.raise; split; · rfl
  · simp only; split <;> rfl
@[simp] theorem State.raise_time (k : Nat) : (s.raise k).time = s.time := by
  unfold State.raise; split; · rfl
  · simp only; split <;> rfl
@[simp] theorem State.raise_rings (k : Nat) : (s.raise k).rings = s.rings := by
  unfold State.raise; split; · rfl
  · simp only; split <;> rfl
@[simp] theorem State.raise_lists (k : Nat) : (s.raise k).lists = s.lists := by
  unfold State.raise; split; · rfl
  · simp only; split <;> rfl
@[simp] theorem State.raise_landing (k : Nat) : (s.raise k).landing = s.landing := by
  unfold State.raise; split; · rfl
  · simp only; split <;> rfl
@[simp] theorem State.raise_mram (k : Nat) : (s.raise k).mram = s.mram := by
  unfold State.raise; split; · rfl
  · simp only; split <;> rfl
@[simp] theorem State.raise_keep (k : Nat) : (s.raise k).keep = s.keep := by
  unfold State.raise; split; · rfl
  · simp only; split <;> rfl
@[simp] theorem State.raise_code (k : Nat) : (s.raise k).code = s.code := by
  unfold State.raise; split; · rfl
  · simp only; split <;> rfl
@[simp] theorem State.raise_dmem (k : Nat) : (s.raise k).dmem = s.dmem := by
  unfold State.raise; split; · rfl
  · simp only; split <;> rfl
@[simp] theorem State.raise_cleMem (k : Nat) : (s.raise k).cleMem = s.cleMem := by
  unfold State.raise; split; · rfl
  · simp only; split <;> rfl
@[simp] theorem State.raise_axsMem (k : Nat) : (s.raise k).axsMem = s.axsMem := by
  unfold State.raise; split; · rfl
  · simp only; split <;> rfl
@[simp] theorem State.raise_lnd (k : Nat) : (s.raise k).lnd = s.lnd := by
  unfold State.raise; split; · rfl
  · simp only; split <;> rfl
@[simp] theorem State.raise_tly (k : Nat) : (s.raise k).tly = s.tly := by
  unfold State.raise; split; · rfl
  · simp only; split <;> rfl
@[simp] theorem State.raise_pwr (k : Nat) : (s.raise k).pwr = s.pwr := by
  unfold State.raise; split; · rfl
  · simp only; split <;> rfl
@[simp] theorem State.raise_fresh (k : Nat) : (s.raise k).fresh = s.fresh := by
  unfold State.raise; split; · rfl
  · simp only; split <;> rfl
@[simp] theorem State.raise_tex (k : Nat) : (s.raise k).tex = s.tex := by
  unfold State.raise; split; · rfl
  · simp only; split <;> rfl
@[simp] theorem State.raise_trh (k : Nat) : (s.raise k).trh = s.trh := by
  unfold State.raise; split; · rfl
  · simp only; split <;> rfl
@[simp] theorem State.raise_cle (k : Nat) : (s.raise k).cle = s.cle := by
  unfold State.raise; split; · rfl
  · simp only; split <;> rfl
@[simp] theorem State.raise_axs (k : Nat) : (s.raise k).axs = s.axs := by
  unfold State.raise; split; · rfl
  · simp only; split <;> rfl
@[simp] theorem State.raise_fbk (k : Nat) : (s.raise k).fbk = s.fbk := by
  unfold State.raise; split; · rfl
  · simp only; split <;> rfl
@[simp] theorem State.raise_trhOut (k : Nat) : (s.raise k).trhOut = s.trhOut := by
  unfold State.raise; split; · rfl
  · simp only; split <;> rfl
@[simp] theorem State.raise_cnv (k : Nat) : (s.raise k).cnv = s.cnv := by
  unfold State.raise; split; · rfl
  · simp only; split <;> rfl
@[simp] theorem State.raise_dio (k : Nat) : (s.raise k).dio = s.dio := by
  unfold State.raise; split; · rfl
  · simp only; split <;> rfl
@[simp] theorem State.raise_net (k : Nat) : (s.raise k).net = s.net := by
  unfold State.raise; split; · rfl
  · simp only; split <;> rfl
@[simp] theorem State.raise_netOut (k : Nat) : (s.raise k).netOut = s.netOut := by
  unfold State.raise; split; · rfl
  · simp only; split <;> rfl
@[simp] theorem State.raise_can (k : Nat) : (s.raise k).can = s.can := by
  unfold State.raise; split; · rfl
  · simp only; split <;> rfl
@[simp] theorem State.raise_canOut (k : Nat) : (s.raise k).canOut = s.canOut := by
  unfold State.raise; split; · rfl
  · simp only; split <;> rfl
@[simp] theorem State.raise_saf (k : Nat) : (s.raise k).saf = s.saf := by
  unfold State.raise; split; · rfl
  · simp only; split <;> rfl
@[simp] theorem State.raise_hostOut (k : Nat) : (s.raise k).hostOut = s.hostOut := by
  unfold State.raise; split; · rfl
  · simp only; split <;> rfl

/-! ### `setSticky` -/
@[simp] theorem State.setSticky_pending (k : Nat) (g : Field) (i : Nat) : (s.setSticky k g i).pending = s.pending := by
  unfold State.setSticky; split; · rfl
  · rw [State.raise_pending]; rfl
@[simp] theorem State.setSticky_time (k : Nat) (g : Field) (i : Nat) : (s.setSticky k g i).time = s.time := by
  unfold State.setSticky; split; · rfl
  · rw [State.raise_time]; rfl
@[simp] theorem State.setSticky_rings (k : Nat) (g : Field) (i : Nat) : (s.setSticky k g i).rings = s.rings := by
  unfold State.setSticky; split; · rfl
  · rw [State.raise_rings]; rfl
@[simp] theorem State.setSticky_lists (k : Nat) (g : Field) (i : Nat) : (s.setSticky k g i).lists = s.lists := by
  unfold State.setSticky; split; · rfl
  · rw [State.raise_lists]; rfl
@[simp] theorem State.setSticky_landing (k : Nat) (g : Field) (i : Nat) : (s.setSticky k g i).landing = s.landing := by
  unfold State.setSticky; split; · rfl
  · rw [State.raise_landing]; rfl
@[simp] theorem State.setSticky_mram (k : Nat) (g : Field) (i : Nat) : (s.setSticky k g i).mram = s.mram := by
  unfold State.setSticky; split; · rfl
  · rw [State.raise_mram]; rfl
@[simp] theorem State.setSticky_keep (k : Nat) (g : Field) (i : Nat) : (s.setSticky k g i).keep = s.keep := by
  unfold State.setSticky; split; · rfl
  · rw [State.raise_keep]; rfl
@[simp] theorem State.setSticky_code (k : Nat) (g : Field) (i : Nat) : (s.setSticky k g i).code = s.code := by
  unfold State.setSticky; split; · rfl
  · rw [State.raise_code]; rfl
@[simp] theorem State.setSticky_dmem (k : Nat) (g : Field) (i : Nat) : (s.setSticky k g i).dmem = s.dmem := by
  unfold State.setSticky; split; · rfl
  · rw [State.raise_dmem]; rfl
@[simp] theorem State.setSticky_cleMem (k : Nat) (g : Field) (i : Nat) : (s.setSticky k g i).cleMem = s.cleMem := by
  unfold State.setSticky; split; · rfl
  · rw [State.raise_cleMem]; rfl
@[simp] theorem State.setSticky_axsMem (k : Nat) (g : Field) (i : Nat) : (s.setSticky k g i).axsMem = s.axsMem := by
  unfold State.setSticky; split; · rfl
  · rw [State.raise_axsMem]; rfl
@[simp] theorem State.setSticky_lnd (k : Nat) (g : Field) (i : Nat) : (s.setSticky k g i).lnd = s.lnd := by
  unfold State.setSticky; split; · rfl
  · rw [State.raise_lnd]; rfl
@[simp] theorem State.setSticky_tly (k : Nat) (g : Field) (i : Nat) : (s.setSticky k g i).tly = s.tly := by
  unfold State.setSticky; split; · rfl
  · rw [State.raise_tly]; rfl
@[simp] theorem State.setSticky_pwr (k : Nat) (g : Field) (i : Nat) : (s.setSticky k g i).pwr = s.pwr := by
  unfold State.setSticky; split; · rfl
  · rw [State.raise_pwr]; rfl
@[simp] theorem State.setSticky_fresh (k : Nat) (g : Field) (i : Nat) : (s.setSticky k g i).fresh = s.fresh := by
  unfold State.setSticky; split; · rfl
  · rw [State.raise_fresh]; rfl
@[simp] theorem State.setSticky_tex (k : Nat) (g : Field) (i : Nat) : (s.setSticky k g i).tex = s.tex := by
  unfold State.setSticky; split; · rfl
  · rw [State.raise_tex]; rfl
@[simp] theorem State.setSticky_trh (k : Nat) (g : Field) (i : Nat) : (s.setSticky k g i).trh = s.trh := by
  unfold State.setSticky; split; · rfl
  · rw [State.raise_trh]; rfl
@[simp] theorem State.setSticky_cle (k : Nat) (g : Field) (i : Nat) : (s.setSticky k g i).cle = s.cle := by
  unfold State.setSticky; split; · rfl
  · rw [State.raise_cle]; rfl
@[simp] theorem State.setSticky_axs (k : Nat) (g : Field) (i : Nat) : (s.setSticky k g i).axs = s.axs := by
  unfold State.setSticky; split; · rfl
  · rw [State.raise_axs]; rfl
@[simp] theorem State.setSticky_fbk (k : Nat) (g : Field) (i : Nat) : (s.setSticky k g i).fbk = s.fbk := by
  unfold State.setSticky; split; · rfl
  · rw [State.raise_fbk]; rfl
@[simp] theorem State.setSticky_trhOut (k : Nat) (g : Field) (i : Nat) : (s.setSticky k g i).trhOut = s.trhOut := by
  unfold State.setSticky; split; · rfl
  · rw [State.raise_trhOut]; rfl
@[simp] theorem State.setSticky_cnv (k : Nat) (g : Field) (i : Nat) : (s.setSticky k g i).cnv = s.cnv := by
  unfold State.setSticky; split; · rfl
  · rw [State.raise_cnv]; rfl
@[simp] theorem State.setSticky_dio (k : Nat) (g : Field) (i : Nat) : (s.setSticky k g i).dio = s.dio := by
  unfold State.setSticky; split; · rfl
  · rw [State.raise_dio]; rfl
@[simp] theorem State.setSticky_net (k : Nat) (g : Field) (i : Nat) : (s.setSticky k g i).net = s.net := by
  unfold State.setSticky; split; · rfl
  · rw [State.raise_net]; rfl
@[simp] theorem State.setSticky_netOut (k : Nat) (g : Field) (i : Nat) : (s.setSticky k g i).netOut = s.netOut := by
  unfold State.setSticky; split; · rfl
  · rw [State.raise_netOut]; rfl
@[simp] theorem State.setSticky_can (k : Nat) (g : Field) (i : Nat) : (s.setSticky k g i).can = s.can := by
  unfold State.setSticky; split; · rfl
  · rw [State.raise_can]; rfl
@[simp] theorem State.setSticky_canOut (k : Nat) (g : Field) (i : Nat) : (s.setSticky k g i).canOut = s.canOut := by
  unfold State.setSticky; split; · rfl
  · rw [State.raise_canOut]; rfl
@[simp] theorem State.setSticky_saf (k : Nat) (g : Field) (i : Nat) : (s.setSticky k g i).saf = s.saf := by
  unfold State.setSticky; split; · rfl
  · rw [State.raise_saf]; rfl
@[simp] theorem State.setSticky_hostOut (k : Nat) (g : Field) (i : Nat) : (s.setSticky k g i).hostOut = s.hostOut := by
  unfold State.setSticky; split; · rfl
  · rw [State.raise_hostOut]; rfl

/-! ### `setSummary` -/
@[simp] theorem State.setSummary_pending (k : Nat) (g : Field) (b i : Nat) : (s.setSummary k g b i).pending = s.pending := by
  unfold State.setSummary; split; · rfl
  · rw [State.raise_pending]; rfl
@[simp] theorem State.setSummary_time (k : Nat) (g : Field) (b i : Nat) : (s.setSummary k g b i).time = s.time := by
  unfold State.setSummary; split; · rfl
  · rw [State.raise_time]; rfl
@[simp] theorem State.setSummary_rings (k : Nat) (g : Field) (b i : Nat) : (s.setSummary k g b i).rings = s.rings := by
  unfold State.setSummary; split; · rfl
  · rw [State.raise_rings]; rfl
@[simp] theorem State.setSummary_lists (k : Nat) (g : Field) (b i : Nat) : (s.setSummary k g b i).lists = s.lists := by
  unfold State.setSummary; split; · rfl
  · rw [State.raise_lists]; rfl
@[simp] theorem State.setSummary_landing (k : Nat) (g : Field) (b i : Nat) : (s.setSummary k g b i).landing = s.landing := by
  unfold State.setSummary; split; · rfl
  · rw [State.raise_landing]; rfl
@[simp] theorem State.setSummary_mram (k : Nat) (g : Field) (b i : Nat) : (s.setSummary k g b i).mram = s.mram := by
  unfold State.setSummary; split; · rfl
  · rw [State.raise_mram]; rfl
@[simp] theorem State.setSummary_keep (k : Nat) (g : Field) (b i : Nat) : (s.setSummary k g b i).keep = s.keep := by
  unfold State.setSummary; split; · rfl
  · rw [State.raise_keep]; rfl
@[simp] theorem State.setSummary_code (k : Nat) (g : Field) (b i : Nat) : (s.setSummary k g b i).code = s.code := by
  unfold State.setSummary; split; · rfl
  · rw [State.raise_code]; rfl
@[simp] theorem State.setSummary_dmem (k : Nat) (g : Field) (b i : Nat) : (s.setSummary k g b i).dmem = s.dmem := by
  unfold State.setSummary; split; · rfl
  · rw [State.raise_dmem]; rfl
@[simp] theorem State.setSummary_cleMem (k : Nat) (g : Field) (b i : Nat) : (s.setSummary k g b i).cleMem = s.cleMem := by
  unfold State.setSummary; split; · rfl
  · rw [State.raise_cleMem]; rfl
@[simp] theorem State.setSummary_axsMem (k : Nat) (g : Field) (b i : Nat) : (s.setSummary k g b i).axsMem = s.axsMem := by
  unfold State.setSummary; split; · rfl
  · rw [State.raise_axsMem]; rfl
@[simp] theorem State.setSummary_lnd (k : Nat) (g : Field) (b i : Nat) : (s.setSummary k g b i).lnd = s.lnd := by
  unfold State.setSummary; split; · rfl
  · rw [State.raise_lnd]; rfl
@[simp] theorem State.setSummary_tly (k : Nat) (g : Field) (b i : Nat) : (s.setSummary k g b i).tly = s.tly := by
  unfold State.setSummary; split; · rfl
  · rw [State.raise_tly]; rfl
@[simp] theorem State.setSummary_pwr (k : Nat) (g : Field) (b i : Nat) : (s.setSummary k g b i).pwr = s.pwr := by
  unfold State.setSummary; split; · rfl
  · rw [State.raise_pwr]; rfl
@[simp] theorem State.setSummary_fresh (k : Nat) (g : Field) (b i : Nat) : (s.setSummary k g b i).fresh = s.fresh := by
  unfold State.setSummary; split; · rfl
  · rw [State.raise_fresh]; rfl
@[simp] theorem State.setSummary_tex (k : Nat) (g : Field) (b i : Nat) : (s.setSummary k g b i).tex = s.tex := by
  unfold State.setSummary; split; · rfl
  · rw [State.raise_tex]; rfl
@[simp] theorem State.setSummary_trh (k : Nat) (g : Field) (b i : Nat) : (s.setSummary k g b i).trh = s.trh := by
  unfold State.setSummary; split; · rfl
  · rw [State.raise_trh]; rfl
@[simp] theorem State.setSummary_cle (k : Nat) (g : Field) (b i : Nat) : (s.setSummary k g b i).cle = s.cle := by
  unfold State.setSummary; split; · rfl
  · rw [State.raise_cle]; rfl
@[simp] theorem State.setSummary_axs (k : Nat) (g : Field) (b i : Nat) : (s.setSummary k g b i).axs = s.axs := by
  unfold State.setSummary; split; · rfl
  · rw [State.raise_axs]; rfl
@[simp] theorem State.setSummary_fbk (k : Nat) (g : Field) (b i : Nat) : (s.setSummary k g b i).fbk = s.fbk := by
  unfold State.setSummary; split; · rfl
  · rw [State.raise_fbk]; rfl
@[simp] theorem State.setSummary_trhOut (k : Nat) (g : Field) (b i : Nat) : (s.setSummary k g b i).trhOut = s.trhOut := by
  unfold State.setSummary; split; · rfl
  · rw [State.raise_trhOut]; rfl
@[simp] theorem State.setSummary_cnv (k : Nat) (g : Field) (b i : Nat) : (s.setSummary k g b i).cnv = s.cnv := by
  unfold State.setSummary; split; · rfl
  · rw [State.raise_cnv]; rfl
@[simp] theorem State.setSummary_dio (k : Nat) (g : Field) (b i : Nat) : (s.setSummary k g b i).dio = s.dio := by
  unfold State.setSummary; split; · rfl
  · rw [State.raise_dio]; rfl
@[simp] theorem State.setSummary_net (k : Nat) (g : Field) (b i : Nat) : (s.setSummary k g b i).net = s.net := by
  unfold State.setSummary; split; · rfl
  · rw [State.raise_net]; rfl
@[simp] theorem State.setSummary_netOut (k : Nat) (g : Field) (b i : Nat) : (s.setSummary k g b i).netOut = s.netOut := by
  unfold State.setSummary; split; · rfl
  · rw [State.raise_netOut]; rfl
@[simp] theorem State.setSummary_can (k : Nat) (g : Field) (b i : Nat) : (s.setSummary k g b i).can = s.can := by
  unfold State.setSummary; split; · rfl
  · rw [State.raise_can]; rfl
@[simp] theorem State.setSummary_canOut (k : Nat) (g : Field) (b i : Nat) : (s.setSummary k g b i).canOut = s.canOut := by
  unfold State.setSummary; split; · rfl
  · rw [State.raise_canOut]; rfl
@[simp] theorem State.setSummary_saf (k : Nat) (g : Field) (b i : Nat) : (s.setSummary k g b i).saf = s.saf := by
  unfold State.setSummary; split; · rfl
  · rw [State.raise_saf]; rfl
@[simp] theorem State.setSummary_hostOut (k : Nat) (g : Field) (b i : Nat) : (s.setSummary k g b i).hostOut = s.hostOut := by
  unfold State.setSummary; split; · rfl
  · rw [State.raise_hostOut]; rfl

/-! ### `tallyEvent` -/
@[simp] theorem State.tallyEvent_pending (ev : TlyEvent) : (s.tallyEvent ev).pending = s.pending := by
  unfold State.tallyEvent; simp only; split <;> split <;> first | rfl | (simp only [State.inc_pending, State.setSticky_pending])
@[simp] theorem State.tallyEvent_time (ev : TlyEvent) : (s.tallyEvent ev).time = s.time := by
  unfold State.tallyEvent; simp only; split <;> split <;> first | rfl | (simp only [State.inc_time, State.setSticky_time])
@[simp] theorem State.tallyEvent_rings (ev : TlyEvent) : (s.tallyEvent ev).rings = s.rings := by
  unfold State.tallyEvent; simp only; split <;> split <;> first | rfl | (simp only [State.inc_rings, State.setSticky_rings])
@[simp] theorem State.tallyEvent_lists (ev : TlyEvent) : (s.tallyEvent ev).lists = s.lists := by
  unfold State.tallyEvent; simp only; split <;> split <;> first | rfl | (simp only [State.inc_lists, State.setSticky_lists])
@[simp] theorem State.tallyEvent_landing (ev : TlyEvent) : (s.tallyEvent ev).landing = s.landing := by
  unfold State.tallyEvent; simp only; split <;> split <;> first | rfl | (simp only [State.inc_landing, State.setSticky_landing])
@[simp] theorem State.tallyEvent_mram (ev : TlyEvent) : (s.tallyEvent ev).mram = s.mram := by
  unfold State.tallyEvent; simp only; split <;> split <;> first | rfl | (simp only [State.inc_mram, State.setSticky_mram])
@[simp] theorem State.tallyEvent_keep (ev : TlyEvent) : (s.tallyEvent ev).keep = s.keep := by
  unfold State.tallyEvent; simp only; split <;> split <;> first | rfl | (simp only [State.inc_keep, State.setSticky_keep])
@[simp] theorem State.tallyEvent_code (ev : TlyEvent) : (s.tallyEvent ev).code = s.code := by
  unfold State.tallyEvent; simp only; split <;> split <;> first | rfl | (simp only [State.inc_code, State.setSticky_code])
@[simp] theorem State.tallyEvent_dmem (ev : TlyEvent) : (s.tallyEvent ev).dmem = s.dmem := by
  unfold State.tallyEvent; simp only; split <;> split <;> first | rfl | (simp only [State.inc_dmem, State.setSticky_dmem])
@[simp] theorem State.tallyEvent_cleMem (ev : TlyEvent) : (s.tallyEvent ev).cleMem = s.cleMem := by
  unfold State.tallyEvent; simp only; split <;> split <;> first | rfl | (simp only [State.inc_cleMem, State.setSticky_cleMem])
@[simp] theorem State.tallyEvent_axsMem (ev : TlyEvent) : (s.tallyEvent ev).axsMem = s.axsMem := by
  unfold State.tallyEvent; simp only; split <;> split <;> first | rfl | (simp only [State.inc_axsMem, State.setSticky_axsMem])
@[simp] theorem State.tallyEvent_lnd (ev : TlyEvent) : (s.tallyEvent ev).lnd = s.lnd := by
  unfold State.tallyEvent; simp only; split <;> split <;> first | rfl | (simp only [State.inc_lnd, State.setSticky_lnd])
@[simp] theorem State.tallyEvent_pwr (ev : TlyEvent) : (s.tallyEvent ev).pwr = s.pwr := by
  unfold State.tallyEvent; simp only; split <;> split <;> first | rfl | (simp only [State.inc_pwr, State.setSticky_pwr])
@[simp] theorem State.tallyEvent_fresh (ev : TlyEvent) : (s.tallyEvent ev).fresh = s.fresh := by
  unfold State.tallyEvent; simp only; split <;> split <;> first | rfl | (simp only [State.inc_fresh, State.setSticky_fresh])
@[simp] theorem State.tallyEvent_tex (ev : TlyEvent) : (s.tallyEvent ev).tex = s.tex := by
  unfold State.tallyEvent; simp only; split <;> split <;> first | rfl | (simp only [State.inc_tex, State.setSticky_tex])
@[simp] theorem State.tallyEvent_trh (ev : TlyEvent) : (s.tallyEvent ev).trh = s.trh := by
  unfold State.tallyEvent; simp only; split <;> split <;> first | rfl | (simp only [State.inc_trh, State.setSticky_trh])
@[simp] theorem State.tallyEvent_cle (ev : TlyEvent) : (s.tallyEvent ev).cle = s.cle := by
  unfold State.tallyEvent; simp only; split <;> split <;> first | rfl | (simp only [State.inc_cle, State.setSticky_cle])
@[simp] theorem State.tallyEvent_axs (ev : TlyEvent) : (s.tallyEvent ev).axs = s.axs := by
  unfold State.tallyEvent; simp only; split <;> split <;> first | rfl | (simp only [State.inc_axs, State.setSticky_axs])
@[simp] theorem State.tallyEvent_fbk (ev : TlyEvent) : (s.tallyEvent ev).fbk = s.fbk := by
  unfold State.tallyEvent; simp only; split <;> split <;> first | rfl | (simp only [State.inc_fbk, State.setSticky_fbk])
@[simp] theorem State.tallyEvent_trhOut (ev : TlyEvent) : (s.tallyEvent ev).trhOut = s.trhOut := by
  unfold State.tallyEvent; simp only; split <;> split <;> first | rfl | (simp only [State.inc_trhOut, State.setSticky_trhOut])
@[simp] theorem State.tallyEvent_cnv (ev : TlyEvent) : (s.tallyEvent ev).cnv = s.cnv := by
  unfold State.tallyEvent; simp only; split <;> split <;> first | rfl | (simp only [State.inc_cnv, State.setSticky_cnv])
@[simp] theorem State.tallyEvent_dio (ev : TlyEvent) : (s.tallyEvent ev).dio = s.dio := by
  unfold State.tallyEvent; simp only; split <;> split <;> first | rfl | (simp only [State.inc_dio, State.setSticky_dio])
@[simp] theorem State.tallyEvent_net (ev : TlyEvent) : (s.tallyEvent ev).net = s.net := by
  unfold State.tallyEvent; simp only; split <;> split <;> first | rfl | (simp only [State.inc_net, State.setSticky_net])
@[simp] theorem State.tallyEvent_netOut (ev : TlyEvent) : (s.tallyEvent ev).netOut = s.netOut := by
  unfold State.tallyEvent; simp only; split <;> split <;> first | rfl | (simp only [State.inc_netOut, State.setSticky_netOut])
@[simp] theorem State.tallyEvent_can (ev : TlyEvent) : (s.tallyEvent ev).can = s.can := by
  unfold State.tallyEvent; simp only; split <;> split <;> first | rfl | (simp only [State.inc_can, State.setSticky_can])
@[simp] theorem State.tallyEvent_canOut (ev : TlyEvent) : (s.tallyEvent ev).canOut = s.canOut := by
  unfold State.tallyEvent; simp only; split <;> split <;> first | rfl | (simp only [State.inc_canOut, State.setSticky_canOut])
@[simp] theorem State.tallyEvent_saf (ev : TlyEvent) : (s.tallyEvent ev).saf = s.saf := by
  unfold State.tallyEvent; simp only; split <;> split <;> first | rfl | (simp only [State.inc_saf, State.setSticky_saf])
@[simp] theorem State.tallyEvent_hostOut (ev : TlyEvent) : (s.tallyEvent ev).hostOut = s.hostOut := by
  unfold State.tallyEvent; simp only; split <;> split <;> first | rfl | (simp only [State.inc_hostOut, State.setSticky_hostOut])

/-! ### `tally` -/
@[simp] theorem State.tally_pending (c o a v b : Nat) : (s.tally c o a v b).pending = s.pending := by
  exact State.tallyEvent_pending s _
@[simp] theorem State.tally_time (c o a v b : Nat) : (s.tally c o a v b).time = s.time := by
  exact State.tallyEvent_time s _
@[simp] theorem State.tally_rings (c o a v b : Nat) : (s.tally c o a v b).rings = s.rings := by
  exact State.tallyEvent_rings s _
@[simp] theorem State.tally_lists (c o a v b : Nat) : (s.tally c o a v b).lists = s.lists := by
  exact State.tallyEvent_lists s _
@[simp] theorem State.tally_landing (c o a v b : Nat) : (s.tally c o a v b).landing = s.landing := by
  exact State.tallyEvent_landing s _
@[simp] theorem State.tally_mram (c o a v b : Nat) : (s.tally c o a v b).mram = s.mram := by
  exact State.tallyEvent_mram s _
@[simp] theorem State.tally_keep (c o a v b : Nat) : (s.tally c o a v b).keep = s.keep := by
  exact State.tallyEvent_keep s _
@[simp] theorem State.tally_code (c o a v b : Nat) : (s.tally c o a v b).code = s.code := by
  exact State.tallyEvent_code s _
@[simp] theorem State.tally_dmem (c o a v b : Nat) : (s.tally c o a v b).dmem = s.dmem := by
  exact State.tallyEvent_dmem s _
@[simp] theorem State.tally_cleMem (c o a v b : Nat) : (s.tally c o a v b).cleMem = s.cleMem := by
  exact State.tallyEvent_cleMem s _
@[simp] theorem State.tally_axsMem (c o a v b : Nat) : (s.tally c o a v b).axsMem = s.axsMem := by
  exact State.tallyEvent_axsMem s _
@[simp] theorem State.tally_lnd (c o a v b : Nat) : (s.tally c o a v b).lnd = s.lnd := by
  exact State.tallyEvent_lnd s _
@[simp] theorem State.tally_pwr (c o a v b : Nat) : (s.tally c o a v b).pwr = s.pwr := by
  exact State.tallyEvent_pwr s _
@[simp] theorem State.tally_fresh (c o a v b : Nat) : (s.tally c o a v b).fresh = s.fresh := by
  exact State.tallyEvent_fresh s _
@[simp] theorem State.tally_tex (c o a v b : Nat) : (s.tally c o a v b).tex = s.tex := by
  exact State.tallyEvent_tex s _
@[simp] theorem State.tally_trh (c o a v b : Nat) : (s.tally c o a v b).trh = s.trh := by
  exact State.tallyEvent_trh s _
@[simp] theorem State.tally_cle (c o a v b : Nat) : (s.tally c o a v b).cle = s.cle := by
  exact State.tallyEvent_cle s _
@[simp] theorem State.tally_axs (c o a v b : Nat) : (s.tally c o a v b).axs = s.axs := by
  exact State.tallyEvent_axs s _
@[simp] theorem State.tally_fbk (c o a v b : Nat) : (s.tally c o a v b).fbk = s.fbk := by
  exact State.tallyEvent_fbk s _
@[simp] theorem State.tally_trhOut (c o a v b : Nat) : (s.tally c o a v b).trhOut = s.trhOut := by
  exact State.tallyEvent_trhOut s _
@[simp] theorem State.tally_cnv (c o a v b : Nat) : (s.tally c o a v b).cnv = s.cnv := by
  exact State.tallyEvent_cnv s _
@[simp] theorem State.tally_dio (c o a v b : Nat) : (s.tally c o a v b).dio = s.dio := by
  exact State.tallyEvent_dio s _
@[simp] theorem State.tally_net (c o a v b : Nat) : (s.tally c o a v b).net = s.net := by
  exact State.tallyEvent_net s _
@[simp] theorem State.tally_netOut (c o a v b : Nat) : (s.tally c o a v b).netOut = s.netOut := by
  exact State.tallyEvent_netOut s _
@[simp] theorem State.tally_can (c o a v b : Nat) : (s.tally c o a v b).can = s.can := by
  exact State.tallyEvent_can s _
@[simp] theorem State.tally_canOut (c o a v b : Nat) : (s.tally c o a v b).canOut = s.canOut := by
  exact State.tallyEvent_canOut s _
@[simp] theorem State.tally_saf (c o a v b : Nat) : (s.tally c o a v b).saf = s.saf := by
  exact State.tallyEvent_saf s _
@[simp] theorem State.tally_hostOut (c o a v b : Nat) : (s.tally c o a v b).hostOut = s.hostOut := by
  exact State.tallyEvent_hostOut s _

/-! ### `tallyLoc` -/
@[simp] theorem State.tallyLoc_pending (c l d b : Nat) : (s.tallyLoc c l d b).pending = s.pending := by
  exact State.tallyEvent_pending s _
@[simp] theorem State.tallyLoc_time (c l d b : Nat) : (s.tallyLoc c l d b).time = s.time := by
  exact State.tallyEvent_time s _
@[simp] theorem State.tallyLoc_rings (c l d b : Nat) : (s.tallyLoc c l d b).rings = s.rings := by
  exact State.tallyEvent_rings s _
@[simp] theorem State.tallyLoc_lists (c l d b : Nat) : (s.tallyLoc c l d b).lists = s.lists := by
  exact State.tallyEvent_lists s _
@[simp] theorem State.tallyLoc_landing (c l d b : Nat) : (s.tallyLoc c l d b).landing = s.landing := by
  exact State.tallyEvent_landing s _
@[simp] theorem State.tallyLoc_mram (c l d b : Nat) : (s.tallyLoc c l d b).mram = s.mram := by
  exact State.tallyEvent_mram s _
@[simp] theorem State.tallyLoc_keep (c l d b : Nat) : (s.tallyLoc c l d b).keep = s.keep := by
  exact State.tallyEvent_keep s _
@[simp] theorem State.tallyLoc_code (c l d b : Nat) : (s.tallyLoc c l d b).code = s.code := by
  exact State.tallyEvent_code s _
@[simp] theorem State.tallyLoc_dmem (c l d b : Nat) : (s.tallyLoc c l d b).dmem = s.dmem := by
  exact State.tallyEvent_dmem s _
@[simp] theorem State.tallyLoc_cleMem (c l d b : Nat) : (s.tallyLoc c l d b).cleMem = s.cleMem := by
  exact State.tallyEvent_cleMem s _
@[simp] theorem State.tallyLoc_axsMem (c l d b : Nat) : (s.tallyLoc c l d b).axsMem = s.axsMem := by
  exact State.tallyEvent_axsMem s _
@[simp] theorem State.tallyLoc_lnd (c l d b : Nat) : (s.tallyLoc c l d b).lnd = s.lnd := by
  exact State.tallyEvent_lnd s _
@[simp] theorem State.tallyLoc_pwr (c l d b : Nat) : (s.tallyLoc c l d b).pwr = s.pwr := by
  exact State.tallyEvent_pwr s _
@[simp] theorem State.tallyLoc_fresh (c l d b : Nat) : (s.tallyLoc c l d b).fresh = s.fresh := by
  exact State.tallyEvent_fresh s _
@[simp] theorem State.tallyLoc_tex (c l d b : Nat) : (s.tallyLoc c l d b).tex = s.tex := by
  exact State.tallyEvent_tex s _
@[simp] theorem State.tallyLoc_trh (c l d b : Nat) : (s.tallyLoc c l d b).trh = s.trh := by
  exact State.tallyEvent_trh s _
@[simp] theorem State.tallyLoc_cle (c l d b : Nat) : (s.tallyLoc c l d b).cle = s.cle := by
  exact State.tallyEvent_cle s _
@[simp] theorem State.tallyLoc_axs (c l d b : Nat) : (s.tallyLoc c l d b).axs = s.axs := by
  exact State.tallyEvent_axs s _
@[simp] theorem State.tallyLoc_fbk (c l d b : Nat) : (s.tallyLoc c l d b).fbk = s.fbk := by
  exact State.tallyEvent_fbk s _
@[simp] theorem State.tallyLoc_trhOut (c l d b : Nat) : (s.tallyLoc c l d b).trhOut = s.trhOut := by
  exact State.tallyEvent_trhOut s _
@[simp] theorem State.tallyLoc_cnv (c l d b : Nat) : (s.tallyLoc c l d b).cnv = s.cnv := by
  exact State.tallyEvent_cnv s _
@[simp] theorem State.tallyLoc_dio (c l d b : Nat) : (s.tallyLoc c l d b).dio = s.dio := by
  exact State.tallyEvent_dio s _
@[simp] theorem State.tallyLoc_net (c l d b : Nat) : (s.tallyLoc c l d b).net = s.net := by
  exact State.tallyEvent_net s _
@[simp] theorem State.tallyLoc_netOut (c l d b : Nat) : (s.tallyLoc c l d b).netOut = s.netOut := by
  exact State.tallyEvent_netOut s _
@[simp] theorem State.tallyLoc_can (c l d b : Nat) : (s.tallyLoc c l d b).can = s.can := by
  exact State.tallyEvent_can s _
@[simp] theorem State.tallyLoc_canOut (c l d b : Nat) : (s.tallyLoc c l d b).canOut = s.canOut := by
  exact State.tallyEvent_canOut s _
@[simp] theorem State.tallyLoc_saf (c l d b : Nat) : (s.tallyLoc c l d b).saf = s.saf := by
  exact State.tallyEvent_saf s _
@[simp] theorem State.tallyLoc_hostOut (c l d b : Nat) : (s.tallyLoc c l d b).hostOut = s.hostOut := by
  exact State.tallyEvent_hostOut s _

end Sys2Proof.Machine
end

