-- ==== Sys2Proof/Laws/Time.lean ====
section
/-! SUPPORT. Letting time run: what it changes (the time and registers alone), the edge it ends at, and that device time stays within
its fields. -/
namespace Sys2Proof.Machine

/-- A time within its fields. -/
def TimeSt.inRange (t : TimeSt) : Prop := t.sec < 2 ^ 48 ∧ t.ns < 1000000000 ∧ t.acc < 2 ^ 32 ∧ t.share < 2 ^ 32

theorem State.timeInRange_iff (s : State) : s.timeInRange = true ↔ s.time.inRange := by
  simp only [State.timeInRange, TimeSt.inRange, Bool.and_eq_true, decide_eq_true_eq, and_assoc]

/-- `t` differs from `s` in its registers and its time alone, has passed `m` edges, and its time is within its fields. -/
def Passed (s t : State) (m : Nat) : Prop :=
  ∃ r τ, t = { s with regs := r, time := τ } ∧ τ.edge = s.time.edge + m ∧ (s.time.inRange → τ.inRange)

theorem Passed.refl (s : State) : Passed s s 0 := ⟨s.regs, s.time, rfl, rfl, id⟩

theorem Passed.trans {s t u : State} {m n : Nat} (h : Passed s t m) (h' : Passed t u n) : Passed s u (m + n) := by
  obtain ⟨r, τ, rfl, he, hr⟩ := h
  obtain ⟨r', τ', rfl, he', hr'⟩ := h'
  exact ⟨r', τ', rfl, by rw [he']; show τ.edge + n = _; omega, fun h => hr' (hr h)⟩

theorem Passed.timeInRange {s t : State} {m : Nat} (h : Passed s t m) (hs : s.timeInRange = true) : t.timeInRange = true := by
  obtain ⟨r, τ, rfl, _, hr⟩ := h
  exact (State.timeInRange_iff _).mpr (hr ((State.timeInRange_iff s).mp hs))

theorem Passed.edge {s t : State} {m : Nat} (h : Passed s t m) : t.time.edge = s.time.edge + m := by
  obtain ⟨r, τ, rfl, he, _⟩ := h
  exact he

/-- The rest of the state stays. -/
theorem Passed.rest {s t : State} {m : Nat} (h : Passed s t m) : t = { s with regs := t.regs, time := t.time } := by
  obtain ⟨r, τ, rfl, _, _⟩ := h
  rfl

theorem timeAfter_inRange (t : TimeSt) (r : Int) (m n : Nat) (hn : n < 2 ^ 32) : ({ timeAfter t r m with share := n } : TimeSt).inRange := by
  refine ⟨Nat.mod_lt _ (by decide), Nat.mod_lt _ (by decide), ?_, hn⟩
  show (((t.acc : Int) + (m : Int) * (5 * ((2 : Int) ^ 32 + r))) % (2 : Int) ^ 32).toNat < 2 ^ 32
  have h0 := Int.emod_nonneg ((t.acc : Int) + (m : Int) * (5 * ((2 : Int) ^ 32 + r))) (show (2 : Int) ^ 32 ≠ 0 by decide)
  have h1 := Int.emod_lt_of_pos ((t.acc : Int) + (m : Int) * (5 * ((2 : Int) ^ 32 + r))) (show (0 : Int) < (2 : Int) ^ 32 by decide)
  omega

theorem State.edgesFlat_passed (s : State) (m : Nat) : Passed s (s.edgesFlat m) m := by
  have wr : ∀ (u : State) (f : Field) (v : Nat), Passed s u m → Passed s (u.wr f v) m := by
    rintro u f v ⟨r, τ, rfl, he, hr⟩
    exact ⟨_, τ, rfl, he, hr⟩
  have h1 : ∀ n : Nat, n < 2 ^ 32 → Passed s { s with time := { timeAfter s.time (s.rc + s.slewRate) m with share := n } } m :=
    fun n hn => ⟨s.regs, _, rfl, rfl, fun _ => timeAfter_inRange _ _ _ _ hn⟩
  have hs : ∀ (c : Prop) [Decidable c] (x : Nat), (if c then 0 else x % 2 ^ 32) < 2 ^ 32 := fun c _ x => by split <;> omega
  unfold State.edgesFlat
  dsimp only
  split
  · exact wr _ _ _ (wr _ _ _ (wr _ _ _ (wr _ _ _ (h1 _ (hs _ _)))))
  · exact wr _ _ _ (wr _ _ _ (wr _ _ _ (h1 _ (hs _ _))))

theorem State.edges_passed (s : State) (m : Nat) : Passed s (s.edges m) m := by
  unfold State.edges
  split
  · split
    · rename_i k _ h
      have := (s.edgesFlat_passed k).trans ((s.edgesFlat k).edgesFlat_passed (m - k))
      rwa [Nat.add_sub_cancel' (Nat.le_of_lt h)] at this
    · exact s.edgesFlat_passed m
  · exact s.edgesFlat_passed m

theorem State.tick_passed (s : State) : Passed s s.tick 1 := s.edges_passed 1

theorem State.advanceEdge_passed (s : State) (e : Nat) : Passed s (s.advanceEdge e) (e - s.time.edge) := s.edges_passed _

/-- An edge that is still to come is the edge time ends at. -/
theorem State.advanceEdge_edge (s : State) {e : Nat} (h : s.time.edge ≤ e) : (s.advanceEdge e).time.edge = e := by
  rw [(s.advanceEdge_passed e).edge]; omega

theorem State.advanceTo_passed (s : State) (due : Nat) : ∃ m, Passed s (s.advanceTo due) m := by
  unfold State.advanceTo
  split
  · exact ⟨0, Passed.refl s⟩
  · dsimp only
    split
    · split
      · exact ⟨_, (s.edgesFlat_passed _).trans (State.edgesFlat_passed _ _)⟩
      · exact ⟨_, s.edgesFlat_passed _⟩
    · exact ⟨_, s.edgesFlat_passed _⟩

theorem State.loadTime_inRange (s : State) (sec ns : Nat) (h : s.timeInRange = true) (hn : ns < 1000000000) :
    (s.loadTime sec ns).timeInRange = true := by
  rw [State.timeInRange_iff] at *
  exact ⟨Nat.mod_lt _ (by decide), hn, show (0 : Nat) < 2 ^ 32 by decide, h.2.2.2⟩

end Sys2Proof.Machine
end

