-- ==== Sys2Proof/Laws/Canonical.lean ====
section
/-! SUPPORT. The canonical form of a state, through register writes, events, time, and reads and writes of the memories. -/
namespace Sys2Proof.Machine

theorem tabRising_tabPut {α : Type} [DecidableEq α] {d : α} {t : Tab α} (k : Nat) (v : α) (ht : tabRising 0 t = true) :
    tabRising 0 (tabPut d t k v) = true := by
  unfold tabPut
  split
  · exact tabRising_tabDel ht
  · exact tabRising_tabIns (Nat.zero_le _) (tabRising_tabDel ht) tabDel_ne

theorem tabPut_all {α : Type} [DecidableEq α] {d : α} {t : Tab α} (q : α → Bool) (k : Nat) (v : α) (hv : q v = true)
    (ht : t.all (fun p => q p.2) = true) : (tabPut d t k v).all (fun p => q p.2) = true := by
  rw [List.all_eq_true] at *
  intro p hp
  unfold tabPut at hp
  split at hp
  · exact ht p (mem_tabDel hp)
  · rcases mem_tabIns hp with rfl | hp
    · exact hv
    · exact ht p (mem_tabDel hp)

theorem tabAt_all {α : Type} {d : α} (q : α → Bool) (hd : q d = true) : ∀ (t : Tab α) (k : Nat), t.all (fun p => q p.2) = true → q (tabAt d t k) = true := by
  intro t
  induction t with
  | nil => intro k _; exact hd
  | cons p t ih =>
    intro k h
    obtain ⟨a, v⟩ := p
    simp only [List.all_cons, Bool.and_eq_true] at h
    unfold tabAt
    split
    · exact h.1
    · exact ih k h.2

/-! ### Registers, events and time -/

/-- The memories are the same and the registers rise: the canonical form stays. -/
theorem State.canonical_of_same {s t : State} (h : s.canonical = true) (hr : tabRising 0 t.regs = true) (h1 : t.landing = s.landing)
    (h2 : t.mram = s.mram) (h3 : t.keep = s.keep) (h4 : t.cleMem = s.cleMem) (h5 : t.axsMem = s.axsMem) (h6 : t.code = s.code)
    (h7 : t.dmem = s.dmem) : t.canonical = true := by
  simp only [State.canonical, Bool.and_eq_true] at *
  rw [h1, h2, h3, h4, h5, h6, h7]
  exact ⟨⟨⟨⟨⟨⟨⟨hr, h.1.1.1.1.1.1.2⟩, h.1.1.1.1.1.2⟩, h.1.1.1.1.2⟩, h.1.1.1.2⟩, h.1.1.2⟩, h.1.2⟩, h.2⟩

theorem State.regs_of_canonical {s : State} (h : s.canonical = true) : tabRising 0 s.regs = true := by
  simp only [State.canonical, Bool.and_eq_true] at h
  exact h.1.1.1.1.1.1.1

theorem State.canonical_wr {s : State} (f : Field) (v i j : Nat) (h : s.canonical = true) : (s.wr f v i j).canonical = true :=
  State.canonical_of_same h (tabRising_tabPut _ _ (State.regs_of_canonical h)) rfl rfl rfl rfl rfl rfl rfl

theorem State.canonical_wrB {s : State} (f : Field) (b : Bool) (i j : Nat) (h : s.canonical = true) : (s.wrB f b i j).canonical = true :=
  State.canonical_wr _ _ _ _ h

theorem State.canonical_inc {s : State} (f : Field) (i j n : Nat) (h : s.canonical = true) : (s.inc f i j n).canonical = true :=
  State.canonical_wr _ _ _ _ h

theorem State.canonical_setBitOf {s : State} (f : Field) (b i : Nat) (h : s.canonical = true) : (s.setBitOf f b i).canonical = true :=
  State.canonical_wr _ _ _ _ h

theorem State.canonical_tly {s : State} (x : TlySt) (h : s.canonical = true) : ({ s with tly := x } : State).canonical = true := h
theorem State.canonical_hif {s : State} (x : HifSt) (h : s.canonical = true) : ({ s with hif := x } : State).canonical = true := h
theorem State.canonical_lnd {s : State} (x : LndSt) (h : s.canonical = true) : ({ s with lnd := x } : State).canonical = true := h

theorem State.canonical_raise {s : State} (n : Nat) (h : s.canonical = true) : (s.raise n).canonical = true := by
  unfold State.raise
  dsimp only
  repeat' split
  · exact h
  · exact State.canonical_setBitOf _ _ _ h
  · exact State.canonical_hif _ (State.canonical_setBitOf _ _ _ h)

theorem State.canonical_setSticky {s : State} (n : Nat) (f : Field) (i : Nat) (h : s.canonical = true) : (s.setSticky n f i).canonical = true := by
  unfold State.setSticky
  split
  · exact h
  · exact State.canonical_raise _ (State.canonical_wrB _ _ _ _ h)

theorem State.canonical_setSummary {s : State} (n : Nat) (f : Field) (b i : Nat) (h : s.canonical = true) :
    (s.setSummary n f b i).canonical = true := by
  unfold State.setSummary
  split
  · exact h
  · exact State.canonical_raise _ (State.canonical_setBitOf _ _ _ h)

theorem State.canonical_tallyEvent {s : State} (e : TlyEvent) (h : s.canonical = true) : (s.tallyEvent e).canonical = true := by
  have key : ∀ u : State, u.canonical = true →
      (if u.tly.queue.length < 64 then { u with tly := { u.tly with queue := u.tly.queue ++ [e] } }
        else
          let s1 := (u.setSticky 13 Reg.TLY_STAT_QLOST).inc Reg.TLY_QCNT_LOST
          { s1 with tly := { s1.tly with lostNew := s1.tly.lostNew + 1 } } : State).canonical = true := by
    intro u hu
    split
    · exact State.canonical_tly _ hu
    · exact State.canonical_tly _ (State.canonical_inc _ _ _ _ (State.canonical_setSticky 13 Reg.TLY_STAT_QLOST 0 hu))
  unfold State.tallyEvent
  split
  · exact key _ (State.canonical_tly _ h)
  · exact key _ h

theorem State.canonical_tally {s : State} (c o k v b : Nat) (h : s.canonical = true) : (s.tally c o k v b).canonical = true :=
  State.canonical_tallyEvent _ h

theorem State.canonical_tallyLoc {s : State} (c l d b : Nat) (h : s.canonical = true) : (s.tallyLoc c l d b).canonical = true :=
  State.canonical_tallyEvent _ h

theorem State.canonical_tallyOther {s : State} (n o : Nat) (off : Option Nat) (b : Nat) (h : s.canonical = true) :
    (s.tallyOther n o off b).canonical = true :=
  State.canonical_tally _ _ _ _ _ h

theorem State.canonical_over {α : Type} (l : List α) (f : α → State → State) (hf : ∀ x u, u.canonical = true → (f x u).canonical = true) :
    ∀ s : State, s.canonical = true → (s.over l f).canonical = true := by
  induction l with
  | nil => intro s h; exact h
  | cons x l ih => intro s h; exact ih _ (hf x s h)

theorem State.edgesFlat_canonical {s : State} (m : Nat) (h : s.canonical = true) : (s.edgesFlat m).canonical = true := by
  unfold State.edgesFlat
  dsimp only
  split
  · exact State.canonical_wrB _ _ _ _ (State.canonical_wrB _ _ _ _ (State.canonical_wrB _ _ _ _ (State.canonical_wr _ _ _ _ h)))
  · exact State.canonical_wrB _ _ _ _ (State.canonical_wrB _ _ _ _ (State.canonical_wr _ _ _ _ h))

theorem State.edges_canonical {s : State} (m : Nat) (h : s.canonical = true) : (s.edges m).canonical = true := by
  unfold State.edges
  split
  · split
    · exact State.edgesFlat_canonical _ (State.edgesFlat_canonical _ h)
    · exact State.edgesFlat_canonical _ h
  · exact State.edgesFlat_canonical _ h

theorem State.advanceEdge_canonical {s : State} (e : Nat) (h : s.canonical = true) : (s.advanceEdge e).canonical = true :=
  State.edges_canonical _ h

theorem State.advanceTo_canonical {s : State} (due : Nat) (h : s.canonical = true) : (s.advanceTo due).canonical = true := by
  unfold State.advanceTo
  split
  · exact h
  · dsimp only
    split
    · split
      · exact State.edgesFlat_canonical _ (State.edgesFlat_canonical _ h)
      · exact State.edgesFlat_canonical _ h
    · exact State.edgesFlat_canonical _ h

/-! ### Memories -/

theorem State.mem_wf {s : State} (id : MemId) (h : s.canonical = true) : (s.mem id).wf = true := by
  simp only [State.canonical, Bool.and_eq_true] at h
  cases id with
  | land => exact h.1.1.1.1.1.1.2
  | mram => exact h.1.1.1.1.1.2
  | keep => exact h.1.1.1.1.2
  | cle => exact h.1.1.1.2
  | axs => exact h.1.1.2
  | code e => exact tabAt_all Mem.wf Mem.wf_empty s.code e h.1.2
  | data e => exact tabAt_all Mem.wf Mem.wf_empty s.dmem e h.2

theorem State.canonical_setMem {s : State} (id : MemId) {m : Mem} (hm : m.wf = true) (h : s.canonical = true) :
    (s.setMem id m).canonical = true := by
  simp only [State.canonical, Bool.and_eq_true] at h
  cases id with
  | code e =>
    have := tabPut_all (d := ({} : Mem)) Mem.wf e m hm h.1.2
    simp only [State.canonical, State.setMem, Bool.and_eq_true]
    exact ⟨⟨h.1.1, this⟩, h.2⟩
  | data e =>
    have := tabPut_all (d := ({} : Mem)) Mem.wf e m hm h.2
    simp only [State.canonical, State.setMem, Bool.and_eq_true]
    exact ⟨h.1, this⟩
  | _ => simp only [State.canonical, State.setMem, Bool.and_eq_true, hm, h, and_self]

theorem State.canonical_putCw {s : State} (id : MemId) (w : Nat) (c : Cw) (h : s.canonical = true) : (s.putCw id w c).canonical = true := by
  unfold State.putCw
  split
  · exact State.canonical_setMem .land (Mem.wf_put _ _ (Mem.wf_put _ _ (State.mem_wf .land h))) h
  · exact State.canonical_setMem _ (Mem.wf_put w c (State.mem_wf _ h)) h

theorem State.canonical_countEngine {s : State} (id : MemId) (h : s.canonical = true) : (s.countEngine id).canonical = true := by
  unfold State.countEngine
  split
  · exact State.canonical_inc _ _ _ _ h
  · exact State.canonical_inc _ _ _ _ h
  · exact h

theorem State.canonical_writeBack {s : State} (id : MemId) (w : Nat) (c : Cw) (h : s.canonical = true) : (s.writeBack id w c).canonical = true :=
  State.canonical_putCw id w c h

theorem State.canonical_showElog {s : State} (h : s.canonical = true) : s.showElog.canonical = true := by
  unfold State.showElog
  dsimp only
  split
  · exact State.canonical_wr _ _ _ _ (State.canonical_wr _ _ _ _ (State.canonical_wr _ _ _ _ (State.canonical_wr _ _ _ _
      (State.canonical_wr _ _ _ _ (State.canonical_wr _ _ _ _ h)))))
  · exact State.canonical_wr _ _ _ _ (State.canonical_wr _ _ _ _ (State.canonical_wr _ _ _ _ (State.canonical_wr _ _ _ _
      (State.canonical_wr _ _ _ _ (State.canonical_wr _ _ _ _ h)))))

theorem State.canonical_logErr {s : State} (c p l : Nat) (h : s.canonical = true) : (s.logErr c p l).canonical = true := by
  have ht := State.canonical_tallyLoc (0x0800 + c) l p 0 h
  unfold State.logErr
  dsimp only
  generalize s.tallyLoc (0x0800 + c) l p = u at *
  split
  · exact State.canonical_showElog (State.canonical_lnd _ ht)
  · exact State.canonical_setSticky _ _ _ ht

theorem State.canonical_rptSet {s : State} (e : RptEntry) (h : s.canonical = true) : (s.rptSet e).canonical = true := State.canonical_lnd _ h

theorem State.canonical_rptRoom {s t : State} (hr : s.rptRoom = some t) (h : s.canonical = true) : t.canonical = true := by
  unfold State.rptRoom at hr
  split at hr
  · cases hr; exact h
  · split at hr
    · cases hr; exact State.canonical_lnd _ h
    · cases hr

theorem State.canonical_rptWatch {s : State} (id : MemId) (w : Nat) (h : s.canonical = true) : (s.rptWatch id w).canonical = true := by
  unfold State.rptWatch
  split
  · exact State.canonical_rptSet _ h
  · split
    · rename_i hr
      exact State.canonical_rptSet _ (State.canonical_rptRoom hr h)
    · exact State.canonical_setSticky _ _ _ h

theorem State.canonical_countHard {s : State} (id : MemId) (w : Nat) (h : s.canonical = true) : (s.countHard id w).canonical = true := by
  have := State.canonical_setSticky 8 Reg.LND_ESTAT_HARD 0 (State.canonical_inc Reg.LND_ECNTH_CNT 0 0 1 h)
  unfold State.countHard
  cases id with
  | land => exact State.canonical_inc _ _ _ _ this
  | _ => exact this

theorem State.canonical_repeatRewriteAt {s : State} (id : MemId) (w p : Nat) (c : Cw) (cell : Option Nat) (h : s.canonical = true) :
    (s.repeatRewriteAt id w p c cell).canonical = true :=
  State.canonical_logErr _ _ _ (State.canonical_rptWatch _ _ (State.canonical_writeBack _ _ _ h))

theorem State.canonical_onCe1 {s : State} (id : MemId) (w p cell : Nat) (c : Cw) (scrub : Bool) (h : s.canonical = true) :
    (s.onCe1 id w p cell c scrub).canonical = true := by
  have h0 := State.canonical_countEngine id (State.canonical_inc Reg.LND_ECNT1_CNT 0 0 1 h)
  unfold State.onCe1
  dsimp only
  generalize (s.inc Reg.LND_ECNT1_CNT).countEngine id = u at *
  split
  · split
    · exact State.canonical_logErr _ _ _ (State.canonical_countHard _ _ (State.canonical_writeBack _ _ _ h0))
    · rename_i e _ _
      have h1 := State.canonical_rptSet { e with count := e.count + 1 } h0
      split
      · exact State.canonical_repeatRewriteAt _ _ _ _ _ h1
      · split
        · exact State.canonical_rptWatch _ _ (State.canonical_writeBack _ _ _ h1)
        · exact h1
  · split
    · rename_i s1 hr
      have h1 := State.canonical_rptSet ⟨id, w, 1, false, s1.lnd.pass, s1.lnd.filterOrder⟩ (State.canonical_rptRoom hr h0)
      split
      · exact State.canonical_repeatRewriteAt _ _ _ _ _ h1
      · split
        · exact State.canonical_rptWatch _ _ (State.canonical_writeBack _ _ _ h1)
        · exact h1
    · have h1 := State.canonical_setSticky 8 Reg.LND_ESTAT_RPTOVF 0 h0
      split
      · exact State.canonical_writeBack _ _ _ h1
      · exact h1

theorem State.canonical_onCe2 {s : State} (id : MemId) (w p : Nat) (c : Cw) (h : s.canonical = true) : (s.onCe2 id w p c).canonical = true := by
  have h0 := State.canonical_logErr 1 p (cwLocator id w none) (State.canonical_writeBack id w c
    (State.canonical_setSticky 8 Reg.LND_ESTAT_CE2 0 (State.canonical_countEngine id (State.canonical_inc Reg.LND_ECNT2_CNT 0 0 1 h))))
  unfold State.onCe2
  dsimp only
  generalize State.logErr _ _ _ _ = u at *
  split
  · split
    · exact State.canonical_logErr _ _ _ (State.canonical_countHard _ _ h0)
    · exact State.canonical_rptWatch _ _ h0
  · exact State.canonical_rptWatch _ _ h0

theorem State.canonical_onUe {s : State} (id : MemId) (w p : Nat) (c : Cw) (h : s.canonical = true) : (s.onUe id w p c).canonical = true := by
  have h0 := State.canonical_logErr 2 p (cwLocator id w none) (State.canonical_writeBack id w c
    (State.canonical_setSticky 8 Reg.LND_ESTAT_UE 0 (State.canonical_inc Reg.LND_ECNTU_CNT 0 0 1 h)))
  unfold State.onUe
  dsimp only
  generalize State.logErr _ _ _ _ = u at *
  split
  · split
    · exact State.canonical_inc _ _ _ _ h0
    · exact h0
  · exact h0

/-- A read of a codeword. -/
theorem State.canonical_readCw {s : State} (id : MemId) (w p : Nat) (scrub : Bool) (h : s.canonical = true) :
    (s.readCw id w p scrub).2.canonical = true := by
  unfold State.readCw
  split
  · exact h
  · exact State.canonical_onCe1 _ _ _ _ _ _ h
  · exact State.canonical_onCe2 _ _ _ _ h
  · exact State.canonical_onUe _ _ _ _ h

/-- A write to a codeword. -/
theorem State.canonical_writeCw {s : State} (id : MemId) (w p : Nat) (mask : BitVec 8) (d : DWord) (psn : Bool) (h : s.canonical = true) :
    (s.writeCw id w p mask d psn).canonical = true := by
  unfold State.writeCw
  split
  · exact State.canonical_putCw _ _ _ h
  · have h1 := State.canonical_readCw id w p false h
    generalize s.readCw id w p = r at *
    obtain ⟨c, s1⟩ := r
    have h2 := State.canonical_putCw id w ⟨mergeBytes mask c.data d, c.poison || psn⟩ h1
    dsimp only at h2 ⊢
    split
    · exact State.canonical_logErr _ _ _ (State.canonical_setSticky _ _ _ h2)
    · exact h2

/-! ### Accesses to the Landing -/

theorem State.canonical_noteOor {s : State} (h : s.canonical = true) : s.noteOor.canonical = true := by
  unfold State.noteOor
  split
  · exact h
  · exact State.canonical_tallyOther _ _ _ _ (State.canonical_setSticky _ _ _ h)

theorem State.canonical_noteRetired {s : State} (p o n : Nat) (h : s.canonical = true) : (s.noteRetired p o n).canonical = true := by
  unfold State.noteRetired
  dsimp only
  split
  · exact h
  · refine State.canonical_over _ _ (fun q u hu => ?_) _ (State.canonical_inc _ _ _ _ h)
    split
    · exact hu
    · exact State.canonical_lnd _ (State.canonical_logErr _ _ _ (State.canonical_setSticky _ _ _ hu))

theorem State.canonical_noteDirty {s : State} (o : Nat) (h : s.canonical = true) : (s.noteDirty o).canonical = true := by
  unfold State.noteDirty
  split
  · exact State.canonical_lnd _ h
  · exact h

theorem State.canonical_noteLoaded {s : State} (o : Nat) (h : s.canonical = true) : (s.noteLoaded o).canonical = true := by
  unfold State.noteLoaded
  dsimp only
  split <;> exact h

theorem State.canonical_cwReadNow {s : State} (p o : Nat) (h : s.canonical = true) : (s.cwReadNow p o).2.canonical = true := by
  unfold State.cwReadNow
  split
  · exact State.canonical_noteOor h
  · split
    · exact h
    · exact State.canonical_readCw _ _ _ _ h

theorem State.canonical_cwWriteNow {s : State} (p o : Nat) (mask : BitVec 8) (d : DWord) (psn : Bool) (h : s.canonical = true) :
    (s.cwWriteNow p o mask d psn).canonical = true := by
  unfold State.cwWriteNow
  split
  · exact State.canonical_noteOor h
  · split
    · exact h
    · exact State.canonical_writeCw _ _ _ _ _ _ (State.canonical_noteLoaded _ (State.canonical_noteDirty _ h))

theorem State.canonical_cwModifyNow {s : State} (p o : Nat) (f : DWord → DWord) (h : s.canonical = true) :
    (s.cwModifyNow p o f).canonical = true := by
  unfold State.cwModifyNow
  split
  · exact State.canonical_noteOor h
  · split
    · exact h
    · have h1 := State.canonical_readCw .land (s.lndCw o) p false h
      dsimp only
      generalize s.readCw .land (s.lndCw o) p = r at *
      obtain ⟨c, s1⟩ := r
      have h2 := State.canonical_noteLoaded o (State.canonical_noteDirty o (State.canonical_putCw .land (s.lndCw o) ⟨f c.data, c.poison⟩ h1))
      dsimp only
      split
      · exact State.canonical_logErr _ _ _ (State.canonical_setSticky _ _ _ h2)
      · exact h2

theorem State.canonical_lndUpset {s : State} (o : Nat) (u : BitVec 80) (h : s.canonical = true) : (s.lndUpset o u).canonical = true := by
  unfold State.lndUpset
  split
  · exact State.canonical_setMem .land (Mem.wf_upset _ _ (State.mem_wf .land h)) h
  · exact h

theorem State.canonical_lndPerform {s : State} (r : LndReq) (h : s.canonical = true) : (s.lndPerform r).canonical = true := by
  have h0 := State.canonical_noteRetired r.port (r.off / 8 * 8) 8 h
  unfold State.lndPerform
  dsimp only
  generalize s.noteRetired r.port (r.off / 8 * 8) 8 = v at h0 ⊢
  split
  · rename_i u _
    have h1 := State.canonical_cwReadNow r.port (r.off / 8 * 8) (State.canonical_lndUpset (r.off / 8 * 8) u h0)
    generalize (v.lndUpset (r.off / 8 * 8) u).cwReadNow r.port (r.off / 8 * 8) = x at h1 ⊢
    exact State.canonical_lnd _ h1
  · exact State.canonical_cwWriteNow _ _ _ _ _ h0
  · exact State.canonical_cwModifyNow _ _ _ h0

theorem State.canonical_lndServe {s : State} (p : LndWait → Bool) (h : s.canonical = true) : (s.lndServe p).canonical = true := by
  unfold State.lndServe
  split
  · exact State.canonical_over _ _ (fun _ _ hu => State.canonical_lndPerform _ hu) _ (State.canonical_lnd _ h)
  · exact h

theorem State.canonical_lndCwRead {s : State} (p o : Nat) (h : s.canonical = true) : (s.lndCwRead p o).2.canonical = true :=
  State.canonical_cwReadNow _ _ (State.canonical_lndServe _ h)

theorem State.canonical_lndCwWrite {s : State} (p o : Nat) (mask : BitVec 8) (d : DWord) (psn : Bool) (h : s.canonical = true) :
    (s.lndCwWrite p o mask d psn).canonical = true :=
  State.canonical_cwWriteNow _ _ _ _ _ (State.canonical_lndServe _ h)

theorem State.canonical_readSeq (p n : Nat) : ∀ (o : Nat) (s : State), s.canonical = true → (State.readSeq p o n s).2.canonical = true := by
  induction n with
  | zero => intro o s h; exact h
  | succ n ih =>
    intro o s h
    have h1 := State.canonical_lndCwRead p o h
    unfold State.readSeq
    generalize s.lndCwRead p o = r at *
    exact ih _ _ h1

theorem State.canonical_lndRead {s : State} (p o n : Nat) (h : s.canonical = true) : (s.lndRead p o n).2.canonical = true :=
  State.canonical_readSeq _ _ _ _ (State.canonical_noteRetired _ _ _ h)

theorem State.canonical_lndBytes {s : State} (p o n : Nat) (h : s.canonical = true) : (s.lndBytes p o n).2.canonical = true := by
  have h1 := State.canonical_readSeq p ((o % 8 + n + 7) / 8) (o / 8 * 8) _ (State.canonical_noteRetired p o n h)
  unfold State.lndBytes
  dsimp only
  generalize State.readSeq p (o / 8 * 8) ((o % 8 + n + 7) / 8) (s.noteRetired p o n) = x at h1 ⊢
  exact h1

theorem State.canonical_lndWord {s : State} (p o : Nat) (h : s.canonical = true) : (s.lndWord p o).2.canonical = true := by
  have h1 := State.canonical_lndBytes p o 4 h
  unfold State.lndWord
  generalize s.lndBytes p o 4 = x at h1 ⊢
  obtain ⟨⟨b, q⟩, t⟩ := x
  exact h1

theorem State.canonical_writeSeq (p : Nat) (psn : Bool) (n : Nat) : ∀ (o : Nat) (l : List Byte) (s : State), s.canonical = true →
    (State.writeSeq p psn n o l s).canonical = true := by
  induction n with
  | zero => intro o l s h; exact h
  | succ n ih =>
    intro o l s h
    unfold State.writeSeq
    split
    · exact h
    · exact ih _ _ _ (State.canonical_lndCwWrite _ _ _ _ _ h)

theorem State.canonical_lndWrite {s : State} (p o : Nat) (l : List Byte) (psn : Bool) (h : s.canonical = true) :
    (s.lndWrite p o l psn).canonical = true := by
  unfold State.lndWrite
  split
  · exact h
  · exact State.canonical_writeSeq _ _ _ _ _ _ (State.canonical_noteRetired _ _ _ h)

theorem State.canonical_lndWriteCws {s : State} (p o : Nat) (l : List Cw) (h : s.canonical = true) : (s.lndWriteCws p o l).canonical = true := by
  have key : ∀ (q : List (Nat × Cw)) (u : State), u.canonical = true →
      (q.foldl (fun a ic => a.lndCwWrite p (o + 8 * ic.1) 0xFF#8 ic.2.data ic.2.poison) u).canonical = true := by
    intro q
    induction q with
    | nil => intro u hu; exact hu
    | cons x q ih => intro u hu; exact ih _ (State.canonical_lndCwWrite _ _ _ _ _ hu)
  unfold State.lndWriteCws
  split
  · exact h
  · exact key _ _ (State.canonical_noteRetired _ _ _ h)

theorem State.canonical_lndMerge32 {s : State} (p o mask v : Nat) (h : s.canonical = true) : (s.lndMerge32 p o mask v).canonical = true := by
  have h1 : ((s.noteRetired p o 4).inOrder p (o / 8 * 8)).canonical = true :=
    State.canonical_lndServe _ (State.canonical_noteRetired p o 4 h)
  unfold State.lndMerge32
  dsimp only
  generalize (s.noteRetired p o 4).inOrder p (o / 8 * 8) = u at h1 ⊢
  exact State.canonical_cwModifyNow p (o / 8 * 8) _ h1

/-! ### The MRAM -/

theorem State.canonical_mramPut {s : State} (off : Nat) (l : List Byte) (h : s.canonical = true) : (s.mramPut off l).canonical = true := by
  have key : ∀ (q : List Nat) (u : State), u.canonical = true →
      (q.foldl (fun a i => a.writeCw .mram (off / 8 + i) 7 0xFF#8 (BitVec.ofNat 64 (leNat ((l.drop (8 * i)).take 8))) false) u).canonical = true := by
    intro q
    induction q with
    | nil => intro u hu; exact hu
    | cons x q ih => intro u hu; exact ih _ (State.canonical_writeCw _ _ _ _ _ _ hu)
  exact key _ _ h

theorem State.canonical_mramGet {s : State} (off n : Nat) (h : s.canonical = true) : (s.mramGet off n).2.canonical = true := by
  have key : ∀ (q : List Nat) (a : (List Byte × Bool) × State), a.2.canonical = true →
      (q.foldl (fun (acc : (List Byte × Bool) × State) i =>
        let (c, s1) := acc.2.readCw .mram (off / 8 + i) 7
        ((acc.1.1 ++ leBytes 8 c.data.toNat, acc.1.2 || c.poison), s1)) a).2.canonical = true := by
    intro q
    induction q with
    | nil => intro a ha; exact ha
    | cons x q ih => intro a ha; exact ih _ (State.canonical_readCw _ _ _ _ ha)
  exact key _ _ h

end Sys2Proof.Machine
end

