-- ==== Sys2Proof/Laws/Crc.lean ====
section
/-! SUPPORT. CRC-32C over long byte strings: the same fold, each byte's value forced before the next, which the kernel can run. -/
namespace Sys2Proof.Machine

/-- Apply a function to a number that has been computed. -/
def forced (f : Nat → Nat) (n : Nat) : Nat := Nat.casesOn n (f 0) fun k => f (k + 1)

theorem forced_eq (f : Nat → Nat) (n : Nat) : forced f n = f n := by cases n <;> rfl

/-- The fold of `crc32c`, byte by byte. -/
def crcRun (poly : Nat) : List Byte → Nat → Nat
  | [], c => c
  | b :: l, c => forced (crcRun poly l) (crcByte poly c b)

theorem crcRun_eq_fold (poly : Nat) (l : List Byte) : ∀ c, crcRun poly l c = l.foldl (crcByte poly) c := by
  induction l with
  | nil => intro c; rfl
  | cons b l ih => intro c; unfold crcRun; rw [forced_eq, ih]; rfl

theorem crc32c_eq_run (l : List Byte) : crc32c l = Nat.xor (crcRun 0x82F63B78 l 0xFFFFFFFF) 0xFFFFFFFF := by
  rw [crcRun_eq_fold]; rfl

end Sys2Proof.Machine
end

