-- ==== Sys2Proof/Laws/Engine.lean ====
section
/-! SUPPORT. The task engines: issuing an instruction, the registers of a context, taking an exception. -/
namespace Sys2Proof.Machine

/-- A ready instruction has its own effect on the settled state. -/
theorem State.issue_ready {s : State} {e : Fin 8} {i : Instr} (uses : List Nat) (body : CtxSt → State → State) (h : Ready s e i) :
    s.issue e i uses body = body (s.settledCtx e uses) (s.settled e uses) := by
  obtain ⟨h1, h2, h3, h4, hp, h5⟩ := h
  have hc : s.codeCw e ((s.eng e).ctx.pc.toNat / 8) = ((((s.mem (.code e)).decode ((s.eng e).ctx.pc.toNat / 8)).1, false), s) := by
    unfold State.codeCw
    split
    · rename_i c hd; rw [hd] at hp ⊢; rw [show c.poison = false from hp]
    · rename_i c hd; rw [hd] at h4; cases h4
    · rename_i c k hk hu hd; rw [hd] at h4; exact absurd h4 (by simpa using hk)
  unfold State.issue
  rw [h1, h2, h3]
  dsimp only [Bool.not_true, Bool.or_false]
  rw [if_neg (by decide), if_neg (by decide), hc]
  dsimp only
  rw [h5]
  dsimp only
  rw [if_pos rfl]
  rfl

/-- An engine that runs no task, or waits at a fence, issues nothing. -/
theorem State.issue_idle {s : State} {e : Fin 8} (i : Instr) (uses : List Nat) (body : CtxSt → State → State)
    (h : (s.eng e).busy = false ∨ (s.eng e).fence = true) : s.issue e i uses body = s := by
  unfold State.issue
  rw [if_pos]
  rcases h with h | h <;> simp [h]

/-! ### Registers -/

@[simp] theorem CtxSt.greg_zero (c : CtxSt) : c.greg 0 = 0#32 := rfl
@[simp] theorem CtxSt.tag_zero (c : CtxSt) : c.tag 0 = false := rfl
@[simp] theorem CtxSt.setG_zero (c : CtxSt) (v : Word) (b : Bool) : c.setG 0 v b = c := rfl
@[simp] theorem CtxSt.setG_pc (c : CtxSt) (r : Nat) (v : Word) (b : Bool) : (c.setG r v b).pc = c.pc := by unfold CtxSt.setG; split <;> rfl

theorem CtxSt.greg_setG (c : CtxSt) (r k : Nat) (v : Word) (b : Bool) :
    (c.setG r v b).greg k = if k = r ∧ r ≠ 0 then v else c.greg k := by
  unfold CtxSt.setG CtxSt.greg
  by_cases hr : r = 0
  · simp [hr]
  · by_cases hk : k = r
    · subst hk; simp [hr]
    · by_cases h0 : k = 0
      · simp [h0, hr]; intro h; exact absurd h.symm hr
      · simp [hr, hk, h0, tabAt_tabPut]

/-- The registers of the task on an engine, once set. -/
@[simp] theorem State.setCtx_eng (s : State) (e : Nat) (c : CtxSt) : (s.setCtx e c).eng e = { s.eng e with ctx := c } :=
  tabAt_tabPut_same _ _ _ _

/-- Another engine keeps its own. -/
theorem State.setCtx_eng_ne (s : State) {e e' : Nat} (c : CtxSt) (h : e' ≠ e) : (s.setCtx e c).eng e' = s.eng e' :=
  tabAt_tabPut_ne _ _ _ _ h

/-! ### Exceptions -/

/-- With a handler that is not running an exception saves pc and cause and enters it, and nothing else of the state changes. -/
theorem State.excAt_handler {s : State} {e : Fin 8} (code role : Nat) (eval : Word) (h : HandlerReady s e) :
    s.excAt e code role eval = s.setCtx e { (s.eng e).ctx with
      epc := (s.eng e).ctx.pc, ecause := BitVec.ofNat 16 (code + 256 * role), eval := eval, inHnd := true
      pc := BitVec.ofNat 32 ((s.task (s.eng e).task).desc.xhnd * 4) } := by
  unfold State.excAt
  dsimp only
  rw [if_pos ⟨h.1, by simp [h.2]⟩]

/-- Without one the cycle is abandoned. -/
theorem State.excAt_abandon {s : State} {e : Fin 8} (code role : Nat) (eval : Word) (h : ¬ HandlerReady s e) :
    s.excAt e code role eval = s.abandon e (s.eng e).task code role (s.eng e).ctx.pc eval := by
  unfold State.excAt
  dsimp only
  rw [if_neg]
  intro hn
  exact h ⟨hn.1, by simpa using hn.2⟩

end Sys2Proof.Machine
end

