-- ==== Sys2Proof/WellFormed.lean ====
section
/-! DEFINITION. Which commands are well formed: the bounds on operands that their types do not say. Every operand of a
command not named here is bounded by its type. The meanings are total and do not rest on this check. -/
namespace Sys2Proof

/-- A Landing request asks for bytes of the Landing (R24): a byte offset below 48 MiB. -/
def LndReq.wf (r : LndReq) : Bool := decide (r.off < 0x3000000)

/-- The data bytes a CAN frame's DLC stands for (R322). -/
def CanFrame.dlcBytes (f : CanFrame) : Nat :=
  if f.dlc.val ≤ 8 then f.dlc.val
  else if f.fdf then [12, 16, 20, 24, 32, 48, 64].getD (f.dlc.val - 9) 64
  else 8

/-- A CAN frame (R322): an 11-bit identifier without XTD, no remote frame and no BRS or ESI out of place, as many data
bytes as the DLC stands for. -/
def CanFrame.wf (f : CanFrame) : Bool :=
  (f.xtd || decide (f.id.toNat < 2 ^ 11)) && !(f.fdf && f.rtr) && (f.fdf || (!f.brs && !f.esi)) &&
    decide (f.data.length = if f.rtr then 0 else f.dlcBytes)

/-- A frame of Ethernet (R299): at most 1,518 bytes without its FCS. -/
def frameWf (frame : List Byte) : Bool := decide (frame.length ≤ 1518)

/-- A frame of a Terha lane (R371): a header of 16 bytes, at most 2,016 of payload, and the CRC. -/
def laneWf (frame : List Byte) : Bool := decide (frame.length ≤ 2036)

/-- The bounds a command's operands keep. -/
def Instr.wf (i : Instr) : Bool :=
  match i with
  | .registerWrite off width _ _ => decide (off < 0x100000) && [1, 2, 4, 8].contains width
  | .landingAccess reqs => reqs.all LndReq.wf
  | .repeatRewrite bank w => decide (bank < 34) && decide (w < 196608)
  | .inputDeadline _ axes => decide (axes ≤ 512)
  | .clePass _ loops => decide (loops ≤ 4096)
  | .conversionResult _ _ codes _ => decide (codes.length ≤ 256)
  | .interleaveBurst _ samples _ => decide (samples.length = 16)
  | .engineFault _ _ w => decide (w < 32768)
  | .engineTestDone _ (some (isData, w)) => decide (w < if isData then 16384 else 32768)
  | .bankTestDone failing => failing.all fun p => decide (p.1 < 196608)
  | .bar2Read off n => decide (off.toNat + n ≤ 2 ^ 26)
  | .bar2Write off data => decide (off.toNat + data.length ≤ 2 ^ 26) && decide (data.length ≤ 4096)
  | .doorbell r _ descs => descs.isEmpty || (decide (2 ≤ r.val) && decide (r.val ≤ 33))
  | .nop raw => decide (raw.toNat % 256 = 0) || decide (6 < raw.toNat % 256)
  | .wr64 raw => decide (raw.toNat % 256 = 1)
  | .mwr32 raw => decide (raw.toNat % 256 = 2)
  | .copyin raw words _ _ => decide (raw.toNat % 256 = 3) && decide (words.length ≤ 131072)
  | .copyout raw failed _ => decide (raw.toNat % 256 = 4) && decide (failed.getD 0 ≤ 131072)
  | .cmdFset raw => decide (raw.toNat % 256 = 5)
  | .cmdPost raw => decide (raw.toNat % 256 = 6)
  | .sideFrameReceive _ frame _ => frameWf frame
  | .hailReceive _ frame _ => frameWf frame
  | .cycleUpReceive _ frame _ => frameWf frame
  | .cycleDownReceive _ frame _ => frameWf frame
  | .canTxEnd _ (.error _ _ _ _ again) _ => decide (again ≤ 8)
  | .canFrameReceive _ f _ _ => f.wf
  | .safetyCycle d => decide (d.counts.length = 24)
  | .claimReceive _ frame => laneWf frame
  | .hoistFrameReceive _ frame _ => laneWf frame
  | .retFrameReceive _ frame _ => laneWf frame
  | .pullReceive _ frame => laneWf frame
  | .passdataReceive _ frame _ => laneWf frame
  | .passStartReceive _ frame => laneWf frame
  | .passRound2Receive _ frame => laneWf frame
  | .passEndReceive _ frame => laneWf frame
  | _ => true

end Sys2Proof
end

