-- ==== Sys2Proof/Laws/PerInstr.lean ====
section
/-! SUPPORT. One lemma per command: a command that is an instruction of a task engine, that is, that has a word, is well
formed (its operands are bounded by their types). -/
namespace Sys2Proof.Laws.Operands
open Sys2Proof Sys2Proof.Machine

/-- A command with an instruction word is well formed. -/
def Statement (i : Instr) : Prop := jvEncode i ≠ none → i.wf = true

theorem registerWrite (off width : Nat) (v same : Word) : Statement (.registerWrite off width v same) := fun h => absurd rfl h
theorem landingAccess (reqs : List LndReq) : Statement (.landingAccess reqs) := fun h => absurd rfl h
theorem requestPromotion (seq : Nat) : Statement (.requestPromotion seq) := fun h => absurd rfl h
theorem repeatRewrite (bank w : Nat) : Statement (.repeatRewrite bank w) := fun h => absurd rfl h
theorem refclkFallback (gap : Nat) (ppm : Int) : Statement (.refclkFallback gap ppm) := fun h => absurd rfl h
theorem refclkLossCritical (gap : Nat) (ppm : Int) : Statement (.refclkLossCritical gap ppm) := fun h => absurd rfl h
theorem refselRequest : Statement (.refselRequest) := fun h => absurd rfl h
theorem refselWithdraw : Statement (.refselWithdraw) := fun h => absurd rfl h
theorem refclkSwitch (good : Nat) : Statement (.refclkSwitch good) := fun h => absurd rfl h
theorem slewWrite (v : Word) : Statement (.slewWrite v) := fun h => absurd rfl h
theorem slewEnd : Statement (.slewEnd) := fun h => absurd rfl h
theorem timeStep : Statement (.timeStep) := fun h => absurd rfl h
theorem timeSnap : Statement (.timeSnap) := fun h => absurd rfl h
theorem ringEnable (n : Fin 8) : Statement (.ringEnable n) := fun h => absurd rfl h
theorem ringDisable (n : Fin 8) : Statement (.ringDisable n) := fun h => absurd rfl h
theorem ringReload (n : Fin 8) : Statement (.ringReload n) := fun h => absurd rfl h
theorem reloadTake (n : Fin 8) : Statement (.reloadTake n) := fun h => absurd rfl h
theorem hoistInstant (n : Fin 8) (dio : BitVec 48) (asleep : BitVec 16) : Statement (.hoistInstant n dio asleep) := fun h => absurd rfl h
theorem inputDeadline (n : Fin 8) (axes : Nat) : Statement (.inputDeadline n axes) := fun h => absurd rfl h
theorem stepTimeAdvance (m : Fin 256) : Statement (.stepTimeAdvance m) := fun h => absurd rfl h
theorem stepTimeout (m : Fin 256) : Statement (.stepTimeout m) := fun h => absurd rfl h
theorem stationDrop (st : Fin 256) : Statement (.stationDrop st) := fun h => absurd rfl h
theorem clePass (n : Fin 8) (loops : Nat) : Statement (.clePass n loops) := fun h => absurd rfl h
theorem passPreempt (n : Fin 8) : Statement (.passPreempt n) := fun h => absurd rfl h
theorem passResume (n : Fin 8) : Statement (.passResume n) := fun h => absurd rfl h
theorem ringSeal (n : Fin 8) : Statement (.ringSeal n) := fun h => absurd rfl h
theorem cleDisable : Statement (.cleDisable) := fun h => absurd rfl h
theorem cleClrmax : Statement (.cleClrmax) := fun h => absurd rfl h
theorem filterCommit (f : Fin 512) : Statement (.filterCommit f) := fun h => absurd rfl h
theorem axisDisable : Statement (.axisDisable) := fun h => absurd rfl h
theorem axisClrmax : Statement (.axisClrmax) := fun h => absurd rfl h
theorem compareEnqueue (u : Fin 64) : Statement (.compareEnqueue u) := fun h => absurd rfl h
theorem captureRelease (u : Fin 64) : Statement (.captureRelease u) := fun h => absurd rfl h
theorem compareFire (u : Fin 64) : Statement (.compareFire u) := fun h => absurd rfl h
theorem pulseEnd (u : Fin 64) : Statement (.pulseEnd u) := fun h => absurd rfl h
theorem captureEdge (u : Fin 64) (level : Bool) : Statement (.captureEdge u level) := fun h => absurd rfl h
theorem captureConfirm (u : Fin 64) : Statement (.captureConfirm u) := fun h => absurd rfl h
theorem feedbackRecordWrite (c : Fin 24) : Statement (.feedbackRecordWrite c) := fun h => absurd rfl h
theorem ssiFrameDone (c : Fin 24) (f : SsiFrame) : Statement (.ssiFrameDone c f) := fun h => absurd rfl h
theorem ssiAbsLoad (c : Fin 24) (f : SsiFrame) : Statement (.ssiAbsLoad c f) := fun h => absurd rfl h
theorem observerUpdate : Statement (.observerUpdate) := fun h => absurd rfl h
theorem standstill (c : Fin 24) : Statement (.standstill c) := fun h => absurd rfl h
theorem observerRestart (c : Fin 24) (psn : Bool) : Statement (.observerRestart c psn) := fun h => absurd rfl h
theorem settlingEnd (c : Fin 24) : Statement (.settlingEnd c) := fun h => absurd rfl h
theorem reversalEnd (c : Fin 24) : Statement (.reversalEnd c) := fun h => absurd rfl h
theorem ampWarnSet (c : Fin 24) (m : BitVec 16) : Statement (.ampWarnSet c m) := fun h => absurd rfl h
theorem ampWarnClear (c : Fin 24) (m : BitVec 16) : Statement (.ampWarnClear c m) := fun h => absurd rfl h
theorem ampFaultSet (c : Fin 24) (m : BitVec 16) : Statement (.ampFaultSet c m) := fun h => absurd rfl h
theorem ampFaultClear (c : Fin 24) (m : BitVec 16) : Statement (.ampFaultClear c m) := fun h => absurd rfl h
theorem lineFault (c : Fin 24) : Statement (.lineFault c) := fun h => absurd rfl h
theorem zArm (c : Fin 24) : Statement (.zArm c) := fun h => absurd rfl h
theorem zMark (c : Fin 24) (stood : Nat) : Statement (.zMark c stood) := fun h => absurd rfl h
theorem fbkClrerr : Statement (.fbkClrerr) := fun h => absurd rfl h
theorem converterWake (n : Fin 16) : Statement (.converterWake n) := fun h => absurd rfl h
theorem conversionResult (n : Fin 16) (j : Fin 8) (codes : List (BitVec 18)) (err : BitVec 80) : Statement (.conversionResult n j codes err) := fun h => absurd rfl h
theorem converterEnable (n : Fin 16) : Statement (.converterEnable n) := fun h => absurd rfl h
theorem referenceWindow (agree : Bool) : Statement (.referenceWindow agree) := fun h => absurd rfl h
theorem interleaveBurst (p : Fin 8) (samples : List (BitVec 18)) (err : BitVec 80) : Statement (.interleaveBurst p samples err) := fun h => absurd rfl h
theorem cnvClrcnt : Statement (.cnvClrcnt) := fun h => absurd rfl h
theorem snapshotComplete (t : Fin 256) : Statement (.snapshotComplete t) := fun h => absurd rfl h
theorem publish (t : Fin 256) (segs : Nat) : Statement (.publish t segs) := fun h => absurd rfl h
theorem programRun : Statement (.programRun) := fun h => absurd rfl h
theorem programStop : Statement (.programStop) := fun h => absurd rfl h
theorem stopComplete : Statement (.stopComplete) := fun h => absurd rfl h
theorem coldRestart : Statement (.coldRestart) := fun h => absurd rfl h
theorem warmRestart : Statement (.warmRestart) := fun h => absurd rfl h
theorem checkpoint : Statement (.checkpoint) := fun h => absurd rfl h
theorem checkpointTimer : Statement (.checkpointTimer) := fun h => absurd rfl h
theorem checkpointGatherTimeout : Statement (.checkpointGatherTimeout) := fun h => absurd rfl h
theorem checkpointCommit : Statement (.checkpointCommit) := fun h => absurd rfl h
theorem forceCommit (f : Fin 1024) : Statement (.forceCommit f) := fun h => absurd rfl h
theorem onlineChangeArm : Statement (.onlineChangeArm) := fun h => absurd rfl h
theorem onlineChangeSwitch : Statement (.onlineChangeSwitch) := fun h => absurd rfl h
theorem onlineChangeTimeout : Statement (.onlineChangeTimeout) := fun h => absurd rfl h
theorem onlineChangeAbort : Statement (.onlineChangeAbort) := fun h => absurd rfl h
theorem dispatch : Statement (.dispatch) := fun h => absurd rfl h
theorem preempt : Statement (.preempt) := fun h => absurd rfl h
theorem eflagSet (t : Fin 256) (mask : Word) : Statement (.eflagSet t mask) := fun h => absurd rfl h
theorem eflagClear (t : Fin 256) (mask : Word) : Statement (.eflagClear t mask) := fun h => absurd rfl h
theorem waitTimeout (t : Fin 256) : Statement (.waitTimeout t) := fun h => absurd rfl h
theorem delayExpiry (t : Fin 256) : Statement (.delayExpiry t) := fun h => absurd rfl h
theorem tickBoundary : Statement (.tickBoundary) := fun h => absurd rfl h
theorem slotFill (e : Fin 8) : Statement (.slotFill e) := fun h => absurd rfl h
theorem engineLeave (e : Fin 8) : Statement (.engineLeave e) := fun h => absurd rfl h
theorem engineFault (e : Fin 8) (cause : Fin 4) (w : Nat) : Statement (.engineFault e cause w) := fun h => absurd rfl h
theorem engineJoin (e : Fin 8) : Statement (.engineJoin e) := fun h => absurd rfl h
theorem engineTestDone (e : Fin 8) (bad : Option (Bool × Nat)) : Statement (.engineTestDone e bad) := fun h => absurd rfl h
theorem enginePoolEntry (e : Fin 8) : Statement (.enginePoolEntry e) := fun h => absurd rfl h
theorem dispatchClrcnt : Statement (.dispatchClrcnt) := fun h => absurd rfl h
theorem loadReturn (e : Fin 8) : Statement (.loadReturn e) := fun h => absurd rfl h
theorem fenceRelease (e : Fin 8) : Statement (.fenceRelease e) := fun h => absurd rfl h
theorem add (e : Fin 8) (rd rs1 rs2 : Fin 32) : Statement (.add e rd rs1 rs2) := fun _ => rfl
theorem sub (e : Fin 8) (rd rs1 rs2 : Fin 32) : Statement (.sub e rd rs1 rs2) := fun _ => rfl
theorem and (e : Fin 8) (rd rs1 rs2 : Fin 32) : Statement (.and e rd rs1 rs2) := fun _ => rfl
theorem or (e : Fin 8) (rd rs1 rs2 : Fin 32) : Statement (.or e rd rs1 rs2) := fun _ => rfl
theorem xor (e : Fin 8) (rd rs1 rs2 : Fin 32) : Statement (.xor e rd rs1 rs2) := fun _ => rfl
theorem shl (e : Fin 8) (rd rs1 rs2 : Fin 32) : Statement (.shl e rd rs1 rs2) := fun _ => rfl
theorem shr (e : Fin 8) (rd rs1 rs2 : Fin 32) : Statement (.shr e rd rs1 rs2) := fun _ => rfl
theorem shra (e : Fin 8) (rd rs1 rs2 : Fin 32) : Statement (.shra e rd rs1 rs2) := fun _ => rfl
theorem cmplt (e : Fin 8) (rd rs1 rs2 : Fin 32) : Statement (.cmplt e rd rs1 rs2) := fun _ => rfl
theorem cmpltu (e : Fin 8) (rd rs1 rs2 : Fin 32) : Statement (.cmpltu e rd rs1 rs2) := fun _ => rfl
theorem mul (e : Fin 8) (rd rs1 rs2 : Fin 32) : Statement (.mul e rd rs1 rs2) := fun _ => rfl
theorem mulhs (e : Fin 8) (rd rs1 rs2 : Fin 32) : Statement (.mulhs e rd rs1 rs2) := fun _ => rfl
theorem mulhu (e : Fin 8) (rd rs1 rs2 : Fin 32) : Statement (.mulhu e rd rs1 rs2) := fun _ => rfl
theorem quo (e : Fin 8) (rd rs1 rs2 : Fin 32) : Statement (.quo e rd rs1 rs2) := fun _ => rfl
theorem quou (e : Fin 8) (rd rs1 rs2 : Fin 32) : Statement (.quou e rd rs1 rs2) := fun _ => rfl
theorem mod (e : Fin 8) (rd rs1 rs2 : Fin 32) : Statement (.mod e rd rs1 rs2) := fun _ => rfl
theorem modu (e : Fin 8) (rd rs1 rs2 : Fin 32) : Statement (.modu e rd rs1 rs2) := fun _ => rfl
theorem min (e : Fin 8) (rd rs1 rs2 : Fin 32) : Statement (.min e rd rs1 rs2) := fun _ => rfl
theorem max (e : Fin 8) (rd rs1 rs2 : Fin 32) : Statement (.max e rd rs1 rs2) := fun _ => rfl
theorem minu (e : Fin 8) (rd rs1 rs2 : Fin 32) : Statement (.minu e rd rs1 rs2) := fun _ => rfl
theorem maxu (e : Fin 8) (rd rs1 rs2 : Fin 32) : Statement (.maxu e rd rs1 rs2) := fun _ => rfl
theorem btst (e : Fin 8) (rd rs1 rs2 : Fin 32) : Statement (.btst e rd rs1 rs2) := fun _ => rfl
theorem bset (e : Fin 8) (rd rs1 rs2 : Fin 32) : Statement (.bset e rd rs1 rs2) := fun _ => rfl
theorem bclr (e : Fin 8) (rd rs1 rs2 : Fin 32) : Statement (.bclr e rd rs1 rs2) := fun _ => rfl
theorem bflip (e : Fin 8) (rd rs1 rs2 : Fin 32) : Statement (.bflip e rd rs1 rs2) := fun _ => rfl
theorem ptst (e : Fin 8) (rd rs1 : Fin 32) : Statement (.ptst e rd rs1) := fun _ => rfl
theorem fadd (e : Fin 8) (rm : Fin 5) (rd rs1 rs2 : Fin 32) : Statement (.fadd e rm rd rs1 rs2) := fun _ => rfl
theorem fsub (e : Fin 8) (rm : Fin 5) (rd rs1 rs2 : Fin 32) : Statement (.fsub e rm rd rs1 rs2) := fun _ => rfl
theorem fmul (e : Fin 8) (rm : Fin 5) (rd rs1 rs2 : Fin 32) : Statement (.fmul e rm rd rs1 rs2) := fun _ => rfl
theorem fdiv (e : Fin 8) (rm : Fin 5) (rd rs1 rs2 : Fin 32) : Statement (.fdiv e rm rd rs1 rs2) := fun _ => rfl
theorem froot (e : Fin 8) (rm : Fin 5) (rd rs1 : Fin 32) : Statement (.froot e rm rd rs1) := fun _ => rfl
theorem flo (e : Fin 8) (rd rs1 rs2 : Fin 32) : Statement (.flo e rd rs1 rs2) := fun _ => rfl
theorem fhi (e : Fin 8) (rd rs1 rs2 : Fin 32) : Statement (.fhi e rd rs1 rs2) := fun _ => rfl
theorem fcmpeq (e : Fin 8) (rd rs1 rs2 : Fin 32) : Statement (.fcmpeq e rd rs1 rs2) := fun _ => rfl
theorem fcmplt (e : Fin 8) (rd rs1 rs2 : Fin 32) : Statement (.fcmplt e rd rs1 rs2) := fun _ => rfl
theorem fcmple (e : Fin 8) (rd rs1 rs2 : Fin 32) : Statement (.fcmple e rd rs1 rs2) := fun _ => rfl
theorem ftoi (e : Fin 8) (rm : Fin 5) (rd rs1 : Fin 32) : Statement (.ftoi e rm rd rs1) := fun _ => rfl
theorem ftoiu (e : Fin 8) (rm : Fin 5) (rd rs1 : Fin 32) : Statement (.ftoiu e rm rd rs1) := fun _ => rfl
theorem itof (e : Fin 8) (rm : Fin 5) (rd rs1 : Fin 32) : Statement (.itof e rm rd rs1) := fun _ => rfl
theorem utof (e : Fin 8) (rm : Fin 5) (rd rs1 : Fin 32) : Statement (.utof e rm rd rs1) := fun _ => rfl
theorem fcpys (e : Fin 8) (rd rs1 rs2 : Fin 32) : Statement (.fcpys e rd rs1 rs2) := fun _ => rfl
theorem fnegs (e : Fin 8) (rd rs1 rs2 : Fin 32) : Statement (.fnegs e rd rs1 rs2) := fun _ => rfl
theorem fxors (e : Fin 8) (rd rs1 rs2 : Fin 32) : Statement (.fxors e rd rs1 rs2) := fun _ => rfl
theorem fkind (e : Fin 8) (rd rs1 : Fin 32) : Statement (.fkind e rd rs1) := fun _ => rfl
theorem fmac (e : Fin 8) (rd rs1 rs2 rs3 : Fin 32) : Statement (.fmac e rd rs1 rs2 rs3) := fun _ => rfl
theorem fmsb (e : Fin 8) (rd rs1 rs2 rs3 : Fin 32) : Statement (.fmsb e rd rs1 rs2 rs3) := fun _ => rfl
theorem fnmac (e : Fin 8) (rd rs1 rs2 rs3 : Fin 32) : Statement (.fnmac e rd rs1 rs2 rs3) := fun _ => rfl
theorem fnmsb (e : Fin 8) (rd rs1 rs2 rs3 : Fin 32) : Statement (.fnmsb e rd rs1 rs2 rs3) := fun _ => rfl
theorem addk (e : Fin 8) (rd rs1 : Fin 32) (imm : BitVec 16) : Statement (.addk e rd rs1 imm) := fun _ => rfl
theorem andk (e : Fin 8) (rd rs1 : Fin 32) (imm : BitVec 16) : Statement (.andk e rd rs1 imm) := fun _ => rfl
theorem ork (e : Fin 8) (rd rs1 : Fin 32) (imm : BitVec 16) : Statement (.ork e rd rs1 imm) := fun _ => rfl
theorem xork (e : Fin 8) (rd rs1 : Fin 32) (imm : BitVec 16) : Statement (.xork e rd rs1 imm) := fun _ => rfl
theorem cmpltk (e : Fin 8) (rd rs1 : Fin 32) (imm : BitVec 16) : Statement (.cmpltk e rd rs1 imm) := fun _ => rfl
theorem cmpltuk (e : Fin 8) (rd rs1 : Fin 32) (imm : BitVec 16) : Statement (.cmpltuk e rd rs1 imm) := fun _ => rfl
theorem shkShl (e : Fin 8) (rd rs1 : Fin 32) (sh : BitVec 5) : Statement (.shkShl e rd rs1 sh) := fun _ => rfl
theorem shkShr (e : Fin 8) (rd rs1 : Fin 32) (sh : BitVec 5) : Statement (.shkShr e rd rs1 sh) := fun _ => rfl
theorem shkShra (e : Fin 8) (rd rs1 : Fin 32) (sh : BitVec 5) : Statement (.shkShra e rd rs1 sh) := fun _ => rfl
theorem hik (e : Fin 8) (rd : Fin 32) (imm : BitVec 16) : Statement (.hik e rd imm) := fun _ => rfl
theorem go (e : Fin 8) (imm : BitVec 26) : Statement (.go e imm) := fun _ => rfl
theorem call (e : Fin 8) (imm : BitVec 26) : Statement (.call e imm) := fun _ => rfl
theorem gor (e : Fin 8) (rd rs1 : Fin 32) (imm : BitVec 16) : Statement (.gor e rd rs1 imm) := fun _ => rfl
theorem breq (e : Fin 8) (rs1 rs2 : Fin 32) (imm : BitVec 16) : Statement (.breq e rs1 rs2 imm) := fun _ => rfl
theorem brne (e : Fin 8) (rs1 rs2 : Fin 32) (imm : BitVec 16) : Statement (.brne e rs1 rs2 imm) := fun _ => rfl
theorem brlt (e : Fin 8) (rs1 rs2 : Fin 32) (imm : BitVec 16) : Statement (.brlt e rs1 rs2 imm) := fun _ => rfl
theorem brge (e : Fin 8) (rs1 rs2 : Fin 32) (imm : BitVec 16) : Statement (.brge e rs1 rs2 imm) := fun _ => rfl
theorem brltu (e : Fin 8) (rs1 rs2 : Fin 32) (imm : BitVec 16) : Statement (.brltu e rs1 rs2 imm) := fun _ => rfl
theorem brgeu (e : Fin 8) (rs1 rs2 : Fin 32) (imm : BitVec 16) : Statement (.brgeu e rs1 rs2 imm) := fun _ => rfl
theorem getc (e : Fin 8) (rd : Fin 32) (imm : BitVec 16) : Statement (.getc e rd imm) := fun _ => rfl
theorem putc (e : Fin 8) (imm : BitVec 16) (rs1 : Fin 32) : Statement (.putc e imm rs1) := fun _ => rfl
theorem ldb (e : Fin 8) (rd rs1 : Fin 32) (imm : BitVec 16) : Statement (.ldb e rd rs1 imm) := fun _ => rfl
theorem ldbu (e : Fin 8) (rd rs1 : Fin 32) (imm : BitVec 16) : Statement (.ldbu e rd rs1 imm) := fun _ => rfl
theorem ldh (e : Fin 8) (rd rs1 : Fin 32) (imm : BitVec 16) : Statement (.ldh e rd rs1 imm) := fun _ => rfl
theorem ldhu (e : Fin 8) (rd rs1 : Fin 32) (imm : BitVec 16) : Statement (.ldhu e rd rs1 imm) := fun _ => rfl
theorem ldw (e : Fin 8) (rd rs1 : Fin 32) (imm : BitVec 16) : Statement (.ldw e rd rs1 imm) := fun _ => rfl
theorem ldp (e : Fin 8) (rd rs1 : Fin 32) (imm : BitVec 16) : Statement (.ldp e rd rs1 imm) := fun _ => rfl
theorem stb (e : Fin 8) (rs2 rs1 : Fin 32) (imm : BitVec 16) : Statement (.stb e rs2 rs1 imm) := fun _ => rfl
theorem sth (e : Fin 8) (rs2 rs1 : Fin 32) (imm : BitVec 16) : Statement (.sth e rs2 rs1 imm) := fun _ => rfl
theorem stw (e : Fin 8) (rs2 rs1 : Fin 32) (imm : BitVec 16) : Statement (.stw e rs2 rs1 imm) := fun _ => rfl
theorem stp (e : Fin 8) (rs2 rs1 : Fin 32) (imm : BitVec 16) : Statement (.stp e rs2 rs1 imm) := fun _ => rfl
theorem atswap (e : Fin 8) (rd rs1 rs2 : Fin 32) : Statement (.atswap e rd rs1 rs2) := fun _ => rfl
theorem atadd (e : Fin 8) (rd rs1 rs2 : Fin 32) : Statement (.atadd e rd rs1 rs2) := fun _ => rfl
theorem atand (e : Fin 8) (rd rs1 rs2 : Fin 32) : Statement (.atand e rd rs1 rs2) := fun _ => rfl
theorem ator (e : Fin 8) (rd rs1 rs2 : Fin 32) : Statement (.ator e rd rs1 rs2) := fun _ => rfl
theorem atxor (e : Fin 8) (rd rs1 rs2 : Fin 32) : Statement (.atxor e rd rs1 rs2) := fun _ => rfl
theorem atmin (e : Fin 8) (rd rs1 rs2 : Fin 32) : Statement (.atmin e rd rs1 rs2) := fun _ => rfl
theorem atmax (e : Fin 8) (rd rs1 rs2 : Fin 32) : Statement (.atmax e rd rs1 rs2) := fun _ => rfl
theorem atminu (e : Fin 8) (rd rs1 rs2 : Fin 32) : Statement (.atminu e rd rs1 rs2) := fun _ => rfl
theorem atmaxu (e : Fin 8) (rd rs1 rs2 : Fin 32) : Statement (.atmaxu e rd rs1 rs2) := fun _ => rfl
theorem atcas (e : Fin 8) (rd rs1 rs2 : Fin 32) : Statement (.atcas e rd rs1 rs2) := fun _ => rfl
theorem cend (e : Fin 8) : Statement (.cend e) := fun _ => rfl
theorem waitf (e : Fin 8) (rd rs1 rs2 : Fin 32) : Statement (.waitf e rd rs1 rs2) := fun _ => rfl
theorem delay (e : Fin 8) (rs1 : Fin 32) : Statement (.delay e rs1) := fun _ => rfl
theorem hwait (e : Fin 8) (rd rs1 rs2 : Fin 32) : Statement (.hwait e rd rs1 rs2) := fun _ => rfl
theorem fset (e : Fin 8) (rs1 rs2 : Fin 32) : Statement (.fset e rs1 rs2) := fun _ => rfl
theorem fclr (e : Fin 8) (rs1 rs2 : Fin 32) : Statement (.fclr e rs1 rs2) := fun _ => rfl
theorem fget (e : Fin 8) (rd : Fin 32) : Statement (.fget e rd) := fun _ => rfl
theorem rget (e : Fin 8) (rd : Fin 32) : Statement (.rget e rd) := fun _ => rfl
theorem post (e : Fin 8) (rd rs1 rs2 : Fin 32) : Statement (.post e rd rs1 rs2) := fun _ => rfl
theorem take (e : Fin 8) (rd : Fin 32) : Statement (.take e rd) := fun _ => rfl
theorem done (e : Fin 8) (rs1 : Fin 32) : Statement (.done e rs1) := fun _ => rfl
theorem fence (e : Fin 8) : Statement (.fence e) := fun _ => rfl
theorem xret (e : Fin 8) : Statement (.xret e) := fun _ => rfl
theorem trap (e : Fin 8) (code : BitVec 15) : Statement (.trap e code) := fun _ => rfl
theorem scrubRead (upset : BitVec 80) : Statement (.scrubRead upset) := fun h => absurd rfl h
theorem scrubPassEnd : Statement (.scrubPassEnd) := fun h => absurd rfl h
theorem errorLogPop : Statement (.errorLogPop) := fun h => absurd rfl h
theorem pageRetire (p : Fin 256) : Statement (.pageRetire p) := fun h => absurd rfl h
theorem pageRestore (p : Fin 256) : Statement (.pageRestore p) := fun h => absurd rfl h
theorem bankCopyStart : Statement (.bankCopyStart) := fun h => absurd rfl h
theorem bankCopyDone : Statement (.bankCopyDone) := fun h => absurd rfl h
theorem bankCopyAbort : Statement (.bankCopyAbort) := fun h => absurd rfl h
theorem bankTestStart : Statement (.bankTestStart) := fun h => absurd rfl h
theorem bankTestDone (failing : List (Nat × BitVec 80)) : Statement (.bankTestDone failing) := fun h => absurd rfl h
theorem mramRead : Statement (.mramRead) := fun h => absurd rfl h
theorem mramWrite : Statement (.mramWrite) := fun h => absurd rfl h
theorem mramWindowDone : Statement (.mramWindowDone) := fun h => absurd rfl h
theorem landingClrcnt : Statement (.landingClrcnt) := fun h => absurd rfl h
theorem functionLevelReset : Statement (.functionLevelReset) := fun h => absurd rfl h
theorem hifReady : Statement (.hifReady) := fun h => absurd rfl h
theorem configRequest (r : CfgReq) : Statement (.configRequest r) := fun h => absurd rfl h
theorem bar2Read (off : BitVec 26) (n : Fin 4097) : Statement (.bar2Read off n) := fun h => absurd rfl h
theorem bar2Write (off : BitVec 26) (data : List (Option Byte)) : Statement (.bar2Write off data) := fun h => absurd rfl h
theorem hostRingEnable (r : Fin 42) : Statement (.hostRingEnable r) := fun h => absurd rfl h
theorem hostRingDisable (r : Fin 42) : Statement (.hostRingDisable r) := fun h => absurd rfl h
theorem hostRingError (r : Fin 42) (cause : Fin 16) : Statement (.hostRingError r cause) := fun h => absurd rfl h
theorem doorbell (r : Fin 42) (count : Word) (descs : List (BitVec 256)) : Statement (.doorbell r count descs) := fun h => absurd rfl h
theorem nop (raw : BitVec 256) : Statement (.nop raw) := fun h => absurd rfl h
theorem wr64 (raw : BitVec 256) : Statement (.wr64 raw) := fun h => absurd rfl h
theorem mwr32 (raw : BitVec 256) : Statement (.mwr32 raw) := fun h => absurd rfl h
theorem copyin (raw : BitVec 256) (words : List (BitVec 64 × Bool)) (failed : Bool) (pause : Option Nat) : Statement (.copyin raw words failed pause) := fun h => absurd rfl h
theorem copyout (raw : BitVec 256) (failed pause : Option Nat) : Statement (.copyout raw failed pause) := fun h => absurd rfl h
theorem cmdFset (raw : BitVec 256) : Statement (.cmdFset raw) := fun h => absurd rfl h
theorem cmdPost (raw : BitVec 256) : Statement (.cmdPost raw) := fun h => absurd rfl h
theorem athRelease : Statement (.athRelease) := fun h => absurd rfl h
theorem setpointPerform (r : Fin 32) : Statement (.setpointPerform r) := fun h => absurd rfl h
theorem eventEntryWrite : Statement (.eventEntryWrite) := fun h => absurd rfl h
theorem interrupt (r : Fin 42) : Statement (.interrupt r) := fun h => absurd rfl h
theorem hifClrcnt : Statement (.hifClrcnt) := fun h => absurd rfl h
theorem ptpMessageReceive (port : Fin 4) (kind : Fin 16) (domain : BitVec 8) (err : Fin 9) (r : PtpResult) : Statement (.ptpMessageReceive port kind domain err r) := fun h => absurd rfl h
theorem syncReceive (port : Fin 4) (origin : Int) (err : Fin 9) (logIvl : BitVec 8) : Statement (.syncReceive port origin err logIvl) := fun h => absurd rfl h
theorem servoLock : Statement (.servoLock) := fun h => absurd rfl h
theorem holdoverEnter (syncLost : Bool) : Statement (.holdoverEnter syncLost) := fun h => absurd rfl h
theorem holdoverExit : Statement (.holdoverExit) := fun h => absurd rfl h
theorem listeningEnd (port : Fin 4) (st : Fin 16) : Statement (.listeningEnd port st) := fun h => absurd rfl h
theorem ptpTransmit (port : Fin 4) (kind : Fin 16) : Statement (.ptpTransmit port kind) := fun h => absurd rfl h
theorem linkChange (port : Fin 4) (up : Bool) : Statement (.linkChange port up) := fun h => absurd rfl h
theorem sideTransmit (port : Fin 4) : Statement (.sideTransmit port) := fun h => absurd rfl h
theorem sideFrameReceive (port : Fin 4) (frame : List Byte) (fcsOk : Bool) : Statement (.sideFrameReceive port frame fcsOk) := fun h => absurd rfl h
theorem hailReceive (port : Fin 4) (frame : List Byte) (fcsOk : Bool) : Statement (.hailReceive port frame fcsOk) := fun h => absurd rfl h
theorem cycleUpReceive (port : Fin 4) (frame : List Byte) (fcsOk : Bool) : Statement (.cycleUpReceive port frame fcsOk) := fun h => absurd rfl h
theorem cycleDownReceive (port : Fin 4) (frame : List Byte) (fcsOk : Bool) : Statement (.cycleDownReceive port frame fcsOk) := fun h => absurd rfl h
theorem admitResend (st : Fin 256) : Statement (.admitResend st) := fun h => absurd rfl h
theorem stationRecordEnable (st : Fin 256) : Statement (.stationRecordEnable st) := fun h => absurd rfl h
theorem stationRelease (st : Fin 256) : Statement (.stationRelease st) := fun h => absurd rfl h
theorem netClrcnt : Statement (.netClrcnt) := fun h => absurd rfl h
theorem discoveryClear : Statement (.discoveryClear) := fun h => absurd rfl h
theorem canEnable (c : Fin 4) : Statement (.canEnable c) := fun h => absurd rfl h
theorem canListenEnd (c : Fin 4) : Statement (.canListenEnd c) := fun h => absurd rfl h
theorem canIntegrated (c : Fin 4) : Statement (.canIntegrated c) := fun h => absurd rfl h
theorem canTxRequest (c : Fin 4) : Statement (.canTxRequest c) := fun h => absurd rfl h
theorem canTxAbort (c : Fin 4) : Statement (.canTxAbort c) := fun h => absurd rfl h
theorem canFrameStart (c : Fin 4) (lag : Fin 52) (err : Int) : Statement (.canFrameStart c lag err) := fun h => absurd rfl h
theorem canTxEnd (c : Fin 4) (r : CanTxOutcome) (delay : Option (BitVec 8)) : Statement (.canTxEnd c r delay) := fun h => absurd rfl h
theorem idCollision (c : Fin 4) : Statement (.idCollision c) := fun h => absurd rfl h
theorem canFrameReceive (c : Fin 4) (f : CanFrame) (ago : BitVec 32) (err : Int) : Statement (.canFrameReceive c f ago err) := fun h => absurd rfl h
theorem canRxRelease (c : Fin 4) : Statement (.canRxRelease c) := fun h => absurd rfl h
theorem canBusoffRecovery (c : Fin 4) : Statement (.canBusoffRecovery c) := fun h => absurd rfl h
theorem dominantTimeout (c : Fin 4) : Statement (.dominantTimeout c) := fun h => absurd rfl h
theorem canClrcnt : Statement (.canClrcnt) := fun h => absurd rfl h
theorem safetyCycle (d : SafObs) : Statement (.safetyCycle d) := fun h => absurd rfl h
theorem safeInputChange (n : Fin 12) (contactB closed : Bool) : Statement (.safeInputChange n contactB closed) := fun h => absurd rfl h
theorem contactAccepted (n : Fin 12) (contactB : Bool) : Statement (.contactAccepted n contactB) := fun h => absurd rfl h
theorem discrepancyTimeout (n : Fin 12) : Statement (.discrepancyTimeout n) := fun h => absurd rfl h
theorem testPulse (sourceB : Bool) (staysHigh crossLow : BitVec 12) : Statement (.testPulse sourceB staysHigh crossLow) := fun h => absurd rfl h
theorem outputTestPulse (out : Fin 12) (stayedOn : Bool) : Statement (.outputTestPulse out stayedOn) := fun h => absurd rfl h
theorem outputWatchdog : Statement (.outputWatchdog) := fun h => absurd rfl h
theorem clockCheck (ppm : Int) (advanced : Nat) : Statement (.clockCheck ppm advanced) := fun h => absurd rfl h
theorem sdisTest (ok : Bool) : Statement (.sdisTest ok) := fun h => absurd rfl h
theorem safetyInitDone : Statement (.safetyInitDone) := fun h => absurd rfl h
theorem groupReset (mask : BitVec 8) : Statement (.groupReset mask) := fun h => absurd rfl h
theorem halfmastEnd : Statement (.halfmastEnd) := fun h => absurd rfl h
theorem halfmastTimeout : Statement (.halfmastTimeout) := fun h => absurd rfl h
theorem halfmastAck : Statement (.halfmastAck) := fun h => absurd rfl h
theorem brakeLeadEnd (g : Fin 8) : Statement (.brakeLeadEnd g) := fun h => absurd rfl h
theorem brakeTestStart (b : Fin 4) : Statement (.brakeTestStart b) := fun h => absurd rfl h
theorem brakeTestTorque (b : Fin 4) : Statement (.brakeTestTorque b) := fun h => absurd rfl h
theorem brakeTestPass (b : Fin 4) : Statement (.brakeTestPass b) := fun h => absurd rfl h
theorem brakeTestAbort : Statement (.brakeTestAbort) := fun h => absurd rfl h
theorem brakeTestDue (b : Fin 4) : Statement (.brakeTestDue b) := fun h => absurd rfl h
theorem paramLoad : Statement (.paramLoad) := fun h => absurd rfl h
theorem paramConfirm : Statement (.paramConfirm) := fun h => absurd rfl h
theorem paramDiscard : Statement (.paramDiscard) := fun h => absurd rfl h
theorem safeReset : Statement (.safeReset) := fun h => absurd rfl h
theorem claimTransmit : Statement (.claimTransmit) := fun h => absurd rfl h
theorem claimReceive (lane : Fin 2) (frame : List Byte) : Statement (.claimReceive lane frame) := fun h => absurd rfl h
theorem claimWindowExpiry : Statement (.claimWindowExpiry) := fun h => absurd rfl h
theorem laneDown (lane : Fin 2) : Statement (.laneDown lane) := fun h => absurd rfl h
theorem laneUp (lane : Fin 2) : Statement (.laneUp lane) := fun h => absurd rfl h
theorem linkLossTimeout : Statement (.linkLossTimeout) := fun h => absurd rfl h
theorem negotiationEnd : Statement (.negotiationEnd) := fun h => absurd rfl h
theorem hoistFrameReceive (lane : Fin 2) (frame : List Byte) (psn : List Nat) : Statement (.hoistFrameReceive lane frame psn) := fun h => absurd rfl h
theorem retFrameReceive (lane : Fin 2) (frame : List Byte) (psn : List Nat) : Statement (.retFrameReceive lane frame psn) := fun h => absurd rfl h
theorem handover : Statement (.handover) := fun h => absurd rfl h
theorem handoverDip : Statement (.handoverDip) := fun h => absurd rfl h
theorem pullReceive (lane : Fin 2) (frame : List Byte) : Statement (.pullReceive lane frame) := fun h => absurd rfl h
theorem passdataReceive (lane : Fin 2) (frame : List Byte) (psn : List Nat) : Statement (.passdataReceive lane frame psn) := fun h => absurd rfl h
theorem passStartReceive (lane : Fin 2) (frame : List Byte) : Statement (.passStartReceive lane frame) := fun h => absurd rfl h
theorem passRound2Receive (lane : Fin 2) (frame : List Byte) : Statement (.passRound2Receive lane frame) := fun h => absurd rfl h
theorem passEndReceive (lane : Fin 2) (frame : List Byte) : Statement (.passEndReceive lane frame) := fun h => absurd rfl h
theorem terhaClrcnt : Statement (.terhaClrcnt) := fun h => absurd rfl h
theorem tallyWrite : Statement (.tallyWrite) := fun h => absurd rfl h
theorem tallyRepeatUpdate : Statement (.tallyRepeatUpdate) := fun h => absurd rfl h
theorem tallyRead (index : Fin 32768) : Statement (.tallyRead index) := fun h => absurd rfl h
theorem tallyNext : Statement (.tallyNext) := fun h => absurd rfl h
theorem tallyUnlock (key : Word) : Statement (.tallyUnlock key) := fun h => absurd rfl h
theorem tallyUnlockTimeout : Statement (.tallyUnlockTimeout) := fun h => absurd rfl h
theorem tallyClear : Statement (.tallyClear) := fun h => absurd rfl h
theorem tallyClearDone : Statement (.tallyClearDone) := fun h => absurd rfl h
theorem recordStart : Statement (.recordStart) := fun h => absurd rfl h
theorem recordStop : Statement (.recordStop) := fun h => absurd rfl h
theorem recordEntryDrain : Statement (.recordEntryDrain) := fun h => absurd rfl h
theorem traceEnable : Statement (.traceEnable) := fun h => absurd rfl h
theorem traceFreeze : Statement (.traceFreeze) := fun h => absurd rfl h
theorem replayStart : Statement (.replayStart) := fun h => absurd rfl h
theorem replayInject : Statement (.replayInject) := fun h => absurd rfl h
theorem replayAbort : Statement (.replayAbort) := fun h => absurd rfl h
theorem powerOnReset (mv : BitVec 16) : Statement (.powerOnReset mv) := fun h => absurd rfl h
theorem analogueRailFault : Statement (.analogueRailFault) := fun h => absurd rfl h
theorem holdupCharged (mv10 : BitVec 16) : Statement (.holdupCharged mv10) := fun h => absurd rfl h
theorem powerFailWarning (mv : BitVec 16) : Statement (.powerFailWarning mv) := fun h => absurd rfl h
theorem powerFailClear (lowest : BitVec 16) (dur : Word) : Statement (.powerFailClear lowest dur) := fun h => absurd rfl h
theorem brownOut (mv : BitVec 16) : Statement (.brownOut mv) := fun h => absurd rfl h
theorem holdupExhausted : Statement (.holdupExhausted) := fun h => absurd rfl h
theorem boot : Statement (.boot) := fun h => absurd rfl h
theorem moduleWatchdogReset (src : Fin 16) : Statement (.moduleWatchdogReset src) := fun h => absurd rfl h
theorem softwareReset (v : Word) : Statement (.softwareReset v) := fun h => absurd rfl h
theorem standbyEntry : Statement (.standbyEntry) := fun h => absurd rfl h
theorem standbyExit : Statement (.standbyExit) := fun h => absurd rfl h
theorem keepSourceSwitch (vkeep : Bool) : Statement (.keepSourceSwitch vkeep) := fun h => absurd rfl h
theorem rtcUpdate : Statement (.rtcUpdate) := fun h => absurd rfl h
theorem timeGateOpen : Statement (.timeGateOpen) := fun h => absurd rfl h
theorem timeGateTimeout : Statement (.timeGateTimeout) := fun h => absurd rfl h
theorem outputRelease : Statement (.outputRelease) := fun h => absurd rfl h
theorem spsSwitch (n : Fin 8) (enable : Bool) : Statement (.spsSwitch n enable) := fun h => absurd rfl h
theorem spsLimit (n : Fin 8) : Statement (.spsLimit n) := fun h => absurd rfl h
theorem keepWrite (w : Fin 8192) (v : Word) : Statement (.keepWrite w v) := fun h => absurd rfl h
theorem keepRead (w : Fin 8192) (upset : BitVec 80) : Statement (.keepRead w upset) := fun h => absurd rfl h
theorem listControl (m : Fin 256) (v : Word) : Statement (.listControl m v) := fun h => absurd rfl h
theorem countChange (c : Fin 24) (v : FbSample) : Statement (.countChange c v) := fun h => absurd rfl h
theorem lineClear (c : Fin 24) : Statement (.lineClear c) := fun h => absurd rfl h
theorem canReceiveError (c : Fin 4) (lec : Fin 8) (dataPhase plus8 exception : Bool) : Statement (.canReceiveError c lec dataPhase plus8 exception) := fun h => absurd rfl h
theorem passctlEndSend : Statement (.passctlEndSend) := fun h => absurd rfl h

end Sys2Proof.Laws.Operands
end

