-- ==== Sys2Proof/Tests/Slice0.lean ====
section
/-! SUPPORT. Tests: ill-formed commands for each check of WellFormed, words of instructions, single steps. -/
namespace Sys2Proof.Tests
set_option Elab.async false
open Sys2Proof Sys2Proof.Machine Sys2Proof.Claims

/-! ### WellFormed: each check refuses an ill-formed command -/

theorem test_wf_register_offset : (Instr.registerWrite 0x100000 4 0 0).wf = false := by decide
theorem test_wf_register_width : (Instr.registerWrite 0 3 0 0).wf = false := by decide
theorem test_wf_landing_offset : (Instr.landingAccess [⟨0, 0, 0x3000000, .read 0⟩]).wf = false := by decide
theorem test_wf_repeat_bank : (Instr.repeatRewrite 34 0).wf = false := by decide
theorem test_wf_repeat_word : (Instr.repeatRewrite 33 196608).wf = false := by decide
theorem test_wf_deadline : (Instr.inputDeadline 0 513).wf = false := by decide
theorem test_wf_pass : (Instr.clePass 0 4097).wf = false := by decide
set_option maxRecDepth 20000 in
theorem test_wf_codes : (Instr.conversionResult 0 0 (List.replicate 257 0) 0).wf = false := by decide
theorem test_wf_burst : (Instr.interleaveBurst 0 (List.replicate 15 0) 0).wf = false := by decide
theorem test_wf_engine_word : (Instr.engineFault 0 1 32768).wf = false := by decide
theorem test_wf_engine_test : (Instr.engineTestDone 0 (some (true, 16384))).wf = false := by decide
theorem test_wf_bank_test : (Instr.bankTestDone [(196608, 1)]).wf = false := by decide
theorem test_wf_bar2_read : (Instr.bar2Read 0x3FFFFFF 2).wf = false := by decide
theorem test_wf_bar2_write : (Instr.bar2Write 0x3FFFFFF [none, none]).wf = false := by decide
theorem test_wf_doorbell : (Instr.doorbell 1 1 [0]).wf = false := by decide
theorem test_wf_copyout : (Instr.copyout 4 (some 131073) none).wf = false := by decide
theorem test_wf_nop : (Instr.nop 6).wf = false ∧ (Instr.nop 7).wf = true := by decide
theorem test_wf_wr64 : (Instr.wr64 2).wf = false := by decide
theorem test_wf_mwr32 : (Instr.mwr32 1).wf = false := by decide
theorem test_wf_copyin : (Instr.copyin 4 [] false none).wf = false := by decide
theorem test_wf_copyout_opcode : (Instr.copyout 3 none none).wf = false := by decide
theorem test_wf_fset : (Instr.cmdFset 6).wf = false := by decide
theorem test_wf_post : (Instr.cmdPost 5).wf = false := by decide
theorem test_wf_can_id : (Instr.canFrameReceive 0 ⟨false, false, false, false, false, 0x800, 0, []⟩ 0 0).wf = false := by decide
theorem test_wf_can_dlc : (Instr.canFrameReceive 0 ⟨false, false, false, false, false, 0x7FF, 2, [0]⟩ 0 0).wf = false := by decide
theorem test_wf_can_remote_fd : (Instr.canFrameReceive 0 ⟨false, true, true, false, false, 0, 0, []⟩ 0 0).wf = false := by decide
theorem test_wf_can_end : (Instr.canTxEnd 0 (.error 1 false false false 9) none).wf = false := by decide
theorem test_wf_safety : (Instr.safetyCycle ⟨[], 0, 0, false, false, false, false, false, false⟩).wf = false := by decide
set_option maxRecDepth 20000 in
theorem test_wf_frame : frameWf (List.replicate 1519 0) = false := by decide
set_option maxRecDepth 20000 in
theorem test_wf_lane : laneWf (List.replicate 2037 0) = false := by decide
theorem test_wf_well_formed : (Instr.registerWrite 0xFFFFC 4 0 0).wf = true ∧ (Instr.doorbell 2 1 [0]).wf = true := by decide


/-! ### Witnesses: states and operands that meet the hypotheses of the statements -/

/-- The machine after reset. -/
abbrev z : State := State.reset
/-- Ring 0 with a grid of 20 µs, enabled. -/
abbrev ringUp (r : RingSt) : State := (z.setRing 0 { r with live := true, per := 160, dlin := 200, slin := 3000 }).wrB Reg.HST_RINGCTL_EN true 0

theorem witness_time_step : z.anyRing = false ∧ z.rd Reg.HST_TSET_NS_NS ≤ 999999999 := by decide
theorem witness_time_step_ring : (z.wrB Reg.HST_RINGCTL_EN true 7).anyRing = true := by decide
theorem witness_time_step_ns : 999999999 < (z.wr Reg.HST_TSET_NS_NS 1000000000).rd Reg.HST_TSET_NS_NS := by decide
theorem witness_snap : z.time.ns < 1000000000 ∧ z.time.sec < 2 ^ 48 := by decide
theorem witness_slew_end : (z.slewWrite 1).slewRate ≠ 0 ∧ (z.slewWrite 1).time.share < 2 ^ 32 := by decide
theorem witness_refclk_fallback :
    let s := z.wrB Reg.SYS_CLKSTAT_SRC true
    s.bit Reg.SYS_CLKSTAT_SRC = true ∧ s.bit Reg.SYS_CLKCTL_AUTOFB = true := by decide
theorem witness_refclk_critical :
    let s := (z.wrB Reg.SYS_CLKSTAT_SRC true).wrB Reg.SYS_CLKCTL_AUTOFB false
    s.bit Reg.SYS_CLKSTAT_SRC = true ∧ s.bit Reg.SYS_CLKCTL_AUTOFB = false := by decide
theorem witness_refclk_lost : 200 ≤ 200 ∧ ¬(200 ≤ 199 ∨ 1000 < (1000 : Int).natAbs) ∧ 1000 < (-1001 : Int).natAbs := by decide
theorem witness_refclk_switch : 1000000 ≤ 1000000 ∧ 999999 < 1000000 := by decide
theorem witness_refsel : z.bit Reg.SYS_CLKSTAT_SRC = false ∧ (z.wrB Reg.SYS_CLKCTL_REFSEL true).bit Reg.SYS_CLKCTL_REFSEL = true := by
  decide
theorem witness_ring_enable :
    let s := ((z.wr Reg.HST_RPER_PER 160 7).wr Reg.HST_RDLIN_DLIN 200 7).wr Reg.HST_RSEAL_SEAL 3800 7
    s.bit Reg.HST_RINGCTL_EN 7 = false ∧ s.bit Reg.HST_RSTAT_RUN 7 = false ∧ (s.ringShadow 7).valid = true := by decide
theorem witness_ring_enable_invalid :
    let s := ((z.wr Reg.HST_RPER_PER 160 7).wr Reg.HST_RDLIN_DLIN 200 7).wr Reg.HST_RSEAL_SEAL 3801 7
    s.bit Reg.HST_RINGCTL_EN 7 = false ∧ s.bit Reg.HST_RSTAT_RUN 7 = false ∧ (s.ringShadow 7).valid = false := by decide
theorem witness_ring_disable_running : (z.wrB Reg.HST_RSTAT_RUN true 0).bit Reg.HST_RSTAT_RUN 0 = true := by decide
theorem witness_ring_disable_waiting : (ringUp {}).bit Reg.HST_RSTAT_RUN 0 = false ∧ ((ringUp {}).ring 0).live = true := by decide
theorem witness_hoist_instant :
    let s := ringUp { begun := true, sDone := true, next := 1 }
    (s.ring 0).live = true ∧ (s.ring 0).begun = true ∧ (s.ring 0).sDone = true ∧ (s.ring 0).blank = false ∧
      s.bit Reg.HST_RINGCTL_EN 0 = true ∧ s.bit Reg.HST_RINGCTL_RELOAD 0 = false ∧
      ((s.advanceTo (s.ring 0).next).ringTurn 0).1 = .go false := by decide
theorem witness_reload_take :
    let s := ((((ringUp { begun := true, sDone := true, next := 1 }).wrB Reg.HST_RINGCTL_RELOAD true 0).wr Reg.HST_RPER_PER 320 0).wr
      Reg.HST_RDLIN_DLIN 200 0).wr Reg.HST_RSEAL_SEAL 3800 0
    (s.ring 0).live = true ∧ (s.ring 0).begun = true ∧ (s.ring 0).sDone = true ∧ (s.ring 0).blank = false ∧
      s.bit Reg.HST_RINGCTL_EN 0 = true ∧ s.bit Reg.HST_RINGCTL_RELOAD 0 = true ∧
      ((s.advanceTo (s.ring 0).next).ringTurn 0).1 = .gap := by decide
theorem witness_hoist_first :
    let s := ringUp { next := 1, blank := true }
    (s.ring 0).live = true ∧ (s.ring 0).begun = false ∧ ((s.advanceTo (s.ring 0).next).ringTurn 0).1 = .go true := by decide
theorem witness_hoist_stop :
    let s := (ringUp { begun := true, sDone := true, next := 1 }).wrB Reg.HST_RINGCTL_EN false 0
    (s.ring 0).live = true ∧ (s.ring 0).begun = true ∧ (s.ring 0).sDone = true ∧ ((s.advanceTo (s.ring 0).next).ringTurn 0).1 = .stop := by decide
theorem witness_reload : (ringUp {}).bit Reg.HST_RSTAT_RUN 0 = false ∧ ((ringUp {}).ring 0).live = true := by decide
theorem witness_ring_turn :
    let s := ringUp {}
    (s.ring 0).live = true ∧ s.bit Reg.HST_RINGCTL_EN 0 = true ∧ s.bit Reg.HST_RINGCTL_RELOAD 0 = false ∧ (s.ring 0).blank = false := by
  decide
theorem witness_deadline :
    let s := ringUp { begun := true, sampled := true }
    (s.ring 0).live = true ∧ (s.ring 0).begun = true ∧ (s.ring 0).dDone = false ∧ (s.ring 0).sampled = true := by decide
theorem witness_deadline_unsampled :
    let s := ringUp { begun := true, sampled := false }
    (s.ring 0).live = true ∧ (s.ring 0).begun = true ∧ (s.ring 0).dDone = false ∧ (s.ring 0).sampled = false := by decide
theorem witness_seal :
    let s := ringUp { begun := true, dDone := true }
    (s.ring 0).live = true ∧ (s.ring 0).begun = true ∧ (s.ring 0).dDone = true ∧ (s.ring 0).sDone = false := by decide
theorem witness_list_start : (0xC0000000#32).getLsbD 31 = true ∧ (0xC0000000#32).getLsbD 30 = true := by decide
theorem witness_list_stop : (0x40000000#32).getLsbD 31 = false ∧ (0x40000000#32).getLsbD 30 = true := by decide
theorem witness_list_hold :
    (0x20000000#32).getLsbD 31 = false ∧ (0x20000000#32).getLsbD 30 = false ∧ (0x20000000#32).getLsbD 29 = true ∧
      (z.wr Reg.HST_LSTAT_STATE lsRun 255).rd Reg.HST_LSTAT_STATE 255 = lsRun := by decide
/-- List 0 in RUN on ring 0 with a step of the given first and sixth words. -/
abbrev listUp (w0 w5 : Nat) : State :=
  ((ringUp { begun := true, sampled := true }).setLst 0 { step := leBytes 4 w0 ++ leBytes 4 0 ++ leBytes 4 64 ++ leBytes 8 1 ++ leBytes 4 w5 }).wr
    Reg.HST_LSTAT_STATE lsRun 0
theorem witness_step_time :
    let s := listUp 0x00000001 0
    (s.ring (s.lst 0).ring).sampled = true ∧ (s.ring (s.lst 0).ring).dDone = false ∧ s.rd Reg.HST_LSTAT_STATE 0 = lsRun ∧
      (s.lst 0).evalAt ≠ (s.ring (s.lst 0).ring).tk + 1 ∧ (parseStep (s.lst 0).step).adv = 0 ∧
      max 1 (parseStep (s.lst 0).step).n ≤ s.rd Reg.HST_LCNT_CNT 0 + 1 := by decide
theorem witness_step_timeout :
    let s := listUp 0x10000001 1
    let p := parseStep (s.lst 0).step
    (s.ring (s.lst 0).ring).sampled = true ∧ (s.ring (s.lst 0).ring).dDone = false ∧ s.rd Reg.HST_LSTAT_STATE 0 = lsRun ∧
      (s.lst 0).evalAt ≠ (s.ring (s.lst 0).ring).tk + 1 ∧ p.adv = 1 ∧ p.n ≠ 0 ∧ p.n ≤ s.rd Reg.HST_LCNT_CNT 0 + 1 ∧
      (s.lndWord hstPort p.caddr).1.2 = false ∧ p.holds (s.lndWord hstPort p.caddr).1.1 = false := by decide
/-- A step of the given first, second and sixth words with one evaluation left, the Landing holding zeros: every record there is
well-formed, so the list enters the step named. -/
abbrev stepInput (w0 w1 w5 : Nat) : State :=
  (listUp w0 w5).setLst 0 { (listUp w0 w5).lst 0 with step := leBytes 4 w0 ++ leBytes 4 w1 ++ leBytes 4 64 ++ leBytes 8 1 ++ leBytes 4 w5 }
/-- The state at the evaluation. -/
abbrev evaluated (s : State) : State :=
  let d := s.advanceTo (s.ring (s.lst 0).ring).deadline
  (d.setLst 0 { d.lst 0 with evalAt := (d.ring (s.lst 0).ring).tk + 1 }).inc Reg.HST_LCNT_CNT 0
/-- The record of step `k` reads clean and well-formed, with no actions. -/
abbrev goodStep (s u : State) (k : Nat) : Bool :=
  let r := (u.lndBytes hstPort ((s.lst 0).base + 32 * k) 32).1
  !r.2 && (parseStep r.1).formatOk (s.lst 0).last && decide ((parseStep r.1).acnt = 0)
theorem witness_step_enters :
    let s := stepInput 0x00000001 0 0
    (parseStep (s.lst 0).step).fin = false ∧ goodStep s (evaluated s) 1 = true := by decide +kernel
theorem witness_step_fin : (parseStep ((stepInput 0x80000001 0 0).lst 0).step).fin = true := by decide
/-- A COND step with the given TOACT, reached at its last evaluation with its condition false. -/
abbrev condInput (toact : Nat) (fin : Nat) : State := stepInput (0x10000001 + toact * 2 ^ 26 + fin * 2 ^ 31) 0 1
theorem witness_step_timeout_acts :
    [0, 1, 2, 3].all (fun k => [0, 1].all fun f =>
      let s := condInput k f
      let p := parseStep (s.lst 0).step
      p.adv == 1 && p.toact == k && p.fin == (f == 1) && p.n == 1 && !(s.lndWord hstPort p.caddr).1.2 && !p.holds (s.lndWord hstPort p.caddr).1.1 &&
        decide (((evaluated s).lndWord hstPort p.caddr).1 = (s.lndWord hstPort p.caddr).1) &&
        goodStep s ((evaluated s).lndWord hstPort p.caddr).2 p.tostep && goodStep s ((evaluated s).lndWord hstPort p.caddr).2 1) = true := by
  decide +kernel
theorem witness_step_stays :
    let s := listUp 0x00000002 0
    (parseStep (s.lst 0).step).adv = 0 ∧ s.rd Reg.HST_LCNT_CNT 0 + 1 < max 1 (parseStep (s.lst 0).step).n := by decide
theorem witness_step_done :
    let s := listUp 0x80000000 0
    (parseStep (s.lst 0).step).adv = 0 ∧ max 1 (parseStep (s.lst 0).step).n ≤ s.rd Reg.HST_LCNT_CNT 0 + 1 ∧
      (parseStep (s.lst 0).step).fin = true := by decide
theorem witness_edge : z.timeInRange = true ∧ (z.time.ns : Int) + 5 < 1000000000 ∧ z.time.share < 2 ^ 32 := by decide
/-- The last edge of a second. -/
abbrev lastEdge : State := { z with time := { sec := 2 ^ 48 - 1, ns := 999999995 } }
theorem witness_edge_second : lastEdge.timeInRange = true ∧ 1000000000 ≤ (lastEdge.time.ns : Int) + 5 := by decide
theorem test_edge_wraps_second : lastEdge.tick.time.sec = 0 ∧ lastEdge.tick.time.ns = 0 := by decide

/-- Engine 0 runs task 0, whose code begins with one word; `c` are its registers, `d` its descriptor. -/
abbrev jv (w : Word) (c : CtxSt) (d : Desc := {}) : State :=
  ((z.setTask 0 { desc := { d with clen := 1 } }).setEng 0 { busy := true, ctx := c }).setMem (.code 0) (({} : Mem).put 0 ⟨w.setWidth 64, false⟩)
/-- The same with the word of an instruction. -/
abbrev jvi (i : Instr) (c : CtxSt) (d : Desc := {}) : State := jv ((jvEncode i).getD 0#32) c d
/-- g2 holds 7, g3 holds a number. -/
abbrev g23 (v : Word) : CtxSt := { g := [(2, 7#32), (3, v)] }

theorem witness_alu : ∀ r ∈ aluRows, Ready (jvi (r.ins 0 1 2 3) (g23 5)) 0 (r.ins 0 1 2 3) := by decide +kernel
theorem witness_div : ∀ r ∈ divRows, Ready (jvi (r.ins 0 1 2 3) (g23 5)) 0 (r.ins 0 1 2 3) ∧
    ((jvi (r.ins 0 1 2 3) (g23 5)).settledCtx 0 [1, 2, 3]).greg 3 ≠ 0#32 := by decide +kernel
theorem witness_div_zero : ∀ r ∈ divRows, let s := jvi (r.ins 0 1 2 3) (g23 0) { xhnd := 16 }
    Ready s 0 (r.ins 0 1 2 3) ∧ (s.settledCtx 0 [1, 2, 3]).greg 3 = 0#32 ∧ (s.settledCtx 0 [1, 2, 3]).tag 3 = false ∧
      HandlerReady (s.settled 0 [1, 2, 3]) 0 := by decide +kernel
theorem witness_div_poison : ∀ r ∈ divRows, let s := jvi (r.ins 0 1 2 3) { g23 0 with tags := 8 }
    Ready s 0 (r.ins 0 1 2 3) ∧ (s.settledCtx 0 [1, 2, 3]).greg 3 = 0#32 ∧ (s.settledCtx 0 [1, 2, 3]).tag 3 = true := by decide +kernel
theorem witness_corners :
    let c : CtxSt := { g := [(2, 0x80000000#32), (3, 0xFFFFFFFF#32)] }
    Ready (jvi (.ptst 0 1 2) {}) 0 (.ptst 0 1 2) ∧ Ready (jvi (.quo 0 1 2 3) c) 0 (.quo 0 1 2 3) ∧
      Ready (jvi (.mod 0 1 2 3) c) 0 (.mod 0 1 2 3) ∧
      ((jvi (.quo 0 1 2 3) c).settledCtx 0 [1, 2, 3]).greg 2 = 0x80000000#32 ∧
      ((jvi (.quo 0 1 2 3) c).settledCtx 0 [1, 2, 3]).greg 3 = 0xFFFFFFFF#32 ∧
      ((jvi (.mod 0 1 2 3) c).settledCtx 0 [1, 2, 3]).greg 2 = 0x80000000#32 ∧
      ((jvi (.mod 0 1 2 3) c).settledCtx 0 [1, 2, 3]).greg 3 = 0xFFFFFFFF#32 := by decide
theorem witness_imm : ∀ r ∈ immRows, Ready (jvi (r.ins 0 1 2 0xFFFF) {}) 0 (r.ins 0 1 2 0xFFFF) := by decide
theorem witness_shifts : ∀ i ∈ [Instr.shkShl 0 1 2 31, .shkShr 0 1 2 31, .shkShra 0 1 2 31, .hik 0 1 0x8000], Ready (jvi i {}) 0 i := by decide
theorem witness_float : ∀ r ∈ fpRows, ∀ rm ∈ [(0 : Fin 5), 4],
    let i := r.ins 0 (if jvEncode (r.ins 0 rm 1 2 3) = none then 0 else rm) 1 2 3
    Ready (jvi i {}) 0 i := by decide +kernel
theorem witness_fma : ∀ r ∈ fmaRows, Ready (jvi (r.1 0 1 2 3 4) {}) 0 (r.1 0 1 2 3 4) := by decide
theorem witness_sign : ∀ i ∈ [Instr.fcpys 0 1 2 3, .fnegs 0 1 2 3, .fxors 0 1 2 3, .fkind 0 1 2], Ready (jvi i {}) 0 i := by decide
theorem witness_nan : fIsNan b32 0x7F800001 = true ∧ fIsNan b32 0xFFFFFFFF = true ∧ 0xFFFFFFFF < 2 ^ 32 := by decide
theorem witness_jumps : ∀ i ∈ [Instr.go 0 0x2000000, .call 0 0x1FFFFFF, .gor 0 1 2 0x8000, .xret 0], Ready (jvi i {}) 0 i := by decide
theorem witness_gor_clean : ((jvi (.gor 0 1 2 0) {}).settledCtx 0 [1, 2]).tag 2 = false := by decide
theorem witness_branch : ∀ r ∈ branchRows, let s := jvi (r.1 0 2 3 0x8000) (g23 5)
    Ready s 0 (r.1 0 2 3 0x8000) ∧ (s.settledCtx 0 [2, 3]).tag 2 = false ∧ (s.settledCtx 0 [2, 3]).tag 3 = false := by decide
theorem witness_getc : ∀ n ∈ [0x000, 1, 2, 3, 4, 0x10, 0x11, 0x12, 0x13, 0x14, 0x15, 0x16, 0x17, 0x18, 0x19, 0x21],
    Ready (jvi (.getc 0 1 (BitVec.ofNat 16 n)) {}) 0 (.getc 0 1 (BitVec.ofNat 16 n)) := by decide +kernel
theorem witness_putc : ∀ n ∈ [1, 2], let s := jvi (.putc 0 (BitVec.ofNat 16 n) 2) {}
    Ready s 0 (.putc 0 (BitVec.ofNat 16 n) 2) ∧ (s.settledCtx 0 [2]).tag 2 = false := by decide +kernel
theorem witness_trap : let s := jvi (.trap 0 0x7FFF) {} { xhnd := 16 }
    Ready s 0 (.trap 0 0x7FFF) ∧ HandlerReady (s.settled 0 []) 0 := by decide
theorem witness_reserved : let s := jv 0#32 {} { xhnd := 16 }
    (s.eng 0).busy = true ∧ (s.eng 0).fence = false ∧ s.pcInRange 0 = true ∧
      ((s.mem (.code 0)).decode ((s.eng 0).ctx.pc.toNat / 8)).2 = .clean ∧
      ((s.mem (.code 0)).decode ((s.eng 0).ctx.pc.toNat / 8)).1.poison = false ∧
      jvDecode 0 (codeWord ((s.mem (.code 0)).decode ((s.eng 0).ctx.pc.toNat / 8)).1 (s.eng 0).ctx.pc) = none ∧ HandlerReady s 0 := by
  decide
theorem witness_poison_base : let s := jvi (.ldw 0 1 2 4) { tags := 4 } { xhnd := 16 }
    Ready s 0 (.ldw 0 1 2 4) ∧ ((s.settled 0 [1, 2]).eng 0).ctx.tag 2 = true ∧ HandlerReady (s.settled 0 [1, 2]) 0 := by decide
theorem witness_poison_branch : let s := jvi (.breq 0 2 3 4) { tags := 4 } { xhnd := 16 }
    Ready s 0 (.breq 0 2 3 4) ∧ ((s.settled 0 [2, 3]).eng 0).ctx.tag 2 = true ∧ HandlerReady (s.settled 0 [2, 3]) 0 := by decide
theorem witness_poison_gor : let s := jvi (.gor 0 1 2 4) { tags := 4 } { xhnd := 16 }
    Ready s 0 (.gor 0 1 2 4) ∧ ((s.settled 0 [1, 2]).eng 0).ctx.tag 2 = true ∧ HandlerReady (s.settled 0 [1, 2]) 0 := by decide
theorem witness_poison_putc : let s := jvi (.putc 0 1 2) { tags := 4 } { xhnd := 16 }
    Ready s 0 (.putc 0 1 2) ∧ ((s.settled 0 [2]).eng 0).ctx.tag 2 = true ∧ HandlerReady (s.settled 0 [2]) 0 := by decide
theorem witness_abandon : let s := (jvi (.trap 0 5) {}).wrB Reg.TEX_DCTL_DET true
    Ready s 0 (.trap 0 5) ∧ (s.settled 0 []).role ≠ roleActive ∧ s.bit Reg.TEX_XCTL_STOPX = false ∧ s.tex.items = [] ∧ s.tex.ck = none ∧
      s.bit Reg.TEX_DCTL_DET = true ∧ (s.eng 0).task < 256 ∧ s.rd Reg.TEX_XCNT_ABANDON (s.eng 0).task < 2 ^ 16 - 1 ∧
      s.bit Reg.TLY_TRCFG_EN = false ∧ ¬ HandlerReady (s.settled 0 []) 0 := by decide
theorem witness_encode : jvEncode (.trap 7 0x7FFF) = some 0xB3FFF80F#32 ∧ jvDecode 7 0xB3FFF80F#32 = some (.trap 7 0x7FFF) := by decide

/-! ### Witnesses: engine memory -/

/-- An address in g2, a value in g3. -/
abbrev at2 (a : Word) (v : Word := 0xA1B2C3D4#32) : CtxSt := { g := [(2, a), (3, v)] }

theorem witness_data_loads : ∀ r ∈ loadRows, let s := jvi (r.1 0 1 2 0) (at2 0x1001FFF8)
    let c := s.settledCtx 0 [1, 2]
    Ready s 0 (r.1 0 1 2 0) ∧ c.tag 2 = false ∧ (c.greg 2).toNat < 0x10020000 ∧ (c.greg 2).toNat % r.2.1 = 0 ∧
      (((s.settled 0 [1, 2]).mem (.data 0)).decode 16383).2 = .clean := by decide
theorem witness_data_pair : let s := jvi (.ldp 0 4 2 0) (at2 0x10000000)
    Ready s 0 (.ldp 0 4 2 0) ∧ (s.settledCtx 0 [4, 2, 5]).tag 2 = false ∧
      (((s.settled 0 [4, 2, 5]).mem (.data 0)).decode 0).2 = .clean := by decide
/-- The whole Landing open to class 0 through region 0, the bank map as after reset. -/
abbrev opened (s : State) : State :=
  ((((s.wrB Reg.TEX_MPCTL_EN true 0).wr Reg.TEX_MPCTL_CLASS 255 0).wrB Reg.TEX_MPCTL_RD true 0).wrB Reg.TEX_MPCTL_WR true 0).wr
    Reg.TEX_MPLAS_PAGE 12287 0
theorem witness_landing_loads : ∀ r ∈ loadRows, let s := opened (jvi (r.1 0 1 2 0) (at2 0x82FFFFF8))
    let u := s.settled 0 [1, 2]
    let v := u.inOrder (engPort 0) 0x2FFFFF8
    Ready s 0 (r.1 0 1 2 0) ∧ (s.settledCtx 0 [1, 2]).tag 2 = false ∧ ((s.settledCtx 0 [1, 2]).greg 2).toNat % r.2.1 = 0 ∧
      u.permitted 0 0x2FFFFF8 true false = true ∧ u.retEntry 0x2FFFFF8 = none ∧ (v.landing.decode (v.lndCw 0x2FFFFF8)).2 = .clean ∧
      (v.eng 0).loads.length + (v.lnd.waiting.filter fun x => x.ofEngine 0).length < 16 := by decide +kernel
theorem witness_load_return : let s := z.setEng 0 { loads := [⟨31, false, 1, true⟩] }
    (s.eng 0).loads = [⟨31, false, 1, true⟩] := by decide
/-- Bank 0, which codeword 0 of the Landing lies in, is being copied to bank 33. -/
abbrev copying (s : State) : State := { s with lnd := { s.lnd with copy := some (0, 33) } }
theorem witness_copied : (copying z).mirrorOf ((copying z).lndCw 0) = some (33 * bankWords) ∧ z.mirrorOf (z.lndCw 0) = none := by decide
theorem witness_data_stores : ∀ r ∈ storeRows, let s := jvi (r.1 0 3 2 0) (at2 0x1001FFF8)
    Ready s 0 (r.1 0 3 2 0) ∧ (s.settledCtx 0 [3, 2]).tag 2 = false ∧ ((s.settledCtx 0 [3, 2]).greg 2).toNat % r.2 = 0 ∧
      tabAt 0#80 ((s.settled 0 [3, 2]).mem (.data 0)).flips 16383 = 0#80 := by decide
theorem witness_data_store_pair : let s := jvi (.stp 0 4 2 0) (at2 0x10000000)
    Ready s 0 (.stp 0 4 2 0) ∧ (s.settledCtx 0 [4, 2, 5]).tag 2 = false := by decide
theorem witness_landing_stores : ∀ r ∈ storeRows, let s := opened (jvi (r.1 0 3 2 0) (at2 0x82FFFFF8))
    let u := s.settled 0 [3, 2]
    let v := u.inOrder (engPort 0) 0x2FFFFF8
    Ready s 0 (r.1 0 3 2 0) ∧ (s.settledCtx 0 [3, 2]).tag 2 = false ∧ u.permitted 0 0x2FFFFF8 false true = true ∧
      u.retEntry 0x2FFFFF8 = none ∧ tabAt 0#80 v.landing.flips (v.lndCw 0x2FFFFF8) = 0#80 := by decide +kernel
theorem witness_atomics : ∀ r ∈ atomicRows, let s := opened (jvi (r.1 0 1 2 3) (at2 0x80000000))
    let u := (s.settled 0 [1, 2, 3]).fenced 0
    Ready s 0 (r.1 0 1 2 3) ∧ (u.eng 0).ctx.tag 2 = false ∧ ((u.eng 0).ctx.greg 2).toNat = 0x80000000 ∧
      u.permitted 0 0 true true = true ∧ u.retEntry 0 = none ∧ tabAt 0#80 (u.inOrder 0 0).landing.flips (u.lndCw 0) = 0#80 := by decide +kernel
theorem witness_atcas : let s := opened (jvi (.atcas 0 1 2 3) (at2 0x80000000))
    let u := (s.settled 0 [1, 2, 3]).fenced 0
    Ready s 0 (.atcas 0 1 2 3) ∧ (u.eng 0).ctx.tag 1 = false ∧ (u.landing.decode (u.lndCw 0)).1.poison = false ∧
      u.permitted 0 0 true true = true ∧ u.retEntry 0 = none ∧ tabAt 0#80 (u.inOrder 0 0).landing.flips (u.lndCw 0) = 0#80 := by decide
theorem witness_atomic_outside : ∀ a ∈ [0x7FFFFFFC, 0x83000000], let s := jvi (.atcas 0 1 2 3) (at2 (BitVec.ofNat 32 a)) { xhnd := 16 }
    let u := (s.settled 0 [1, 2, 3]).fenced 0
    Ready s 0 (.atcas 0 1 2 3) ∧ HandlerReady u 0 ∧ (u.eng 0).ctx.tag 2 = false ∧ ((u.eng 0).ctx.greg 2).toNat = a := by decide
theorem witness_refused : ∀ a ∈ [0x80000001, 0x0003FFFC, 0x83000000, 0x82FFFFFC], let s := (jvi (.stw 0 3 2 0) (at2 (BitVec.ofNat 32 a)) { xhnd := 16 }).wrB Reg.TEX_MPCTL_EN false 0
    Ready s 0 (.stw 0 3 2 0) ∧ HandlerReady (s.settled 0 [3, 2]) 0 ∧ (s.settledCtx 0 [3, 2]).tag 2 = false ∧
      (s.settled 0 [3, 2]).permitted 0 0x2FFFFFC false true = false := by decide

/-! ### Witnesses: task and system operations -/

theorem witness_flags_get : ∀ i ∈ [Instr.fget 0 31, .rget 0 31], Ready (jvi i {}) 0 i := by decide
theorem witness_fence : Ready (jvi (.fence 0) {}) 0 (.fence 0) ∧ ((jvi (.fence 0) {}).eng 0).loads = [] ∧
    ((jvi (.fence 0) {}).lnd.waiting.any fun x => x.ofEngine 0) = false := by decide
/-- The engine with a load outstanding. -/
abbrev loading (s : State) : State := s.setEng 0 { s.eng 0 with loads := [⟨9, false, 1, false⟩] }
theorem witness_fence_waits : let s := loading (jvi (.fence 0) {})
    Ready s 0 (.fence 0) ∧ (s.eng 0).loads ≠ [] := by decide
theorem witness_fence_waits_request : let s : State := { jvi (.fence 0) {} with lnd := { waiting := [⟨⟨0, 0, 0, .read 0⟩, 1, false, 0⟩] } }
    Ready s 0 (.fence 0) ∧ (s.lnd.waiting.any fun x => x.ofEngine 0) = true := by decide
theorem witness_fence_release : let s := (loading z).setEng 0 { fence := true, loads := ((loading z).eng 0).loads }
    (s.eng 0).fence = true ∧ (s.eng 0).loads.length ≤ 16 := by decide
theorem witness_fset_fclr : ∀ i ∈ [Instr.fset 0 2 3, .fclr 0 2 3], let s := (jvi i (at2 255 5)).wrB Reg.TEX_DCTL_DET false
    let c := (((s.settled 0 []).fenced 0).eng 0).ctx
    Ready s 0 i ∧ c.tag 2 = false ∧ c.tag 3 = false ∧ s.bit Reg.TEX_DCTL_DET = false ∧ (s.task ((c.greg 2).toNat % 256)).wait = none := by
  decide
theorem witness_waitf_holds : let s := (jvi (.waitf 0 1 2 3) (at2 4 0x40000000)).wr Reg.TEX_EFLAG_F 6 0
    let c := (((s.settled 0 []).fenced 0).eng 0).ctx
    Ready s 0 (.waitf 0 1 2 3) ∧ s.bit Reg.TEX_DCTL_DET = false ∧ c.tag 2 = false ∧ c.tag 3 = false ∧ (s.eng 0).task < 256 ∧
      (c.greg 3).getLsbD 31 = false ∧ (c.greg 3).getLsbD 30 = true ∧ s.rd Reg.TEX_EFLAG_F 0 &&& (c.greg 2).toNat ≠ 0 := by decide
/-- A task whose context can be saved: its frame page lies in the Landing. -/
abbrev savable (i : Instr) (v w : Word) : State := jvi i (at2 v w) { forg := 4096, frame := 1 }
theorem witness_waitf_waits : let s := savable (.waitf 0 1 2 3) 4 0
    let u := (s.settled 0 []).fenced 0
    Ready s 0 (.waitf 0 1 2 3) ∧ s.bit Reg.TEX_DCTL_DET = false ∧ ((u.eng 0).ctx.greg 3).getLsbD 31 = false ∧ u.ctxSavable 0 = true ∧
      s.tex.items = [] ∧ s.rd Reg.TEX_EFLAG_F 0 &&& ((u.eng 0).ctx.greg 2).toNat = 0 := by decide
theorem witness_delay : let s := savable (.delay 0 2) 0x00FFFFFF 0
    let u := (s.settled 0 []).fenced 0
    Ready s 0 (.delay 0 2) ∧ s.bit Reg.TEX_DCTL_DET = false ∧ u.ctxSavable 0 = true ∧ s.tex.items = [] ∧
      ((u.eng 0).ctx.greg 2).toNat % 2 ^ 24 ≠ 0 := by decide
theorem witness_hwait : let s := (savable (.hwait 0 1 2 3) 7 1).wrB Reg.HST_RSTAT_RUN true 7
    let u := (s.settled 0 []).fenced 0
    Ready s 0 (.hwait 0 1 2 3) ∧ u.ctxSavable 0 = true ∧ s.tex.items = [] ∧ s.bit Reg.HST_RSTAT_RUN (((u.eng 0).ctx.greg 2).toNat % 8) = true ∧
      0 < ((u.eng 0).ctx.greg 3 - BitVec.ofNat 32 (s.rd Reg.HST_RHNUM_HNUM (((u.eng 0).ctx.greg 2).toNat % 8))).toInt := by decide
theorem witness_hwait_stopped : let s := savable (.hwait 0 1 2 3) 7 1
    Ready s 0 (.hwait 0 1 2 3) ∧ s.bit Reg.HST_RSTAT_RUN 7 = false ∧ s.bit Reg.TEX_DCTL_DET = false := by decide
theorem witness_hwait_past : let s := (savable (.hwait 0 1 2 3) 7 0).wrB Reg.HST_RSTAT_RUN true 7
    let c := (((s.settled 0 []).fenced 0).eng 0).ctx
    Ready s 0 (.hwait 0 1 2 3) ∧ s.bit Reg.TEX_DCTL_DET = false ∧ s.bit Reg.HST_RSTAT_RUN ((c.greg 2).toNat % 8) = true ∧
      (c.greg 3 - BitVec.ofNat 32 (s.rd Reg.HST_RHNUM_HNUM ((c.greg 2).toNat % 8))).toInt ≤ 0 := by decide
theorem witness_detwait : ∀ i ∈ [Instr.waitf 0 1 2 3, .delay 0 2, .hwait 0 1 2 3], let s := (jvi i {} { xhnd := 16 }).wrB Reg.TEX_DCTL_DET true
    Ready s 0 i ∧ s.bit Reg.TEX_DCTL_DET = true ∧ HandlerReady ((s.settled 0 []).fenced 0) 0 := by decide
theorem witness_post : let s := (jvi (.post 0 1 2 4) {}).wrB Reg.TEX_DCTL_DET true
    Ready s 0 (.post 0 1 2 4) ∧ (((s.settled 0 []).fenced 0).eng 0).ctx.tag 2 = false ∧ s.bit Reg.TEX_DCTL_DET = true := by decide
/-- Flume 9 in the table of the Landing, on or off, normal mode. -/
abbrev posting (on : Bool) : State :=
  let s := (jvi (.post 0 1 2 4) (at2 9)).wrB Reg.TEX_DCTL_DET false
  { s with landing := (s.lndWriteCws 0 (9 * 8) [⟨if on then 0x80000000#64 else 0#64, false⟩]).landing }
theorem witness_post_normal : let s := posting true
    let u := (s.settled 0 []).fenced 0
    let g := (u.flumeCfg 9).1
    Ready s 0 (.post 0 1 2 4) ∧ (u.eng 0).ctx.tag 2 = false ∧ u.bit Reg.TEX_DCTL_DET = false ∧ ((u.eng 0).ctx.greg 2).toNat % 4096 = 9 ∧
      g.en = true ∧ (g.maxq = 0 ∨ (u.flumeItems 9).length < g.maxq) ∧ u.tex.items.length < 16384 := by decide +kernel
theorem witness_post_off : let u := ((posting false).settled 0 []).fenced 0
    Ready (posting false) 0 (.post 0 1 2 4) ∧ (u.flumeCfg 9).1.en = false := by decide +kernel
theorem witness_take_none : let s := jvi (.take 0 30) {}
    Ready s 0 (.take 0 30) ∧ s.bit Reg.TEX_DCFG_GEN (s.eng 0).task = false := by decide
/-- One item, in the place given. -/
abbrev withItem (s : State) (p : ItemPlace) : State := { s with tex := { s.tex with items := [⟨0, 9, 1, 0, 0, p⟩] } }
theorem witness_take_item : let s := (withItem (jvi (.take 0 2) {}) (.slot 0)).wrB Reg.TEX_DCFG_GEN true 0
    Ready s 0 (.take 0 2) ∧ s.bit Reg.TEX_DCFG_GEN (s.eng 0).task = true ∧
      s.tex.items.filter (fun x => x.place == .slot (s.eng 0).task) = [⟨0, 9, 1, 0, 0, .slot 0⟩] := by decide
theorem witness_done : let s := (withItem (jvi (.done 0 2) (at2 9)) (.taken 0)).wrB Reg.TEX_DCTL_DET true
    let c := (((s.settled 0 []).fenced 0).eng 0).ctx
    Ready s 0 (.done 0 2) ∧ c.tag 2 = false ∧ s.bit Reg.TEX_DCTL_DET = true ∧
      s.tex.items.filter (fun x => x.flume == (c.greg 2).toNat % 4096) = [⟨0, 9, 1, 0, 0, .taken 0⟩] := by decide
theorem witness_done_normal : let s := (withItem (jvi (.done 0 2) (at2 9)) (.taken 0)).wrB Reg.TEX_DCTL_DET false
    let u := (s.settled 0 []).fenced 0
    Ready s 0 (.done 0 2) ∧ (u.eng 0).ctx.tag 2 = false ∧ u.bit Reg.TEX_DCTL_DET = false ∧
      u.tex.items.filter (fun x => x.flume == ((u.eng 0).ctx.greg 2).toNat % 4096) = [⟨0, 9, 1, 0, 0, .taken 0⟩] := by decide
theorem witness_cend_publishes : let s := jvi (.cend 0) {}
    let u := (s.settled 0 []).fenced 0
    Ready s 0 (.cend 0) ∧ u.tex.items = [] ∧ ((u.task (s.eng 0).task).kind ≠ 1 ∨ (u.task (s.eng 0).task).pubAt ≤ u.T) := by decide
theorem witness_cend : let s := (jvi (.cend 0) {}).setTask 0 { kind := 1, desc := { clen := 1 }, pubAt := 1 }
    Ready s 0 (.cend 0) ∧ s.tex.items = [] ∧ (s.task 0).kind = 1 ∧ s.T < (s.task 0).pubAt := by decide

/-! ### Witnesses: registers and the Landing -/

theorem witness_register_write : z.hif.d3 = false ∧ z.pwr.recovery = false ∧ z.bit Reg.TLY_RSTAT_RUN = false ∧ z.tly.deferred = [] ∧ (2 : Nat) ≠ 4 ∧
    0xFFFFF % 4 ≠ 0 := by decide
theorem witness_register_write_recording : (z.wrB Reg.TLY_RSTAT_RUN true).bit Reg.TLY_RSTAT_RUN = true := by decide
/-- A read, a write and a merge at the last codeword. -/
abbrev lastReq (op : LndOp) : LndReq := ⟨2, 0, 0x2FFFFF8, op⟩
theorem witness_requests : z.lnd.waiting = [] ∧ z.lnd.blocked = [] ∧ (lastReq (.read 0)).off < lndSize ∧ z.retTouched 0x2FFFFF8 8 = [] ∧
    z.loadsOf (lastReq (.read 0)) < portShare 2 ∧
    (z.landing.decode (z.lndCw 0x2FFFFF8)).2 = .clean ∧ (lastReq (.read 0)).op = .read 0#80 ∧ (lastReq (.read 0)).port = 2 ∧
    (lastReq (.write 0xFF 1 true)).op = .write 0xFF#8 1 true ∧ (lastReq (.rmw 1 2)).op = .rmw 1 2 := by decide +kernel
theorem witness_requests_two : (⟨7, 0, 0x2FFFFF8, .read 0⟩ : LndReq).off = (lastReq (.read 0)).off ∧ (⟨7, 0, 0x2FFFFF8, .read 0⟩ : LndReq).port = 7 := by decide
theorem witness_requests_share : let s := z.setEng 3 { loads := List.replicate 16 ⟨31, false, 1, true⟩ }
    portShare 0 ≤ s.loadsOf ⟨0, 3, 0, .read 0⟩ ∧ s.lnd.waiting = [] ∧ s.lnd.blocked = [] := by decide
/-- A request that waits. -/
abbrev waitingReq : LndWait := { req := lastReq (.read 0), seq := 5, waited := 64, raised := false }
theorem witness_raised : waitingReq ∈ ({ z with lnd := { z.lnd with waiting := [waitingReq] } } : State).lnd.waiting ∧ 64 ≤ waitingReq.waited := by
  decide
/-- Codeword 0 of bank 0 with flipped cells, the scrubber on. -/
abbrev upset (m : BitVec 80) : State := (z.setMem .land (({} : Mem).upset 0 m)).wrB Reg.LND_CTL_SCRUBEN true
theorem witness_scrub : ∀ p ∈ [(0, CwClass.clean), (1, .ce1 0), (3, .ce2 0 1), (0x10101, .ue)], let s := upset (BitVec.ofNat 80 p.1)
    s.bit Reg.LND_CTL_SCRUBEN = true ∧ s.lnd.scrubPos < scrubTotal ∧ s.scrubSkips (scrubTarget s.lnd.scrubPos).1 (scrubTarget s.lnd.scrubPos).2 = false ∧
      ((s.mem (scrubTarget s.lnd.scrubPos).1).decode (scrubTarget s.lnd.scrubPos).2).2 = p.2 := by decide +kernel
theorem witness_scrub_skips : let s := (upset 1).wr Reg.LND_PHSTAT_STATE bankCopying 0
    (scrubTarget s.lnd.scrubPos).1 = .land ∧ s.rd Reg.LND_PHSTAT_STATE ((scrubTarget s.lnd.scrubPos).2 / bankWords) = bankCopying := by decide +kernel
theorem witness_scrub_end : scrubTotal ≤ ({ z with lnd := { z.lnd with scrubPos := scrubTotal } } : State).lnd.scrubPos := by decide
/-- The last codeword of bank 33 has been corrected `n` times. -/
abbrev repeated (n : Nat) : RptEntry := { mem := .land, cw := 33 * bankWords + 196607, count := n, watch := false, pass := 0, order := 0 }
theorem witness_repeat : let s : State := { z with lnd := { z.lnd with filter := [repeated 255] } }
    s.rptFind .land (33 * bankWords + 196607) = some (repeated 255) ∧ (repeated 255).watch = false ∧ s.thresh ≤ (repeated 255).count := by decide +kernel
theorem witness_page_retire : z.bit Reg.LND_RCTL_VALID 255 = false ∧ (z.wrB Reg.LND_RCTL_PERSIST true 255).bit Reg.LND_RCTL_PERSIST 255 = true := by
  decide
/-- Two entries of the error log. -/
abbrev logged : State := { z with lnd := { z.lnd with elog := [⟨1, 2, 0, 5⟩, ⟨2, 2, 0, 6⟩] } }
theorem witness_error_log : logged.lnd.elog.length ≤ 64 ∧ logged.lnd.elog = [⟨1, 2, 0, 5⟩, ⟨2, 2, 0, 6⟩] := by decide
theorem witness_mram : (z.mram.decode (z.mramOfs / 8)).2 = .clean ∧ z.mramOpen z.mramOfs = false := by decide +kernel
theorem witness_mram_open : let s := (z.wrB Reg.LND_MWP_CFG true).wr Reg.LND_MOFS_OFS (0x47FFF8 / 8)
    s.mramOpen s.mramOfs = true := by decide
theorem witness_bank_copy : z.lnd.copy = none ∧ z.rd Reg.LND_BCPY_LOGB < 32 ∧ z.rd Reg.LND_BCPY_DST ≠ z.rd Reg.LND_BMAP_PHYS (z.rd Reg.LND_BCPY_LOGB) ∧
    z.rd Reg.LND_BCPY_DST ≤ 33 ∧ z.rd Reg.LND_PHSTAT_STATE (z.rd Reg.LND_BCPY_DST) = bankFree := by decide
theorem witness_bank_copy_refused : let s := z.wr Reg.LND_BCPY_DST 0
    s.lnd.copy = none ∧ s.rd Reg.LND_BCPY_DST = s.rd Reg.LND_BMAP_PHYS (s.rd Reg.LND_BCPY_LOGB) := by decide
theorem witness_bank_copy_done : let s : State := { z with lnd := { z.lnd with copy := some (31, 33) } }
    s.lnd.copy = some (((31 : Fin 32)).val, ((33 : Fin 34)).val) ∧ s.landing.flips = [] ∧ s.rd Reg.LND_BMAP_PHYS 31 ≠ 33 ∧ s.rd Reg.LND_BMAP_PHYS 31 < 34 := by
  decide
theorem witness_bank_test : let s := z.wr Reg.LND_BTEST_PHYS 33
    s.lnd.test = none ∧ s.rd Reg.LND_BTEST_PHYS ≤ 33 ∧ s.rd Reg.LND_PHSTAT_STATE (s.rd Reg.LND_BTEST_PHYS) = bankFree := by decide
theorem witness_bank_test_refused : z.lnd.test = none ∧ z.rd Reg.LND_PHSTAT_STATE (z.rd Reg.LND_BTEST_PHYS) = bankInService := by decide
theorem witness_bank_test_done : ({ z with lnd := { z.lnd with test := some 33 } } : State).lnd.test = some ((33 : Fin 34)).val ∧
    (1 : BitVec 80) ≠ 0#80 := by decide

/-! ### Witnesses: control law, axes, compare and capture -/

/-- Ring 7 past its deadline with a pass ready, whose first descriptor begins with a codeword. -/
abbrev passUp (w : Cw) (len : Nat) : State :=
  (((z.setRing 7 { live := true, begun := true, dDone := true, per := 524280, slin := 3000 }).setPass 7 { phase := .ready }).wr Reg.CLE_PCH_LEN len 7).setMem .land
    (({} : Mem).put (z.lndCw (z.loopAt 0)) w)
/-- The state when the first slot of that pass has gone by. -/
abbrev slotOf (s : State) : State := (s.passRun 7).advanceEdge (s.time.edge + slotEdges 1)
theorem witness_pass_ready : let s := passUp ⟨0x08000000, false⟩ 4096
    (s.pass_ 7).phase = .ready ∧ (s.pass_ 7).count = 0 ∧ (∀ m < 7, (s.pass_ m).phase = .none) ∧ s.gensDone 7 = true ∧
      (slotOf s).T < ((slotOf s).ring 7).seal_ := by decide +kernel
theorem witness_pass_len0 : let s := passUp ⟨0x08000000, false⟩ 0
    (s.pass_ 7).phase = .ready ∧ (s.pass_ 7).count = 0 ∧ s.gensDone 7 = true ∧ s.rd Reg.CLE_PCH_LEN 7 = 0 ∧ (slotOf s).T < ((slotOf s).ring 7).seal_ := by
  decide +kernel
theorem witness_pass_end : let s := passUp ⟨0x08000000, false⟩ 4096
    let d := ((slotOf s).lndRead clePort ((slotOf s).loopAt 0) 16).1
    psnOf d 0 = false ∧ bitAt (loOf d 0) 27 = true := by decide +kernel
theorem witness_pass_next : let s := passUp ⟨9, false⟩ 2
    let d := ((slotOf s).lndRead clePort ((slotOf s).loopAt 0) 16).1
    psnOf d 0 = false ∧ bitAt (loOf d 0) 27 = false ∧ 1 < s.rd Reg.CLE_PCH_LEN 7 := by decide +kernel
theorem witness_pass_chain : let s := passUp ⟨9, false⟩ 1
    let d := ((slotOf s).lndRead clePort ((slotOf s).loopAt 0) 16).1
    psnOf d 0 = false ∧ bitAt (loOf d 0) 27 = false ∧ s.rd Reg.CLE_PCH_LEN 7 = 1 := by decide +kernel
theorem witness_pass_poison : psnOf ((slotOf (passUp ⟨9, true⟩ 1)).lndRead clePort ((slotOf (passUp ⟨9, true⟩ 1)).loopAt 0) 16).1 0 = true := by
  decide +kernel
theorem witness_preempt : let s := (z.setPass 7 { phase := .running }).setPass 0 { phase := .running }
    (s.pass_ 7).phase = .running ∧ s.lowerPass 7 = true := by decide
theorem witness_resume : let s := z.setPass 7 { phase := .preempted }
    (s.pass_ 7).phase = .preempted ∧ s.lowerPass 7 = false := by decide
/-- An evaluation whose descriptor holds zeros. -/
abbrev someRun : LoopRun :=
  ⟨List.replicate 16 ⟨0, false⟩, {}, ⟨0, 0, 0, 0, 0, 0, 0, 0, 0, 0⟩, 0, 0, false, false, false, false, false, 0, {}, {}⟩
theorem witness_output_limits : fGt b32 (hiOf someRun.d 9) 0 = false ∧ fLt b32 (loOf someRun.d 8) (hiOf someRun.d 8) = false := by decide +kernel

/-- Compare unit 63 enabled on channel 23, with the state given. -/
abbrev unitUp (x : CcSt) : State := (((z.setCc 63 x).wrB Reg.AXS_CCCFG_EN true 63).wr Reg.AXS_CCCFG_SRCN 23 63).wrB Reg.AXS_CCCFG_OUTEN false 63
theorem witness_compare_enqueue : let s := unitUp { seen := true, judged := true }
    let f := s.ccFollow 63
    let r := f.lndWord axsPort (f.ccAt 63)
    let x : CcSt := { r.2.cc 63 with cput := r.1.1 }
    s.bit Reg.AXS_CCCFG_EN 63 = true ∧ r.1.2 = false ∧ x.level ≤ 16 ∧ x.seen = true ∧ x.judged = true := by decide +kernel
theorem witness_compare_full : let s := unitUp { seen := true, judged := true, cget := 0xFFFFFFEF }
    let f := s.ccFollow 63
    let r := f.lndWord axsPort (f.ccAt 63)
    r.1.2 = false ∧ 16 < ({ r.2.cc 63 with cput := r.1.1 } : CcSt).level := by decide +kernel
theorem witness_compare_poison : let s := (unitUp { seen := true }).setMem .land (({} : Mem).put (z.lndCw ((unitUp {}).ccAt 63)) ⟨0, true⟩)
    ((s.ccFollow 63).lndWord axsPort ((s.ccFollow 63).ccAt 63)).1.2 = true := by decide +kernel
/-- The head entry where the Landing holds nothing: position 0, rising. -/
abbrev entry0 : CcEntry := ⟨0, 0, false, false, 0⟩
theorem witness_compare_fire : let s := unitUp { seen := true, judged := true, cput := 1, cur := -1 }
    let x := { s.cc 63 with prev := (s.cc 63).cur, cur := 0, smpAt := s.time.edge }
    s.bit Reg.AXS_CCCFG_EN 63 = true ∧ s.ccSource 63 = some 0 ∧ s.rd Reg.AXS_CCCFG_SRCK 63 = 0 ∧ x.seen = true ∧ x.judged = true ∧ x.level = 1 ∧
      x.passedNext = false ∧ ((s.setCc 63 x).ccHead 63).1 = some entry0 ∧ x.crosses entry0 = true ∧ x.cget < 2 ^ 32 ∧
      entry0.event = false ∧ ((s.setCc 63 x).ccHead 63).2.bit Reg.AXS_CCCFG_OUTEN 63 = false := by decide +kernel
theorem witness_compare_follow : let s := ((unitUp { seen := true }).wr Reg.AXS_CCCFG_SRCK 1 63).wr Reg.AXS_CCCFG_SRCN 7 63
    s.bit Reg.AXS_CCCFG_EN 63 = true ∧ s.ccSource 63 = some 0 ∧ s.rd Reg.AXS_CCCFG_SRCK 63 ≠ 0 := by decide
theorem witness_compare_no_fire : let s := unitUp { seen := true, judged := true, cput := 1, cur := 0 }
    let x := { s.cc 63 with prev := (s.cc 63).cur, cur := 0, smpAt := s.time.edge }
    ((s.setCc 63 x).ccHead 63).1 = some entry0 ∧ x.level ≠ 0 ∧ x.crosses entry0 = false := by decide +kernel
theorem witness_pulse : let s := unitUp { pulse := some 0 }
    (s.cc 63).pulse = some 0 ∧ s.time.edge ≤ 0 ∧ s.rd Reg.AXS_CCCFG_SRCK 63 ≠ 1 ∧ (((s.advanceEdge 0).ccFollow 63).cc 63).pulse = some 0 := by decide
theorem witness_capture_edge : let s := (unitUp {}).wrB Reg.AXS_CCCAP_CAPEN true 63
    s.bit Reg.AXS_CCCFG_EN 63 = true ∧ s.bit Reg.AXS_CCCAP_CAPEN 63 = true ∧ s.ccSource 63 = some 0 ∧ s.rd Reg.AXS_CCCAP_EDGE 63 < 2 := by
  decide
theorem witness_capture_confirm : let s := unitUp { cap := some (-1, 2, 0), kput := 15 }
    (s.cc 63).cap = some (-1, 2, 0) ∧ s.time.edge ≤ 0 ∧ (s.cc 63).kept < 16 := by decide
theorem witness_capture_full : let s := unitUp { cap := some (-1, 2, 0), kput := 16 }
    (s.cc 63).cap = some (-1, 2, 0) ∧ s.time.edge ≤ 0 ∧ 16 ≤ (s.cc 63).kept := by decide
theorem witness_capture_release : ((unitUp {}).lndWord axsPort ((unitUp {}).ccAt 63 + 12)).1.2 = false ∧
    let s := (unitUp {}).setMem .land (({} : Mem).put (z.lndCw ((unitUp {}).ccAt 63 + 12)) ⟨0, true⟩)
    (s.lndWord axsPort (s.ccAt 63 + 12)).1.2 = true := by decide +kernel

/-! ### Witnesses: position feedback and conversion -/

/-- Channel 23 runs in a mode. -/
abbrev chan (x : FbSt) (mode : Nat) : State := (z.setFb 23 { x with run := true }).wr Reg.FBK_CFG_MODE mode 23
theorem witness_quadrature : let s := chan { qseen := true } fmInc
    (s.fb 23).run = true ∧ s.fbMode 23 = fmInc ∧ (s.fb 23).qseen = true ∧ s.ccWatchers 0 23 = [] ∧ true ≠ (s.fb 23).qa ∧
      false = (s.fb 23).qb ∧ true ≠ (s.fb 23).qb ∧ (s.fb 23).lastEdge = none ∧ s.rd Reg.FBK_CFG_FILT 23 ≤ 511 := by decide +kernel
theorem witness_sincos : (chan {} fmSincos).fbMode 23 = fmSincos ∧ (chan {} fmSincos).ccWatchers 0 23 = [] := by decide +kernel
theorem witness_amplitude : let s := chan {} fmSincos
    (s.fb 23).ampWarn = false ∧ s.outWarn 23 0xFFFF = true ∧ s.outFault 23 0 = true ∧ s.outWarn 23 0xA3D = false ∧ s.outFault 23 0x2400 = false := by
  decide
theorem witness_amplitude_set : let s := chan { ampWarn := true, ampFlt := true, line := true } fmSincos
    (s.fb 23).ampWarn = true ∧ (s.fb 23).ampFlt = true ∧ (s.fb 23).line = true := by decide
theorem witness_zmark_short : let s := (chan {} fmInc).wr Reg.FBK_CFG_FILT 4 23
    (s.fb 23).run = true ∧ s.fbMode 23 = fmInc ∧ 3 < s.rd Reg.FBK_CFG_FILT 23 := by decide
theorem witness_zmark_armed : let s := (chan {} fmInc).wrB Reg.FBK_ZCTL_ZARM true 23
    (s.fb 23).run = true ∧ s.rd Reg.FBK_CFG_FILT 23 ≤ 4 ∧ s.bit Reg.FBK_ZCTL_ZARM 23 = true := by decide
/-- A referenced channel with CPR and ZTOL at a position in 48.16. -/
abbrev marked (pos : Int) (cpr tol : Nat) : State := ((chan { zref := true, pos := pos } fmInc).wr Reg.FBK_ZCFG_CPR cpr 23).wr Reg.FBK_ZCFG_ZTOL tol 23
theorem witness_zmark_in : [(0, 1, 0), (65536, 4, 1), (-65536, 4, 1)].all (fun p =>
    let s := marked p.1 p.2.1 p.2.2
    let turn : Int := 65536 * s.rd Reg.FBK_ZCFG_CPR 23
    let r := ((s.fb 23).pos - sInt 64 (s.rd Reg.FBK_ZPOSL_POS 23 + s.rd Reg.FBK_ZPOSH_POS 23 * 2 ^ 32)) % turn
    !s.bit Reg.FBK_ZCTL_ZARM 23 && (s.fb 23).zref && decide (s.rd Reg.FBK_ZCFG_CPR 23 ≠ 0) &&
      decide (r ≤ 65536 * s.rd Reg.FBK_ZCFG_ZTOL 23 ∨ turn - 65536 * s.rd Reg.FBK_ZCFG_ZTOL 23 ≤ r)) = true := by decide
theorem witness_zmark_out : [65537, -65537].all (fun p =>
    let s := marked p 4 1
    let turn : Int := 65536 * s.rd Reg.FBK_ZCFG_CPR 23
    let r := ((s.fb 23).pos - sInt 64 (s.rd Reg.FBK_ZPOSL_POS 23 + s.rd Reg.FBK_ZPOSH_POS 23 * 2 ^ 32)) % turn
    decide (65536 * s.rd Reg.FBK_ZCFG_ZTOL 23 < r) && decide (r < turn - 65536 * s.rd Reg.FBK_ZCFG_ZTOL 23)) = true := by decide
theorem witness_observer_invalid : let s := chan { line := true } fmInc
    (s.fb 23).run = true ∧ (s.fb 23).posok (s.fbMode 23) = false := by decide
theorem witness_observer_valid : let s := chan { obs := { run := true } } fmInc
    (s.fb 23).run = true ∧ (s.fb 23).posok (s.fbMode 23) = true ∧ (s.fb 23).obs.run = true ∧ (s.fb 23).standstill = false ∧
      (s.time.edge / 200 + 1) * 200 < (s.fb 23).lastChange + s.fbStill 23 ∧ s.time.edge ≤ (s.fb 23).lastChange + s.fbStill 23 := by decide
theorem witness_observer_restart : let s := chan {} fmInc
    (s.fb 23).run = true ∧ (s.fb 23).posok (s.fbMode 23) = true ∧ (s.fb 23).obs.run = false := by decide
theorem witness_settling : let s := chan { settle := some 0, reversal := some 0 } fmInc
    s.time.edge ≤ 0 ∧ (s.fb 23).settle = some 0 ∧ (s.fb 23).reversal = some 0 := by decide
theorem witness_record : let l : FbLatch := ⟨1, 2, 0, 0, 2 ^ 31⟩
    let s := chan { latch := some l } fmInc
    (s.fb 23).latch = some l ∧ (s.fb 23).frame = none ∧ bitAt l.stat 31 = true := by decide
theorem witness_ssi_good : let l : FbLatch := ⟨1, 2, 0, 0, 2 ^ 31⟩
    let s := chan { latch := some l, frame := some 1 } fmSsi
    (s.fb 23).latch = some l ∧ (s.fb 23).frame = some 1 ∧ s.fbMode 23 = fmSsi ∧ s.ccWatchers 0 23 = [] ∧
      (s.ssiValue 23 ⟨5, false, false, true⟩).isSome = true ∧ (s.fb 23).ssi = none := by decide +kernel
theorem witness_ssi_bad : (chan { frame := some 1 } fmSsi).ssiValue 23 ⟨5, false, false, false⟩ = none := by decide
theorem witness_ssi_load : let s := chan { want := true } fmBoth
    (s.fb 23).run = true ∧ (s.fb 23).want = true ∧ (s.ssiValue 23 ⟨5, false, false, true⟩).isSome = true ∧ s.ccWatchers 0 23 = [] := by decide +kernel

/-- Converter 15 configured for channel 60 on ring 0. -/
abbrev adcUp : State := (z.wr Reg.CNV_ENT_CH 60 15 0).wr Reg.HST_RDLIN_DLIN 200 0
theorem witness_converter : adcUp.bit Reg.CNV_CFG_EN 15 = false ∧ adcUp.isTaken 15 = false ∧ adcUp.adcValid 15 = true := by decide
theorem witness_converter_invalid : let s := adcUp.wr Reg.CNV_ENT_CH 72 15 0
    s.bit Reg.CNV_CFG_EN 15 = false ∧ s.isTaken 15 = false ∧ s.adcValid 15 = false := by decide
theorem witness_converter_taken : let s := adcUp.wrB Reg.CNV_CFG_ILV true 14
    s.isTaken 15 = true ∧ s.isTaken 14 = false := by decide
theorem witness_converter_wake : let s := (z.setRing 0 { live := true, next := 4000 }).wrB Reg.CNV_STAT_PWRDN true 15
    s.bit Reg.CNV_STAT_PWRDN 15 = true ∧ (s.ring (s.rd Reg.CNV_CFG_RING 15)).live = true ∧ s.T ≤ (s.ring (s.rd Reg.CNV_CFG_RING 15)).next := by decide
theorem witness_conversion : let s := (z.setAdc 14 { todo := [7], avg := 2 }).wrB Reg.CNV_STAT_RUN true 14
    s.bit Reg.CNV_STAT_RUN 14 = true ∧ s.isPair 14 = false ∧ (s.adc 14).todo.head? = some ((7 : Fin 8)).val ∧
      ([0, 1] : List (BitVec 18)).length = (s.adc 14).avg ∧ (s.adc 14).refBad = false ∧
      classify 0x10101 = .ue ∧ ([0, 1] : List (BitVec 18)).all (fun c => !codeOvr c.toInt) = true := by decide +kernel
theorem witness_reference : z.bit Reg.CNV_REFSTAT_REFOK ≠ true ∧ (z.wrB Reg.CNV_REFSTAT_REFOK true).bit Reg.CNV_REFSTAT_REFOK ≠ false := by decide
theorem witness_burst : let s := z.setIlPair 7 { run := true, begun := true, count := 16 }
    (s.ilPair 7).run = true ∧ (s.ilPair 7).begun = true ∧ (List.replicate 16 (0 : BitVec 18)).length = 16 ∧
      (s.ilPair 7).widx + 15 < (s.ilPair 7).kidx + (s.ilPair 7).count := by decide
theorem witness_dac : (z.lndRead cnvPort (z.rd Reg.CNV_DBASE_BASE * 64 + 60) 1).1 = [⟨0, false⟩] ∧ z.dacCode 15 0 = some 0 ∧ z.outOn 0 = false := by decide +kernel
theorem witness_dac_poison : let s := z.setMem .land (({} : Mem).put (z.lndCw (z.rd Reg.CNV_DBASE_BASE * 64 + 56)) ⟨0, true⟩)
    (s.lndRead cnvPort (s.rd Reg.CNV_DBASE_BASE * 64 + 60) 1).1 = [⟨0, true⟩] := by decide +kernel
theorem witness_dac_apply : let s := (((z.wr Reg.TRH_ENSIGN_E 8).setDac 15 { code := some (-5) }).wrB Reg.PWR_STAT_OUTREL true).wrB Reg.CNV_DCFG_EN true 15
    s.outOn 0 = true ∧ s.bit Reg.CNV_DCFG_EN 15 = true ∧ s.rd Reg.CNV_DCFG_RING 15 = 0 ∧ (s.dac 15).code = some (-5) := by decide

/-! ### Witnesses: programs, tasks, dispatcher -/

/-- RUN, with no task configured. -/
abbrev running : State := z.wr Reg.TEX_PSTAT_STATE 1
theorem witness_run : z.progState = 0 ∧ z.takeConfig.1 = 0 := by decide +kernel
theorem witness_run_rejected : let s := z.wr Reg.TEX_TCFG_KIND 2 255
    s.progState = 0 ∧ s.takeConfig.1 ≠ 0 := by decide +kernel
theorem witness_stop : running.progState = 1 ∧ running.tex.stopping = false := by decide
theorem witness_stopped : let s : State := { running with tex := { running.tex with stopping := true } }
    s.tex.stopping = true ∧ (allTasks.any fun k => (s.task k).isOpen || (s.task k).toPublish) = false := by decide +kernel
theorem witness_snapshot : (z.setTstate 255 stSnap).tstate 255 = stSnap := by decide
theorem witness_publish : ((z.setTask 255 { toPublish := true }).task 255).toPublish = true ∧ ((z.setTask 255 { toPublish := true }).task 255).desc.nout ≤ 0 + 0 := by
  decide
theorem witness_publish_part : let s := z.setTask 255 { toPublish := true, desc := { nout := 3 }, pubNext := 1 }
    (s.task 255).toPublish = true ∧ (s.task 255).pubNext + 1 < (s.task 255).desc.nout := by decide
/-- Force 1023 as written, and another in use on the same word. -/
abbrev forced (fs : Tab ForceSt) : State := { z.wrB Reg.TEX_FCTL_ACT true 1023 with tex := { z.tex with forces := fs } }
theorem witness_force : let x := (forced []).forceShadow 1023
    (x.act && (forced []).tex.forces.any fun kf => kf.1 != 1023 && kf.2.act && kf.2.out == x.out && kf.2.addr == x.addr) = false := by decide
theorem witness_force_twice : let x := (forced []).forceShadow 1023
    let s := forced [(0, x)]
    (x.act && s.tex.forces.any fun kf => kf.1 != 1023 && kf.2.act && kf.2.out == x.out && kf.2.addr == x.addr) = true ∧
      s.forceShadow 1023 = x := by decide
theorem witness_checkpoint : z.progState ≠ 2 ∧ z.tex.ck = none := by decide
theorem witness_checkpoint_timer : let s := z.wr Reg.TEX_CKCFG_CKPER 1
    s.rd Reg.TEX_CKCFG_CKPER ≠ 0 ∧ s.progState ≠ 2 ∧ s.tex.ck = none ∧
      s.time.edge ≤ s.tex.ckTimer + s.rd Reg.TEX_CKCFG_CKPER * 100 * edgesPerMs := by decide
/-- A checkpoint that still needs task 255. -/
abbrev gathering : CkSt := ⟨[255], [], 0, true, false⟩
theorem witness_gather_timeout : let s : State := { z with tex := { z.tex with ck := some gathering } }
    s.tex.ck = some gathering ∧ gathering.powerFail = true ∧ gathering.need ≠ [] ∧ s.time.edge ≤ gathering.startAt + 2 * edgesPerMs := by decide
/-- A checkpoint that has every area: there is none. -/
abbrev gathered : CkSt := ⟨[], [], 0, false, false⟩
theorem witness_commit : let s : State := { z with tex := { z.tex with ck := some gathered } }
    s.tex.ck = some gathered ∧ gathered.need = [] := by decide
theorem witness_cold : running.progState = 1 := by decide
theorem witness_warm_none : ((((running.restartClear true).reloadCode).initAll).newestSlot).1 = none := by decide +kernel
/-- RUN with a checkpoint of no tasks in MRAM. -/
abbrev kept : State :=
  match exec .checkpointCommit { running with tex := { running.tex with ck := some gathered } } with
  | .next t => t
  | _ => z
theorem witness_warm : let u := (((kept.restartClear true).reloadCode).initAll).newestSlot
    kept.progState = 1 ∧ u.1.isSome = true ∧ (u.1.map u.2.retMatch) = some true := by decide +kernel
theorem witness_warm_other : let s := kept.setTask 255 { kind := 2, desc := { retLen := 8 } }
    let u := (((s.restartClear true).reloadCode).initAll).newestSlot
    u.1.isSome = true ∧ (u.1.map u.2.retMatch) = some false := by decide +kernel
/-- The descriptors and the checks of an online change. -/
abbrev ocRead (s : State) : List TaskDesc × State :=
  (s.wrB Reg.TEX_OCCTL_ARM true).readDescs (s.ocTasks.map fun k => (k, 1 - s.rd Reg.TEX_TCFG_BANK k))
abbrev ocNew (s : State) : List TaskDesc := (ocRead s).1.filter fun x => s.ocTasks.contains x.task && kindEnabled (s.rd Reg.TEX_TCFG_KIND x.task)
abbrev ocRun (s : State) : List TaskDesc := (allTasks.filter fun k => kindEnabled (s.task k).kind).map fun k => (⟨k, (s.task k).desc, false⟩ : TaskDesc)
abbrev ocCheck (s : State) : Nat × State :=
  let kept := (allTasks.filter fun k => kindEnabled (s.task k).kind && !s.ocTasks.contains k).map fun k => (⟨k, (s.task k).desc, false⟩ : TaskDesc)
  (ocRead s).2.checkDescs (kept ++ ocNew s) (ocNew s) true
abbrev ocClean (s : State) : Bool := !((ocRead s).1.any fun x => !x.poison && !x.desc.loaded) && !((ocRead s).1.any fun x => x.poison)
/-- Task 255 is affected; its staged bank has the given first and FLAGS codewords. -/
abbrev ocStaged (hdr flags : Cw) : State :=
  let s := (z.wr Reg.TEX_OCMASK_MASK 0x80000000 7).wr Reg.TEX_TCFG_KIND 2 255
  s.setMem .land ((({} : Mem).put (s.lndCw (128 * 255 + 64)) hdr).put (s.lndCw (128 * 255 + 104)) flags)
theorem witness_change_armed : z.tex.oc = none ∧ ocClean z = true ∧ (ocCheck z).1 = 0 ∧
    ((ocCheck z).2.loadCode (ocCheck z).2.pool (ocRun z ++ ocNew z) (ocNew z)).1 = true := by
  decide +kernel
theorem witness_change_not_loaded : let s := ocStaged ⟨0, false⟩ ⟨0, false⟩
    s.tex.oc = none ∧ ((ocRead s).1.any fun x => !x.poison && !x.desc.loaded) = true := by decide +kernel
theorem witness_change_poison : let s := ocStaged ⟨0, true⟩ ⟨1, false⟩
    s.tex.oc = none ∧ ((ocRead s).1.any fun x => !x.poison && !x.desc.loaded) = false ∧ ((ocRead s).1.any fun x => x.poison) = true := by decide +kernel
theorem witness_change_refused : let s := ocStaged ⟨1, false⟩ ⟨1, false⟩
    s.tex.oc = none ∧ ocClean s = true ∧ (ocCheck s).1 ≠ 0 ∧ (ocCheck s).1 < 16 := by decide +kernel
theorem witness_change_load : let s := ocStaged ⟨0, false⟩ ⟨1, false⟩
    s.tex.oc = none ∧ ocClean s = true ∧ (ocCheck s).1 = 0 ∧
      ((ocCheck s).2.loadCode (ocCheck s).2.pool (ocRun s ++ ocNew s) (ocNew s)).1 = false := by decide +kernel
theorem witness_change_switch_cyclic : let s : State := { (z.setRing 5 { live := true, begun := true }).setTask 255 { kind := 1, ring := 5 } with
      tex := { ((z.setRing 5 { live := true, begun := true }).setTask 255 { kind := 1, ring := 5 }).tex with oc := some ([255], 0) } }
    s.tex.oc = some ([255], 0) ∧ [255].find? (fun x => (s.task x).kind == 1 || s.rd Reg.TEX_TCFG_KIND x == 1) = some ((255 : Fin 256)).val ∧
      (s.ring 5).live = true ∧ (s.ring 5).begun = true ∧ (s.ring 5).dDone = false ∧ (s.task 255).ring = 5 := by decide
theorem witness_change_switch : let s : State := { z with tex := { z.tex with oc := some ([((255 : Fin 256)).val], 0) } }
    s.tex.oc = some ([255], 0) ∧ (s.task 255).kind ≠ 1 ∧ s.rd Reg.TEX_TCFG_KIND 255 ≠ 1 ∧ (s.task 255).isOpen = false ∧
      (s.task 255).toPublish = false ∧ s.time.edge ≤ 0 := by decide
/-- Task 255 is READY. -/
abbrev ready255 : State := z.setTstate 255 stReady
theorem witness_dispatch : (ready255.task 255).hasCtx = false ∧ ready255.readyOrder = [255] ∧ ready255.idleFor 255 = some 0 := by decide +kernel
/-- Engine 7 alone is in the pool and runs task 3 of low priority; task 255 is READY. -/
abbrev full : State :=
  (((ready255.wr Reg.TEX_EPOOL_MEMBER 128).setTask 255 { prio := 0 }).setTask 3 { prio := 63 }).setEng 7 { busy := true, task := 3 }
theorem witness_preemption : full.readyOrder = [255] ∧ full.idleFor 255 = none ∧ full.victimFor 255 = some 7 ∧ (full.eng 7).task = 3 ∧
    (full.fenceDone 7).ctxSavable 3 = true ∧ full.tex.items = [] ∧
    (full.task 255).hasCtx = false := by decide +kernel
theorem witness_none_ready : z.readyOrder = [] := by decide +kernel
theorem witness_flags : z.replaying = false ∧ z.det = false ∧ (z.task 255).wait = none ∧ (z.wrB Reg.TEX_DCTL_DET true).det = true ∧
    (z.wrB Reg.TEX_DCTL_DET true).replaying = false := by decide
/-- A wait of task 255 that has come to its tick. -/
abbrev someWait : WaitSt := ⟨1, false, true, some 0, some 9⟩
theorem witness_wait_timeout : let s := (z.setTask 255 { wait := some someWait }).setTstate 255 stWait
    (s.task 255).wait = some someWait ∧ someWait.due = some 0 ∧ someWait.rd = some 9 ∧ s.tstate 255 = stWait ∧ s.det = false ∧
      someWait.holds (s.flags 255) = false ∧ s.replaying = false ∧ (allTasks.filter fun m => s.expiresAt m == some 0) = [((255 : Fin 256)).val] := by
  decide +kernel
theorem witness_wait_timeout_det : let s := ((z.setTask 255 { wait := some someWait }).setTstate 255 stWait).wrB Reg.TEX_DCTL_DET true
    (s.task 255).wait = some someWait ∧ someWait.due = some 0 ∧ s.tstate 255 = stWait ∧ s.det = true ∧ s.replaying = false ∧
      (allTasks.filter fun m => s.expiresAt m == some 0) = [((255 : Fin 256)).val] := by decide +kernel
theorem witness_delay_expiry : let s := (z.setTask 255 { delayDue := some 0 }).setTstate 255 stDelay
    (s.task 255).delayDue = some 0 ∧ s.tstate 255 = stDelay ∧ s.replaying = false ∧
      (allTasks.filter fun m => s.expiresAt m == some 0) = [((255 : Fin 256)).val] := by decide +kernel
theorem witness_boundary : let h : HeldEffect := ⟨0, 4, 0, 0, .setF 255 5⟩
    let s0 := z.wrB Reg.TEX_DCTL_DET true
    let s : State := { s0 with tex := { s0.tex with held := [h] } }
    s.hif.cmds = [] ∧ s.tly.deferred = [] ∧ s.det = true ∧ s.tex.held = [h] ∧ h.stamp < (s.advanceTo ((s.dtick + 1) * 1000)).dtick ∧
      s.tex.items = [] ∧ (s.task 255).wait = none ∧ s.replaying = false := by decide
theorem witness_slot : let s := (withItem (z.setEng 7 { busy := true, task := 255 }) .queued).wrB Reg.TEX_DCFG_GEN true 255
    let g := s.rd Reg.TEX_DCFG_GRP 255
    (s.eng 7).busy = true ∧ s.det = false ∧ s.bit Reg.TEX_DCFG_GEN (s.eng 7).task = true ∧ s.bit Reg.TEX_GCFG_NOSLOT g = false ∧
      (s.tex.items.filter fun x => x.place == .slot (s.eng 7).task).length < 2 ∧ (s.nextHead g).1 = some ⟨0, 9, 1, 0, 0, .queued⟩ := by decide +kernel
theorem witness_engine_leave : z.isMember 7 = true ∧ (z.eng 7).busy = false ∧ (1 : Fin 4) ≠ 0 := by decide
theorem witness_engine_join : let s := z.wr Reg.TEX_EPOOL_MEMBER 127
    s.isMember 7 = false ∧ bitAt (s.rd Reg.TEX_EPOOL_TESTING) 7 = false ∧ s.tex.joining.contains 7 = false := by decide
theorem witness_engine_test : let s := z.wr Reg.TEX_EPOOL_TESTING 128
    bitAt (s.rd Reg.TEX_EPOOL_TESTING) 7 = true ∧ (allTasks.filter fun k => kindEnabled (s.kindInUse k) && s.inMask k 7) = [] := by decide +kernel
theorem witness_pool_entry : let s : State := { z with tex := { z.tex with joining := [7] } }
    s.tex.joining.contains 7 = true ∧ s.det = false := by decide
theorem witness_pool_entry_det : let s : State := { z.wrB Reg.TEX_DCTL_DET true with tex := { (z.wrB Reg.TEX_DCTL_DET true).tex with joining := [7] } }
    s.tex.joining.contains 7 = true ∧ s.det = true ∧ s.replaying = false ∧ s.hif.cmds = [] ∧ s.tly.deferred = [] ∧
      s.dtick < (s.advanceTo ((s.dtick + 1) * 1000)).dtick := by decide

/-! ### Witnesses: host interface -/

theorem witness_host_ring : z.bit Reg.HIF_RCFG_EN 41 = false ∧ z.hostRingValid 41 = true := by decide
theorem witness_host_ring_invalid : let s := z.wr Reg.HIF_RCFG_LOG2 17 41
    s.bit Reg.HIF_RCFG_EN 41 = false ∧ s.hostRingValid 41 = false := by decide
theorem witness_host_ring_run : (z.wrB Reg.HIF_RSTAT_RUN true 41).bit Reg.HIF_RSTAT_RUN 41 = true ∧ z.bit Reg.HIF_RSTAT_RUN 41 = false := by decide
/-- A command with FLAGS 0 and this Landing offset, data and mask. -/
abbrev cmd (laddr : Word) (data : BitVec 64) (mask : Word) : HifCmd := { opc := 0, flags := 0, tag := 1, laddr := laddr, data := data, mask := mask, arg := 0, hnum := 0, hring := 0, rest := 0 }
/-- A command in the ring, with no word read for it. -/
abbrev cmdSt (held posting : Bool) (moved : Option Nat) : HifCmdSt :=
  { d := { cmd 0 0 0 with hnum := 5, hring := 7 }, words := [], fail := none, held := held, posting := posting, pause := none, moved := moved }
/-- The ring holds one command. -/
abbrev holding (c : HifCmdSt) (s : State) : State := { s with hif := { s.hif with cmds := [c] } }
theorem witness_ring_disable : ∀ c ∈ (holding (cmdSt false false none) z).hif.cmds.take 1, c.posting = false ∧ c.held = false ∧ c.moved = none := by decide
theorem witness_ring_disable_posting : (holding (cmdSt false true none) z).hif.cmds = [cmdSt false true none] ∧ (cmdSt false true none).posting = true := by decide
theorem witness_ring_disable_held : (cmdSt true false none).posting = false ∧ (cmdSt true false none).held = true := by decide
theorem witness_ring_disable_moved : (cmdSt false false (some 3)).posting = false ∧ (cmdSt false false (some 3)).held = false ∧
    (cmdSt false false (some 3)).moved ≠ none := by decide
/-- The command ring and CPL run, the host's count at 5 with the module's at 1. -/
abbrev hostUp : State :=
  { ((z.wrB Reg.HIF_RSTAT_RUN true 0).wrB Reg.HIF_RSTAT_RUN true 1).wr Reg.HIF_RCNT_CNT 1 0 with hif := { z.hif with host := [(0, 5)] } }
theorem witness_doorbell : hostUp.bit Reg.HIF_RSTAT_RUN 0 = true ∧ (6#32).toNat ≠ hostUp.hostCount 0 ∧
    0 ≤ sInt 32 ((257#32).toNat + 2 ^ 32 - hostUp.hostCount 0) ∧
    sInt 32 ((257#32).toNat + 2 ^ 32 - hostUp.rd Reg.HIF_RCNT_CNT 0) ≤ hostUp.ringSlots 0 := by decide
theorem witness_doorbell_back : (4#32).toNat ≠ hostUp.hostCount 0 ∧ sInt 32 ((4#32).toNat + 2 ^ 32 - hostUp.hostCount 0) < 0 := by decide
theorem witness_doorbell_states : hostUp.hif.d3 = false ∧ hostUp.tly.deferred = [] ∧ ({ hostUp.hif with d3 := true } : HifSt).d3 = true ∧
    ({ hostUp with tly := { hostUp.tly with deferred := [(0x30008, 1, [])] } } : State).tly.deferred ≠ [] ∧ hostProduces 0 = true := by decide
/-- The completion ring and a record stream with three entries written of which the host has taken none. -/
abbrev consumed (k : Nat) : State := (z.wrB Reg.HIF_RSTAT_RUN true k).wr Reg.HIF_RCNT_CNT 3 k
theorem witness_doorbell_consumer : [1, 34].all (fun k => (consumed k).bit Reg.HIF_RSTAT_RUN k && !hostProduces k &&
    decide ((3#32).toNat ≠ (consumed k).hostCount k) && decide (0 ≤ sInt 32 ((3#32).toNat + 2 ^ 32 - (consumed k).hostCount k)) &&
    decide (sInt 32 ((3#32).toNat + 2 ^ 32 - (consumed k).rd Reg.HIF_RCNT_CNT k) ≤ 0)) = true := by decide
theorem witness_event : let s : State := { hostUp with hif := { hostUp.hif with waits := [.event 1 2] } }
    s.hif.waits = .event 1 2 :: [] ∧ s.hif.cmds = [] ∧ s.ringRoom 1 = true := by decide
theorem witness_interrupt : let s0 := hostUp.wrB Reg.HIF_RCFG_IEN true 41
    let s : State := { s0 with hif := { s0.hif with unsig := [(41, 1)], msixOn := true } }
    tabAt 0 s.hif.unsig 41 ≠ 0 ∧ s.bit Reg.HIF_RCFG_IEN 41 = true ∧ max 1 (s.rd Reg.HIF_RIMOD_ICNT 41) ≤ tabAt 0 s.hif.unsig 41 ∧
      s.hif.msixOn = true ∧ s.hif.msixMask = false ∧ s.bit Reg.MSIX_WORD (s.rd Reg.HIF_RCFG_VEC 41) 3 = false := by decide
theorem witness_ready : (z.wrB Reg.PWR_BSTAT_BLAZE true).bit Reg.PWR_BSTAT_BLAZE = true ∧ z.bit Reg.HIF_STAT_READY = false ∧
    (z.wrB Reg.HIF_STAT_READY true).bit Reg.HIF_STAT_READY = true := by decide
theorem witness_config : hasCapability true 0x3FF = false ∧ CfgReq.read 0 ≠ .unsupported := by decide
theorem witness_commands : CmdReady hostUp ∧ (cmd 0 0 0).flags = 0#8 ∧ ({ cmd 0 0 0 with flags := 1#8 } : HifCmd).flags = 1#8 ∧ 6 < (7#8).toNat := by decide
theorem witness_wr64 : let la := (cmd 0x2FFFFF8 0 0).laddr.toNat
    la % 8 = 0 ∧ la + 8 ≤ lndSize ∧ hostUp.retTouched la 8 = [] := by decide +kernel
theorem witness_wr64_range : (cmd 0x3000000 0 0).laddr.toNat % 8 = 0 ∧ lndSize < (cmd 0x3000000 0 0).laddr.toNat + 8 := by decide
theorem witness_mwr32 : let la := (cmd 0x2FFFFFC 0 0).laddr.toNat
    la % 4 = 0 ∧ la + 4 ≤ lndSize ∧ hostUp.onRetired la = false ∧
      (hostUp.landing.decode (hostUp.lndCw (la / 8 * 8))).1.poison = false := by decide +kernel
theorem witness_copyin : let d := cmd 0x2FFFFF0 8 16
    let words : List (BitVec 64 × Bool) := [(1, false), (2, false)]
    d.flags = 0#8 ∧ d.laddr.toNat % 8 = 0 ∧ d.data.toNat % 8 = 0 ∧ d.mask.toNat = 8 * words.length ∧ words ≠ [] ∧ d.mask.toNat ≤ 1048576 ∧
      d.laddr.toNat + d.mask.toNat ≤ lndSize ∧ hostUp.movable d.laddr.toNat words.length = words.length ∧ (words.all fun w => !w.2) = true := by
  decide +kernel
theorem witness_copyout : let d := cmd 0x2FFFFF8 8 8
    d.flags = 0#8 ∧ d.laddr.toNat % 8 = 0 ∧ d.data.toNat % 8 = 0 ∧ d.mask.toNat = 8 * 1 ∧ (1 : Nat) ≠ 0 ∧ d.mask.toNat ≤ 1048576 ∧
      d.laddr.toNat + d.mask.toNat ≤ lndSize ∧ hostUp.movable d.laddr.toNat 1 = 1 := by decide +kernel
theorem witness_copyout_poison : let s := hostUp.setMem .land (({} : Mem).put (hostUp.lndCw 0x2FFFFF8) ⟨1, true⟩)
    ((State.readSeq hifPort 0x2FFFFF8 1 s).1.any fun w => w.poison) = true ∧ CmdReady s := by decide +kernel
theorem witness_cmd_flags : hostUp.det = false ∧ (hostUp.task ((cmd 0 0 0).arg.toNat % 256)).wait = none ∧
    (hostUp.wrB Reg.TEX_DCTL_DET true).det = true ∧ CmdReady (hostUp.wrB Reg.TEX_DCTL_DET true) := by decide
theorem witness_post_refused : (hostUp.postNow 0 0 false 4 0).1 ≠ 0 := by decide +kernel
/-- A command held for hoist 5 of ring 7. -/
abbrev heldCmd : HifCmdSt := cmdSt true false none
/-- The command ring runs and holds it. -/
abbrev heldUp (s : State) : State := holding heldCmd ((s.wrB Reg.HIF_RSTAT_RUN true 0).wrB Reg.HIF_RSTAT_RUN true 1)
theorem witness_held_stopped : let s := heldUp z
    s.hif.cmds = heldCmd :: [] ∧ heldCmd.held = true ∧ s.bit Reg.HIF_RSTAT_RUN 0 = true ∧ s.bit Reg.HST_RSTAT_RUN (heldCmd.d.hring.toNat % 8) = false ∧
      s.ringRoom 1 = true ∧ s.hif.waits = [] := by decide
theorem witness_held_due : let s := heldUp ((z.setRing 7 { live := true, begun := true, per := 160, next := 100000 }).wrB Reg.HST_RSTAT_RUN true 7)
    s.hif.cmds = heldCmd :: [] ∧ s.bit Reg.HST_RSTAT_RUN 7 = true ∧
      (s.bit Reg.HST_RINGCTL_EN 7 = false ∨ sInt 32 (heldCmd.d.hnum.toNat + 2 ^ 32 - (s.ring 7).hnum (s.ring 7).next) ≤ 0) := by decide
theorem witness_held_hoist : sInt 32 (heldCmd.d.hnum.toNat + 2 ^ 32 - 5) = 0 ∧ sInt 32 (heldCmd.d.hnum.toNat + 2 ^ 32 - 6) < 0 := by decide
/-- A set-point descriptor for hoist 5, slot 7, rung at T = 0. -/
abbrev someSp : SpDesc := ⟨BitVec.ofNat 256 (5 * 2 ^ 192 + 7 * 2 ^ 224), 0⟩
theorem witness_setpoint : let s0 := ((z.setRing 7 { live := true, begun := true, per := 160, next := 100000 }).wrB Reg.HIF_RSTAT_RUN true 33).wr Reg.HIF_SPCFG_RING 7 33
    let s : State := { s0.wr Reg.HIF_SPCFG_NSLOT 8 33 with hif := { s0.hif with sps := [(33, [someSp])] } }
    s.bit Reg.HIF_RSTAT_RUN 33 = true ∧ s.rd Reg.HIF_SPCFG_RING 33 = 7 ∧ tabAt [] s.hif.sps 33 = [someSp] ∧ someSp.rest = 0 ∧
      sInt 32 (someSp.hnum + 2 ^ 32 - (s.ring 7).hnum (s.ring 7).next) ≤ 0 ∧ someSp.hnum = 5 ∧ someSp.slot < s.rd Reg.HIF_SPCFG_NSLOT 33 ∧
      someSp.rang + 10000 ≤ 10000 ∧ 9999 < someSp.rang + 10000 := by decide
theorem witness_bar2_d3 : ({ z with hif := { z.hif with d3 := true } } : State).hif.d3 = true := by decide
theorem witness_bar2 : z.hif.d3 = false ∧ (0x2FFFFF8#26).toNat % 8 = 0 ∧ (0x2FFFFF8#26).toNat + 8 ≤ lndSize ∧
    z.retTouched (0x2FFFFF8#26).toNat 8 = [] ∧ (z.lnd.waiting.all fun w => w.req.port.val != hifPort) = true ∧
    (z.readCw .land (z.lndCw (0x2FFFFF8#26).toNat) hifPort).1.poison = false := by decide +kernel

/-! ### Witnesses: networks and CAN -/

/-- Port 3 enabled with PTP, its link up; the servo owns the rate. -/
abbrev netUp : State :=
  (((((z.wrB Reg.NET_PTPCFG_EN true).wr Reg.NET_PTPCFG_PORTS 8).wrB Reg.NET_PCFG_EN true 3).wrB Reg.NET_PSTAT_LINK true 3).wr Reg.NET_PTPPST_STATE 0x4000).wrB
    Reg.HST_TCTL_SERVO true
theorem witness_ptp : netUp.ptpOn 3 = true ∧ netUp.bit Reg.NET_PSTAT_LINK 3 = true ∧ netUp.ptpSlavePort = none ∧ netUp.inGuard 3 = false ∧
    netUp.replaying = false ∧ (0#8).toNat = netUp.ptpDomain ∧ (255#8).toNat ≠ netUp.ptpDomain := by decide
theorem witness_ptp_send : let s := netUp.setPtpState 3 ptpMaster
    s.ptpSends 3 0 = true ∧ s.ptpSends 3 5 = false ∧ (s.advanceEdge (s.ptpDue 3 0)).inGuard 3 = false ∧ s.replaying = false := by decide
/-- The same with port 3 in SLAVE. -/
abbrev slave : State := netUp.setPtpState 3 ptpSlave
theorem witness_grandmaster : slave.ptpOn 3 = true ∧ slave.bit Reg.NET_PSTAT_LINK 3 = true ∧ slave.ptpSlavePort ≠ none ∧
    slave.gmId ≠ (⟨0, 1, none⟩ : PtpResult).gm.toNat := by decide
/-- Station 5 on ring 0 behind port 3, and ring 0 close to its seal. -/
abbrev guarded : State :=
  { (netUp.setRing 0 { live := true, begun := true, per := 160, slin := 2000, next := 20000 }).wrB Reg.NET_PCFG_PNEN true 3 with
    net := { netUp.net with stations := [(5, { state := 6, rcd := { en := true, pmask := 8 } })] } }
theorem witness_guard : guarded.ptpOn 3 = true ∧ guarded.bit Reg.NET_PSTAT_LINK 3 = true ∧ guarded.inGuard 3 = true ∧
    guarded.ptpSends 3 12 = true ∧ (guarded.advanceEdge (guarded.ptpDue 3 12)).inGuard 3 = true := by decide
theorem witness_sync_other : netUp.ptpState 3 ≠ ptpSlave := by decide
theorem witness_sync : slave.ptpState 3 = ptpSlave ∧ slave.bit Reg.HST_TSTAT_SLEWBUSY = false ∧ slave.net.qual = none ∧
    slave.bit Reg.HST_TCTL_SERVO = true ∧ (5 : Int).natAbs ≤ slave.rd Reg.NET_SRVTHR_THR * 65536 ∧
    slave.rd Reg.NET_SRVTHR_THR * 65536 < (2 ^ 40 : Int).natAbs ∧ slave.anyRing = false := by decide
theorem witness_sync_ring : (slave.wrB Reg.HST_RINGCTL_EN true 7).anyRing = true ∧ (slave.wrB Reg.HST_RINGCTL_EN true 7).ptpOn 3 = true := by decide
theorem witness_listening : let s : State := { netUp with net := { netUp.net with listen := [(3, 1)] } }
    s.ptpOn 3 = true ∧ tabAt 0 s.net.listen 3 = 0 + 1 := by decide
theorem witness_holdover : let s : State := { slave with net := { slave.net with qual := some 65535 } }
    s.ptpSlavePort ≠ none ∧ s.net.qual = some 65535 ∧ max 1 (s.rd Reg.NET_SRVCFG_HOLDQ) ≤ 65535 := by decide
theorem witness_holdover_orphan : ({ netUp with net := { netUp.net with orphan := true } } : State).net.orphan = true := by decide
theorem witness_link_same : z.bit Reg.NET_PSTAT_LINK 3 = false := by decide
theorem witness_link : netUp.bit Reg.NET_PCFG_EN 3 = true ∧ netUp.bit Reg.NET_PSTAT_LINK 3 ≠ false ∧ netUp.tly.queue.length < 64 := by decide
/-- The side path of port 3. -/
abbrev sideUp : State := netUp.wrB Reg.NET_PCFG_SIDEEN true 3
/-- A frame of 60 bytes for the side path. -/
abbrev someFrame : List Byte := List.replicate 12 1#8 ++ [8#8, 0#8] ++ List.replicate 46 2#8
theorem witness_side_receive : sideUp.bit Reg.NET_PCFG_EN 3 = true ∧ sideUp.bit Reg.NET_PSTAT_LINK 3 = true ∧ 60 ≤ someFrame.length ∧ someFrame.length ≤ 1518 ∧
    sideUp.netClass 3 (ethParse someFrame) = .side ∧
    (tabAt 0 sideUp.net.rxput 3 + 2 ^ 32 - (sideUp.lndWord netPort (sideUp.sideAt 3 + 12)).1.1) % 2 ^ 32 ≠ 16 := by decide +kernel
theorem witness_side_bad : (someFrame.drop 1).length < 60 ∧ 1518 < (List.replicate 1519 0#8).length := by decide +kernel
theorem witness_side_other : netUp.netClass 3 (ethParse someFrame) ≠ .side := by decide +kernel
theorem witness_side_full : let s : State := { sideUp with net := { sideUp.net with rxput := [(3, 16)] } }
    (tabAt 0 s.net.rxput 3 + 2 ^ 32 - (s.lndWord netPort (s.sideAt 3 + 12)).1.1) % 2 ^ 32 = 16 := by decide +kernel
theorem witness_side_guard : let s := guarded.wrB Reg.NET_PCFG_SIDEEN true 3
    s.bit Reg.NET_PCFG_SIDEEN 3 = true ∧ s.inGuard 3 = true := by decide
/-- TXPUT of port 3 is `put` and its first slot holds a frame of `len` bytes whose EtherType is given. -/
abbrev sideFull (put len : Cw) (ty : DWord) : State :=
  sideUp.setMem .land (((({} : Mem).put (z.lndCw (sideUp.sideAt 3)) put).put (z.lndCw (sideUp.sideAt 3 + 0x1000)) len).put
    (z.lndCw (sideUp.sideAt 3 + 0x1000 + 40)) ⟨ty, false⟩)
theorem witness_side_idle : let s := sideUp
    s.inGuard 3 = false ∧ (s.lndWord netPort (s.sideAt 3)).1 = (0, false) ∧ 0 = tabAt 0 s.net.txget 3 := by decide +kernel
theorem witness_side_poison : ((sideFull ⟨1, true⟩ ⟨60, false⟩ 0).lndWord netPort (sideUp.sideAt 3)).1.2 = true := by decide +kernel
/-- What a side slot is judged by: TXPUT, whether its header reads poisoned, its length, and whether it holds a PTP event message. -/
abbrev slotSeen (s : State) : (Nat × Bool) × (Bool × (Nat × Bool)) :=
  let r := s.lndWord netPort (s.sideAt 3)
  let h := r.2.lndBytes netPort (s.sideAt 3 + 0x1000) 8
  let len := leNat (h.1.1.take 2)
  (r.1, h.1.2, len, (ethParse (h.2.lndBytes netPort (s.sideAt 3 + 0x1000 + 32) len).1.1).ptpEvent)
theorem witness_side_send : (sideFull ⟨1, false⟩ ⟨60, false⟩ 0).inGuard 3 = false ∧ tabAt 0 (sideFull ⟨1, false⟩ ⟨60, false⟩ 0).net.txget 3 = 0 ∧
    slotSeen (sideFull ⟨1, false⟩ ⟨60, false⟩ 0) = ((1, false), false, 60, false) := by decide +kernel
theorem witness_side_skip : slotSeen (sideFull ⟨1, false⟩ ⟨59, false⟩ 0) = ((1, false), false, 59, false) ∧
    (slotSeen (sideFull ⟨1, false⟩ ⟨60, true⟩ 0)).2.1 = true ∧
    slotSeen (sideFull ⟨1, false⟩ ⟨60, false⟩ 0x0000F78800000000) = ((1, false), false, 60, true) := by decide +kernel

/-- The record of station 254 enabled. -/
abbrev recOn : State := z.setMem .land (({} : Mem).put (z.lndCw (z.rd Reg.NET_STBASE_BASE * 16384 + 64 * 254)) ⟨0x8000000000000001, false⟩)
theorem witness_station_on : isStation 254 = true ∧ isStation 255 = false ∧ (recOn.stnRecord 254).1.en = true ∧ (recOn.stn 254).state = stnOff := by decide +kernel
theorem witness_station_stays : let s := recOn.setStn 254 { state := stnCyclic }
    (s.stnRecord 254).1.en = true ∧ (s.stn 254).state ≠ stnOff ∧ (s.stn 254).state ≠ stnIdle := by decide +kernel
theorem witness_station_none : (z.stnRecord 254).1.en = false ∧ (z.stn 254).state = stnOff := by decide +kernel
/-- A station in a state. -/
abbrev stnIn (x : StnSt) : State := (z.wr Reg.TRH_ENSIGN_E 8).setStn 254 x
theorem witness_station_off : let s := stnIn { state := stnIdle }
    (s.stnRecord 254).1.en = false ∧ (s.stn 254).state ≠ stnOff := by decide +kernel
theorem witness_station_drop : let s := stnIn { state := stnCyclic, run := 255 }
    s.asCyclic 254 = true ∧ max 1 (s.rd Reg.NET_PNCFG_DROPN) ≤ (s.stn 254).run := by decide
theorem witness_admit : let s : State := { stnIn { state := stnAssign, wait := true } with net := { (stnIn { state := stnAssign, wait := true }).net with bperiod := 8 } }
    (s.stn 254).wait = true ∧ (s.stn 254).due = false ∧ (s.stn 254).sentAt + 8 ≤ s.net.bperiod ∧ (s.stn 254).resends < 3 := by decide
theorem witness_admit_fails : 3 ≤ ((stnIn { state := stnAssign, wait := true, resends := 3 }).stn 254).resends := by decide
/-- Pennant on port 3, enabled; the MAC 01 ×6 belongs to station 254. -/
abbrev pnUp (x : StnSt) : State :=
  (((((stnIn { x with rcd := { en := true, mac := List.replicate 6 1#8, inLen := 8 } }).wrB Reg.NET_PCFG_EN true 3).wrB Reg.NET_PSTAT_LINK true 3).wrB Reg.NET_PCFG_PNEN true 3).wrB
    Reg.NET_PNCFG_EN true)
/-- A Pennant frame of a kind from a station: hoist, claim, and the first 16 bytes after its header. -/
abbrev pnFrame (kind len : Nat) (src : Byte) (hnum : Nat := 9) (claim : Nat := 0) (rest : List Byte := List.replicate 16 0#8) : List Byte :=
  List.replicate 6 0#8 ++ List.replicate 6 src ++ [0x88#8, 0xB6#8] ++ leBytes 1 (16 + kind) ++ leBytes 1 0 ++ leBytes 2 len ++ leBytes 4 claim ++
    leBytes 4 hnum ++ leBytes 1 0 ++ leBytes 1 254 ++ leBytes 2 0 ++ rest ++ List.replicate 14 0#8
/-- What such a frame is taken for. -/
abbrev taken (s : State) (f : List Byte) : Option (List Byte × PnHdr) := (s.pnArrive 3 f true).1.map fun x => (x.1.src, x.2.1)
abbrev pnHdr (kind len : Nat) (hnum : Nat := 9) (claim : Nat := 0) (rest : List Byte := List.replicate 16 0#8) : PnHdr :=
  ⟨1, kind, 0, len, claim, hnum, 0, 254, rest⟩
/-- The start of a HAIL: its type and parameter. -/
abbrev hailRest (ty parm : Nat) : List Byte := leBytes 4 ty ++ leBytes 4 parm ++ leBytes 8 0
theorem witness_hail : let s := pnUp { state := stnIdle }
    taken s (pnFrame 1 0 1) = some (List.replicate 6 1#8, pnHdr 1 0) ∧ s.stnByMac (List.replicate 6 1#8) = some 254 ∧
      fieldAt (pnHdr 1 0).rest 0 1 = 0 ∧ s.enabled = true ∧ (s.stn 254).state = stnIdle ∧ s.net.queue = [] := by decide +kernel
theorem witness_hail_unknown : let s := pnUp { state := stnIdle }
    taken s (pnFrame 1 0 7) = some (List.replicate 6 7#8, pnHdr 1 0) ∧ s.stnByMac (List.replicate 6 7#8) = none ∧ s.net.disc = [] := by decide +kernel
/-- A HAIL of station 254 as it arrives. -/
abbrev hailed (x : StnSt) (ty parm : Nat) : Bool :=
  let s := pnUp x
  let h := pnHdr 1 0 9 0 (hailRest ty parm)
  decide (taken s (pnFrame 1 0 1 9 0 (hailRest ty parm)) = some (List.replicate 6 1#8, h)) && decide (fieldAt h.rest 0 1 = ty) && decide (fieldAt h.rest 4 4 = parm)
theorem witness_hail_assign : hailed { state := stnAssign, wait := true } 1 0 = true ∧ ((pnUp { state := stnAssign, wait := true }).stn 254).wait = true := by
  decide +kernel
/-- A station that takes a parameter block of 16 bytes. -/
abbrev paramStn : State :=
  (pnUp {}).setStn 254 { state := stnParam, wait := true, rcd := { en := true, mac := List.replicate 6 1#8, inLen := 8, pLen := 16 } }
theorem witness_hail_param : taken paramStn (pnFrame 1 0 1 9 0 (hailRest 1 8)) = some (List.replicate 6 1#8, pnHdr 1 0 9 0 (hailRest 1 8)) ∧
    taken paramStn (pnFrame 1 0 1 9 0 (hailRest 1 16)) = some (List.replicate 6 1#8, pnHdr 1 0 9 0 (hailRest 1 16)) ∧
    (paramStn.stn 254).state = stnParam ∧ 8 % 8 = 0 ∧ 8 < (paramStn.stn 254).rcd.pLen ∧ 16 = (paramStn.stn 254).rcd.pLen := by decide +kernel
theorem witness_hail_ready : hailed { state := stnReadyWait } 2 (crc32c []) = true ∧ hailed { state := stnReadyWait } 2 1 = true ∧
    crc32c ((pnUp { state := stnReadyWait }).stn 254).sent ≠ 1 := by decide +kernel
/-- Ring 0 in a period. -/
abbrev cyclicUp (x : StnSt) (dDone : Bool) : State := (pnUp { x with state := stnCyclic }).setRing 0 { live := true, begun := true, per := 160, dDone := dDone }
theorem witness_cycle_up : let s := cyclicUp {} false
    taken s (pnFrame 4 8 1 0) = some ((s.stn 254).rcd.mac, pnHdr 4 8 0) ∧ (s.stn 254).rcd.en = true ∧ s.asCyclic 254 = true ∧
      (s.stn 254).rcd.ring = 0 ∧ (s.stn 254).rcd.inLen = 8 ∧ (s.ring 0).begun = true ∧ (s.ring 0).dDone = false ∧ (s.ring 0).now = 0 ∧
      (s.stn 254).got ≠ 0 + 1 := by decide +kernel
theorem witness_cycle_up_held : let s := cyclicUp {} true
    (s.ring 0).dDone = true ∧ (s.ring 0).sDone = false ∧ (s.ring 0).now = 0 ∧ (s.stn 254).got ≠ 0 + 1 := by decide +kernel
theorem witness_cycle_up_late : let s := cyclicUp {} false
    taken s (pnFrame 4 8 1 0xFFFFFFFF) = some ((s.stn 254).rcd.mac, pnHdr 4 8 0xFFFFFFFF) ∧ 0xFFFFFFFF ≠ (s.ring 0).now ∧
      sInt 32 (0xFFFFFFFF + 2 ^ 32 - (s.ring 0).now) < 0 := by decide +kernel
theorem witness_cycle_up_twice : ((cyclicUp { got := 1 } false).stn 254).got = 0 + 1 := by decide
theorem witness_cycle_down : taken (pnUp {}) (pnFrame 3 8 1) = some (List.replicate 6 1#8, pnHdr 3 8) ∧
    taken (pnUp {}) (pnFrame 3 8 1 9 9) = some (List.replicate 6 1#8, pnHdr 3 8 9 9) ∧ (pnUp {}).ensign ≠ 0 ∧ (pnUp {}).ensign < 9 ∧ 8 ≤ (pnUp {}).ensign := by
  decide +kernel

/-- CAN controller 3 in a state. -/
abbrev canUp (x : CanSt) : State := (z.wr Reg.TRH_ENSIGN_E 8).setCan 3 x
theorem witness_can_valid :
    let s := ((z.wr Reg.CAN_NBT_NTSEG1 1 3).wr Reg.CAN_NBT_NTSEG2 1 3).wr Reg.CAN_DBT_DBRP 15 3
    s.bit Reg.CAN_CCFG_EN 3 = false ∧ s.canValid 3 = true := by decide
theorem witness_can_invalid : let s := z.wr Reg.CAN_NBT_NTSEG1 0 3
    s.bit Reg.CAN_CCFG_EN 3 = false ∧ s.canValid 3 = false := by decide
theorem witness_can_listen : ((canUp { phase := 1 }).canC 3).phase = 1 ∧ (canUp { phase := 1 }).time.edge ≤ ((canUp { phase := 1 }).canC 3).listenEnd ∧
    ((canUp { phase := 2 }).canC 3).phase = 2 := by decide
theorem witness_can_request : let s := canUp { phase := 3, reqs := [130] }
    (s.canC 3).phase ≠ 0 ∧ z.canC 3 = {} ∧ 130 ∈ (s.canC 3).reqs ∧ 130 < 131 := by decide
theorem witness_can_integrate : z.rd Reg.CAN_STAT_FCS 3 ≠ 2 ∧ z.bit Reg.CAN_FLAG_ERFE 3 = false ∧
    let s := (z.wr Reg.CAN_STAT_FCS 2 3).wr Reg.CAN_LEC_BORC 126 3
    s.rd Reg.CAN_STAT_FCS 3 = 2 ∧ s.rd Reg.CAN_LEC_BORC 3 < 127 := by decide
/-- Request 0 stands, and its abort bit. -/
abbrev canAborting (cur : Option Nat) : State :=
  (canUp { phase := 3, reqs := [0], cur := cur }).setMem .land (({} : Mem).put (z.lndCw (z.canAt 3)) ⟨0x100000001, false⟩)
theorem witness_can_abort : let s := canAborting none
    (s.canReqWords 3 4 0x20 []).1 = [0] ∧ (s.canC 3).reqs = [0] ∧ (s.canC 3).cur = none := by decide +kernel
theorem witness_can_abort_current : ((canAborting (some 0)).canReqWords 3 4 0x20 []).1 = [0] ∧ ((canAborting (some 0)).canC 3).cur = some 0 ∧
    0 ∈ ((canAborting (some 0)).canC 3).reqs := by decide +kernel
theorem witness_can_start : let s := canUp { phase := 3, reqs := [2] }
    (s.canC 3).phase = 3 ∧ s.rd Reg.CAN_STAT_FCS 3 ≠ 2 ∧ (s.canC 3).cur = none ∧ s.bit Reg.CAN_CCFG_LOM 3 = false ∧ s.replaying = false ∧
      (s.wrB Reg.CAN_CCFG_GATE false 3).canHeld 3 = false ∧ s.bit Reg.CAN_CCFG_TXPRI 3 = false := by decide
theorem witness_can_lowest : let s := (canUp { phase := 3, reqs := [2] }).wrB Reg.CAN_CCFG_GATE false 3
    (State.canLowest 3 none (s.canC 3).reqs s).1.map (fun x => x.1) = some 2 ∧ (State.canLowest 3 none [] s).1.isNone = true ∧
      (State.canFirst 3 (s.canC 3).reqs s).1.map (fun x => x.1) = some 2 := by decide +kernel
theorem witness_can_held : z.canHeld 3 = true := by decide
/-- A frame of no data. -/
abbrev someCan : CanFrame := ⟨false, false, false, false, false, 0x7FF, 0, []⟩
theorem witness_can_end : let s := canUp { phase := 3, reqs := [2], cur := some 2, curFrame := some someCan, tec := 247 }
    (s.canC 3).cur = some 2 ∧ (s.canC 3).curFrame = some someCan ∧ 2 ∈ (s.canC 3).reqs ∧ (s.canC 3).abortCur = false ∧ (5 : Fin 8) ≠ 1 ∧ (5 : Fin 8) ≠ 3 ∧
      (s.canC 3).tec + 8 + 8 * 0 ≤ 255 := by decide
theorem witness_can_end_aborted : let s := canUp { phase := 3, reqs := [2], cur := some 2, curFrame := some someCan, abortCur := true }
    (s.canC 3).cur = some 2 ∧ (s.canC 3).curFrame = some someCan ∧ 2 ∈ (s.canC 3).reqs ∧ (s.canC 3).abortCur = true := by decide
theorem witness_can_dominant : ((canUp { phase := 3 }).wrB Reg.CAN_CCFG_LOM false 3).canDrives 3 = true ∧ z.canDrives 3 = false := by decide
theorem witness_can_collision : let s := canUp { phase := 3, colId := some (true, 2 ^ 29 - 1), colCount := 3 }
    (s.canC 3).colId = some (true, 2 ^ 29 - 1) ∧ 3 ≤ (s.canC 3).colCount ∧ (s.canC 3).colTold = false ∧ (s.canC 3).phase ≠ 0 := by decide
theorem witness_can_busoff : (z.wr Reg.CAN_STAT_FCS 2 3).rd Reg.CAN_STAT_FCS 3 = 2 := by decide
/-- Object 0 of controller 3 takes every frame: into the object, or into the queue. -/
abbrev canMatching (w : DWord) (x : CanSt) : State := (canUp { x with phase := 3 }).setMem .land (({} : Mem).put (z.lndCw (z.canObj 3 0)) ⟨w, false⟩)
theorem witness_can_object : let s := canMatching 0x80000000 {}
    (s.canC 3).phase ≠ 0 ∧ s.rd Reg.CAN_STAT_FCS 3 ≠ 2 ∧ someCan.fdf = false ∧ s.replaying = false ∧ s.bit Reg.CAN_FLAG_RXFE 3 = false ∧
      (State.canMatch 3 someCan (upFrom 0 128) (s.canRecDown 3)).2.recorded 7 = false ∧
      (State.canMatch 3 someCan (upFrom 0 128) (s.canRecDown 3)).2.traced 7 = false ∧
      (State.canMatch 3 someCan (upFrom 0 128) (s.canRecDown 3)).1 = some (0, false, 0) := by decide +kernel
theorem witness_can_queue : let s := canMatching 0xA0000000 {}
    (State.canMatch 3 someCan (upFrom 0 128) (s.canRecDown 3)).1 = some (0, true, 0) ∧
      ((s.canC 3).rxput + 2 ^ 32 - (s.canC 3).rxget) % 2 ^ 32 < 64 := by decide +kernel
theorem witness_can_queue_full : 64 ≤ (((canMatching 0xA0000000 { rxput := 64 }).canC 3).rxput + 2 ^ 32 - ((canMatching 0xA0000000 { rxput := 64 }).canC 3).rxget) % 2 ^ 32 := by
  decide
theorem witness_can_none : let s := (canMatching 0 { rec_ := 127 }).wrB Reg.CAN_CCFG_ACCNM false 3
    let u := State.canMatch 3 someCan (upFrom 0 128) (s.canRecDown 3)
    u.1 = none ∧ u.2.bit Reg.CAN_CCFG_ACCNM 3 = false ∧ (s.canC 3).rec_ ≤ 127 := by decide +kernel
theorem witness_can_error : let s := (canUp { phase := 3 }).wrB Reg.CAN_CCFG_PXHD false 3
    (s.canC 3).phase ≠ 0 ∧ s.rd Reg.CAN_STAT_FCS 3 ≠ 2 ∧ s.bit Reg.CAN_CCFG_PXHD 3 = false ∧ (s.wrB Reg.CAN_CCFG_PXHD true 3).bit Reg.CAN_CCFG_PXHD 3 = true ∧
      (s.lndWord canPort (s.canAt 3 + 12)).1.2 = false := by decide +kernel
theorem witness_can_rxget_poison : let s := (canUp { phase := 3 }).setMem .land (({} : Mem).put (z.lndCw (z.canAt 3 + 12)) ⟨0, true⟩)
    (s.lndWord canPort (s.canAt 3 + 12)).1.2 = true ∧ (s.canC 3).phase ≠ 0 := by decide +kernel

/-! ### Witnesses: safety -/

/-- A block whose listed bytes are not 0, without its check value. -/
abbrev blockBody (l : List (Nat × Byte)) : List Byte := (upFrom 0 0x7FC).map fun i => tabAt (0 : Byte) l i
/-- The header bytes of a block in range, and what follows them. -/
abbrev headBytes (l : List (Nat × Byte)) : List (Nat × Byte) :=
  [(0, 0x46#8), (1, 0x41#8), (2, 0x53#8), (3, 0x4B#8), (4, 1#8), (7, 8#8), (8, 1#8), (10, 10#8), (12, 100#8)] ++ l
/-- The least block, nothing in use: its bytes under the check value. -/
abbrev leastBody : List Byte := [0x46#8, 0x41#8, 0x53#8, 0x4B#8, 1#8, 0#8, 0#8, 8#8, 1#8, 0#8, 10#8, 0#8, 100#8] ++ List.replicate 2031 0#8
/-- With its check value. -/
abbrev goodBlock : List Byte := leastBody ++ leBytes 4 4150795533
theorem goodBlock_crc : blockCrc goodBlock = 4150795533 := by
  have h : goodBlock.take 0x7FC = leastBody := by decide +kernel
  rw [blockCrc, h, crc32c_eq_run]; decide +kernel
/-- The island in a module state, with a block in use. -/
abbrev island (m : Nat) (l : List (Nat × Byte)) (f : SafSt → SafSt) : State :=
  { (z.wr Reg.SAF_STAT_MSTATE m) with saf := f { z.saf with block := some (blockBody (headBytes l)) } }
/-- Input 11 in mode 1 with a filter of 20 ms. -/
abbrev in11 : List (Nat × Byte) := [(0x20 + 176, 1#8), (0x20 + 177, 1#8), (0x20 + 178, 20#8)]

theorem witness_saf_cycle : let d : SafObs := ⟨List.replicate 24 0, 0, 0, false, false, false, true, false, false⟩
    let s := island msNormal [] id
    s.time.edge ≤ s.saf.cycAt + 50000 ∧ ¬ 3 * 64 ∈ s.saf.conds ∧ s.mstate ≠ msSafe ∧ s.saf.found = [] ∧ ({ d with smem := true } : SafObs).smem = true ∧
      (3, 0) = (s.saf.found ++ [(3, 0)]).headD (0, 0) := by decide +kernel
theorem witness_saf_found : let s := island msNormal [] fun x => { x with found := [(6, 0)] }
    (6, 0) = (s.saf.found ++ [(3, 0)]).headD (0, 0) ∧ s.saf.found ≠ [] ∧ s.mstate ≠ msSafe := by decide +kernel
theorem witness_saf_found_input : let s := island msNormal in11 fun x => { x with found := [(0x22, 11)] }
    s.saf.found = [(0x22, ((11 : Fin 12)).val)] ∧ s.mstate ≠ msSafe := by decide +kernel
theorem witness_saf_input : (tabAt ({} : ContactSt) z.saf.contacts 23).raw ≠ true := by decide
theorem witness_saf_accept : let s := island msNormal in11 fun x => { x with contacts := [(23, { raw := true })] }
    (tabAt ({} : ContactSt) s.saf.contacts 23).raw ≠ (tabAt ({} : ContactSt) s.saf.contacts 23).acc ∧ s.inMode 11 ≠ 0 ∧
      s.time.edge ≤ (tabAt ({} : ContactSt) s.saf.contacts 23).since + s.blk (inAt 11 + 2) 2 * edgesPerMs := by decide +kernel
theorem witness_saf_discrepancy : let s := island msNormal in11 fun x => { x with inputs := [(11, { disc := some 0 })] }
    (s.sin 11).disc = some 0 ∧ (s.sin 11).discTold = false ∧ s.time.edge ≤ 0 + s.blk (inAt 11 + 4) 2 * edgesPerMs := by decide +kernel
theorem witness_saf_pulse : let s := island msNormal in11 id
    s.saf.block.isSome = true ∧ s.inMode 11 ≠ 0 ∧ bitAt (s.blk (inAt 11 + 1) 1) 0 = true ∧ (s.sin 11).flt = false ∧
      bitAt (0x800#12).toNat 11 = true ∧ s.twoContacts 11 = true := by decide +kernel
/-- Group 7 in RUN with SDIS closed; brake 3 belongs to it. -/
abbrev grpRun : State := (island msNormal [(0x4E0 + 96, 0x87#8)] fun x => { x with sdis := true }).wr Reg.SAF_GSTAT_STATE gsRun 7
theorem witness_saf_output : grpRun.outputOn 7 = true ∧ grpRun.outputOn 11 = true ∧ grpRun.mstate ≠ msSafe := by decide +kernel
theorem witness_saf_clock : let s := island msNormal [] id
    s.time.edge ≤ s.saf.nextClock ∧ ¬ 1 * 64 ∈ s.saf.conds ∧ ¬ 2 * 64 ∈ s.saf.conds ∧ 970000 ≤ 970000 ∧ 969999 < 970000 ∧ (30000 : Int).natAbs ≤ 30000 ∧ 30000 < (-30001 : Int).natAbs := by
  decide +kernel
/-- Boot has run and the island is in INIT. -/
abbrev inited (w : Bool) : State := { z with pwr := { z.pwr with booted := true, recovery := false }, saf := { z.saf with wdog := w } }
theorem witness_saf_init : (inited true).mstate = msInit ∧ (inited true).pwr.recovery = false ∧ (inited true).pwr.booted = true ∧
    (inited true).saf.found = [] ∧ (inited true).saf.wdog = true ∧ (inited false).saf.wdog = false := by decide +kernel
/-- A copy that reads clean but has no mark is not taken. -/
theorem copyGet_none (s : State) (i : Nat) (h : ∀ j < 2048 / 8, (s.mram.decode (copyAt i / 8 + j)).2 = .clean)
    (hm : s.mramGet (copyAt i + 2048) 8 = ((List.replicate 8 0, false), s)) : s.copyGet i = (none, s) := by
  have hf : (leNat (List.replicate 8 (0 : Byte)) == confirmMark) = false := by decide
  unfold State.copyGet
  rw [State.mramGet_clean s _ _ h]
  dsimp only
  rw [hm]
  dsimp only
  rw [hf, Bool.and_false]
  rfl
theorem copiesRead_none (s : State) (h0 : s.copyGet 0 = (none, s)) (h1 : s.copyGet 1 = (none, s)) : s.copiesRead.1 = none := by
  unfold State.copiesRead
  rw [h0]; dsimp only; rw [h1]
theorem witness_saf_unconf : (inited false).copiesRead.1 = none :=
  copiesRead_none _ (copyGet_none _ 0 (by decide +kernel) (by decide +kernel)) (copyGet_none _ 1 (by decide +kernel) (by decide +kernel))
/-- A copy with its mark is taken. -/
theorem copyGet_some (s : State) (i : Nat) (b : List Byte) (h : s.mramGet (copyAt i) 2048 = ((b, false), s)) (hb : blockCrcOk b = true)
    (hm : s.mramGet (copyAt i + 2048) 8 = ((leBytes 8 confirmMark, false), s)) : s.copyGet i = (some b, s) := by
  have hf : (leNat (leBytes 8 confirmMark) == confirmMark) = true := by decide
  unfold State.copyGet
  rw [h]
  dsimp only
  rw [hm]
  dsimp only
  rw [hb, hf]
  rfl
theorem goodBlock_ok : blockOk goodBlock = true ∧ blockCrcOk goodBlock = true := by
  refine ⟨by decide +kernel, ?_⟩
  rw [blockCrcOk, goodBlock_crc]; decide +kernel
/-- The first copy of the least block stands in the SAFETY region. -/
abbrev copied : State :=
  { inited false with mram := { cells :=
    [(4718592, 70#8), (4718593, 65#8), (4718594, 83#8), (4718595, 75#8), (4718596, 1#8), (4718599, 8#8), (4718600, 1#8), (4718602, 10#8), (4718604, 100#8), (4720636, 13#8), (4720637, 29#8), (4720638, 104#8), (4720639, 247#8), (4720640, 241#8), (4720641, 192#8), (4720642, 241#8), (4720643, 192#8)] } }
theorem copied_get0 : copied.mramGet (copyAt 0) 2048 = ((goodBlock, false), copied) := by
  rw [State.mramGet_clean copied (copyAt 0) 2048 (by decide +kernel)]
  exact Prod.ext (Prod.ext (by decide +kernel) (by decide +kernel)) rfl
theorem copiesRead_some (s : State) (b : List Byte) (h0 : s.copyGet 0 = (some b, s)) (h1 : s.copyGet 1 = (none, s)) :
    s.copiesRead.1 = some b := by
  unfold State.copiesRead
  rw [h0]; dsimp only; rw [h1]
theorem witness_saf_copies : copied.copiesRead.1 = some goodBlock :=
  copiesRead_some _ _ (copyGet_some _ 0 _ copied_get0 goodBlock_ok.2 (by decide +kernel)) (copyGet_none _ 1 (by decide +kernel) (by decide +kernel))
theorem witness_saf_copies_init : copied.mstate = msInit ∧ copied.saf.wdog = false ∧ copied.saf.found = [] ∧ copied.pwr.recovery = false ∧ copied.pwr.booted = true := by
  decide +kernel

theorem witness_saf_halfmast : let s := island msHalfmast [] id
    s.mstate = msHalfmast ∧ s.time.edge ≤ s.saf.hmAt + s.blk 8 2 * 1000 * edgesPerMs := by decide +kernel
theorem witness_saf_lead : let s := (island msNormal [] fun x => { x with groups := [(7, { lead := some 9 })] }).wr Reg.SAF_GSTAT_STATE gsSs1 7
    (s.grp 7).lead = some 9 ∧ s.gstate 7 = gsSs1 ∧ s.time.edge ≤ 9 := by decide +kernel
/-- Brake 3 in use with group 7, TTEST 100 ms; the program runs. -/
abbrev brakeUp (b : BrakeSt) : State :=
  (island msNormal [(0x4E0 + 96, 0x87#8), (0x4E0 + 98, 100#8), (0x4E0 + 112, 1#8)] fun x => { x with brakes := [(3, b)] }).wr Reg.TEX_PSTAT_STATE 1
theorem witness_saf_brake : let s := brakeUp {}
    let g := s.brkGroup 3
    s.brkOn 3 = true ∧ s.gstate g = gsSto ∧ s.bit Reg.SAF_GSTAT_DEM g = false ∧ (s.grp g).outflt = false ∧ (s.grp g).envbr = false ∧
      (s.grp g).hmbr = false ∧ s.mstate = msNormal ∧ s.progState = 1 ∧ s.replaying = false := by decide +kernel
theorem witness_saf_brake_refused : z.brkOn 3 = false := by decide
theorem witness_saf_torque : ((brakeUp { run := true }).brk 3).run = true ∧ ((brakeUp { run := true }).brk 3).torque = none ∧
    (brakeUp { run := true }).time.edge ≤ ((brakeUp { run := true }).brk 3).start + 200 * edgesPerMs := by decide +kernel
theorem witness_saf_pass : let s := brakeUp { run := true, torque := some 0 }
    (s.brk 3).run = true ∧ (s.brk 3).torque = some 0 ∧ s.time.edge ≤ 0 + s.blk (brkAt 3 + 2) 2 * edgesPerMs := by decide +kernel
theorem witness_saf_due : let s := (brakeUp {}).wr Reg.SAF_BTSTAT_AGE 1 3
    s.brkOn 3 = true ∧ s.blk (brkAt 3 + 16) 2 ≠ 0 ∧ s.blk (brkAt 3 + 16) 2 ≤ s.rd Reg.SAF_BTSTAT_AGE 3 := by decide +kernel
theorem witness_saf_reset : let s : State := { island msSafe [] (fun x => { x with safeAt := some 0 }) with pwr := { z.pwr with booted := true } }
    s.saf.safeAt = some 0 ∧ s.mstate = msSafe ∧ s.bit Reg.SAF_STAT_SAFELOCK = false ∧ s.running = true := by decide +kernel

theorem witness_saf_load_state : z.replaying = false ∧ z.mstate = msInit := by decide
/-- The least block stands at the start of the Landing, with or without its check value. -/
abbrev loaded (c : Bool) : State :=
  { (z.wr Reg.SAF_STAT_MSTATE msUnconf) with landing := { cells := [(0, 70#8), (1, 65#8), (2, 83#8), (3, 75#8), (4, 1#8), (7, 8#8), (8, 1#8), (10, 10#8), (12, 100#8)]
    ++ if c then [(48758844, 13#8), (48758845, 29#8), (48758846, 104#8), (48758847, 247#8)] else [] } }
theorem witness_saf_load : (loaded false).everySto = true ∧ (loaded false).replaying = false ∧ (loaded false).mstate = msUnconf := by decide +kernel
theorem loaded_good : (loaded true).lndBytes 7 ((loaded true).rd Reg.SAF_PADDR_ADDR * 8) 2048 = ((goodBlock, false), loaded true) := by
  rw [State.lndBytes_clean _ (by decide +kernel) _ _ _ (by decide +kernel) (by decide +kernel)]
  exact Prod.ext (Prod.ext (by decide +kernel) (by decide +kernel)) rfl
theorem loaded_bad : (loaded false).lndBytes 7 ((loaded false).rd Reg.SAF_PADDR_ADDR * 8) 2048 =
    ((leastBody ++ leBytes 4 0, false), loaded false) := by
  rw [State.lndBytes_clean _ (by decide +kernel) _ _ _ (by decide +kernel) (by decide +kernel)]
  exact Prod.ext (Prod.ext (by decide +kernel) (by decide +kernel)) rfl
theorem witness_saf_load_format : blockOk [] = false ∧ blockOk (leastBody ++ leBytes 4 0) = true := by decide +kernel
theorem witness_saf_load_crc : blockCrcOk (leastBody ++ leBytes 4 0) = false := by
  have h : (leastBody ++ leBytes 4 0).take 0x7FC = leastBody := by decide +kernel
  rw [blockCrcOk, blockCrc, h, crc32c_eq_run]; decide +kernel
theorem witness_saf_load_poison : let s := (z.wr Reg.SAF_STAT_MSTATE msUnconf).setMem .land (({} : Mem).put (z.lndCw 0) ⟨0, true⟩)
    (s.lndBytes 7 (s.rd Reg.SAF_PADDR_ADDR * 8) 2048).1.2 = true := by decide +kernel
/-- The least block staged in UNCONF, a check value written to PCONF. -/
abbrev staged (c : Nat) : State :=
  { ((z.wr Reg.SAF_PCONF_CRC c).wr Reg.SAF_STAT_MSTATE msUnconf) with saf := { z.saf with staged := some goodBlock } }
theorem witness_saf_confirm : z.saf.staged = none ∧ (staged 4150795533).saf.staged = some goodBlock ∧ (staged 0).mstate = msUnconf ∧
    (staged 4150795533).mstate = msUnconf ∧
    blockCrc goodBlock = (staged 4150795533).rd Reg.SAF_PCONF_CRC ∧ blockCrc goodBlock ≠ (staged 0).rd Reg.SAF_PCONF_CRC := by
  rw [goodBlock_crc]
  refine ⟨rfl, rfl, ?_, ?_, ?_, ?_⟩ <;> decide +kernel
theorem witness_saf_confirm_state : ((staged 0).wr Reg.SAF_STAT_MSTATE msSafe).saf.staged = some goodBlock ∧
    ((staged 0).wr Reg.SAF_STAT_MSTATE msSafe).mstate ≠ msUnconf := by
  refine ⟨rfl, ?_⟩; decide +kernel

/-! ### Witnesses: redundant pairs -/

/-- A unit of a pair in a role, at 20 ms, both lanes up. -/
abbrev pairUp (role : Nat) (x : TrhSt) : State :=
  { (((z.wrB Reg.TRH_CTL_PAIR true).wr Reg.TRH_STAT_ROLE role).wr Reg.TRH_STAT_LANEUP 3) with
    time := { z.time with edge := 4000000 }, trh := { laneLast := [(0, 4000000), (1, 4000000)], laneSince := [(0, 3800000), (1, 3800000)], nextClaim := 4000000, claims := x.claims, negClaim := x.negClaim, pcand := x.pcand, pseen := x.pseen, prole := x.prole, handover := x.handover } }
/-- A frame of the pair with its CRC. -/
abbrev pairFrame (type : Nat) (last : Bool) (payload : List Byte) : List Byte :=
  let b := trhHeader type last payload.length 0 7 7 ++ payload
  b ++ leBytes 4 (crc32c b)
theorem witness_lane_down : bitAt ((pairUp roleInstep {}).rd Reg.TRH_STAT_LANEUP) 1 = true ∧
    (pairUp roleInstep {}).time.edge ≤ tabAt 0 (pairUp roleInstep {}).trh.laneLast 1 + laneSilence := by decide
theorem witness_lane_up : let s := (pairUp roleSync {}).wr Reg.TRH_STAT_LANEUP 0
    let due := tabAt 0 s.trh.laneSince 1 + edgesPerMs
    bitAt (s.rd Reg.TRH_STAT_LANEUP) 1 = false ∧ s.bit Reg.TRH_CTL_PAIR = true ∧ tabAt 0 s.trh.laneLast 1 ≠ 0 ∧ s.time.edge ≤ due ∧
      due ≤ tabAt 0 s.trh.laneLast 1 + laneSilence := by decide
theorem witness_claim : let s := pairUp roleActive {}
    s.bit Reg.TRH_CTL_PAIR = true ∧ s.pwr.standby = false ∧ s.time.edge ≤ s.trh.nextClaim := by decide
theorem witness_claim_expiry : (pairUp roleActive { claims := [(9, 5)] }).trh.claims = [(9, 5)] := by decide
theorem witness_claim_bad : trhParse [] = none := by decide
/-- A CLAIM that raises nothing. -/
abbrev nullClaim : List Byte := pairFrame 1 false (List.replicate 40 0)
theorem witness_claim_frame : trhParse nullClaim = some ⟨1, false, 7, 7, List.replicate 40 0⟩ ∧ fieldAt (List.replicate 40 (0 : Byte)) 0 4 = 0 := by
  decide +kernel
theorem witness_claim_takeover : let s := (pairUp roleInstep {}).wr Reg.TRH_PENS_E 1
    s.rd Reg.TRH_PENS_E ≠ 0 ∧ s.role = roleInstep ∧ s.rd Reg.TRH_LASTEP_EP < 0xFFFFFF := by decide
theorem witness_link_loss : (pairUp roleInstep {}).mayTake = true ∧ (pairUp roleInstep {}).rd Reg.TRH_LASTEP_EP < 0xFFFFFF ∧
    (pairUp roleSync {}).mayTake = false := by decide
theorem witness_negotiation : (pairUp roleNegotiate { negClaim := true }).role = roleNegotiate ∧ (pairUp roleNegotiate { negClaim := true }).trh.negClaim = true ∧
    (pairUp roleNegotiate { pcand := 2 ^ 32 }).trh.negClaim = false ∧ (pairUp roleNegotiate {}).bit Reg.TRH_CTL_PAIR = true ∧
    (pairUp roleNegotiate { pcand := 2 ^ 32 }).cand ≤ (pairUp roleNegotiate { pcand := 2 ^ 32 }).trh.pcand ∧
    (pairUp roleNegotiate {}).trh.pcand < (pairUp roleNegotiate {}).cand ∧ (pairUp roleNegotiate {}).rd Reg.TRH_LASTEP_EP < 0xFFFFFF := by decide
theorem witness_handover : (pairUp roleActive { pseen := true, prole := roleInstep, handover := true }).partnerInStep = true ∧
    (pairUp roleActive { pseen := true, prole := roleInstep, handover := true }).trh.handover = true ∧
    (pairUp roleActive { handover := true }).partnerInStep = false ∧ (pairUp roleActive { handover := true }).role = roleActive := by decide

theorem witness_hoist_frame : trhParse (pairFrame 2 true [1, 2]) = some ⟨2, true, 7, 7, [1, 2]⟩ ∧ (pairUp roleSync {}).role = roleSync ∧
    (pairUp roleSync {}).bit Reg.TRH_CTL_PAIR = true ∧ (pairUp roleSync {}).pwr.standby = false := by decide +kernel
theorem witness_ret_frame : trhParse (pairFrame 3 true [0, 0, 0, 0, 0, 0, 0, 0, 9]) = some ⟨3, true, 7, 7, [0, 0, 0, 0, 0, 0, 0, 0, 9]⟩ := by decide +kernel
theorem witness_pull_frame : (trhParse (pairFrame 6 false [])).map TrhHdr.type = some 6 ∧ (pairUp roleActive {}).role = roleActive := by decide +kernel
theorem witness_pass_data_frame : trhParse (pairFrame 4 false [0, 0, 0, 0, 0, 0, 0, 0, 9, 9, 9, 9, 9, 9, 9, 9]) =
    some ⟨4, false, 7, 7, [0, 0, 0, 0, 0, 0, 0, 0, 9, 9, 9, 9, 9, 9, 9, 9]⟩ := by decide +kernel
theorem witness_pass_ctl_frame : ∀ c ∈ [1, 2, 3], trhParse (pairFrame 5 false (leBytes 4 c ++ leBytes 8 0)) = some ⟨5, false, 7, 7, leBytes 4 c ++ leBytes 8 0⟩ ∧
    fieldAt (leBytes 4 c ++ leBytes 8 0) 0 1 = c := by decide +kernel
theorem witness_pass_busy : let s := (pairUp roleSync {}).wrB Reg.TRH_PASS_BUSY true
    s.role = roleSync ∧ s.bit Reg.TRH_PASS_BUSY = true ∧ ((pairUp roleActive {}).wrB Reg.TRH_PASS_BUSY true).role = roleActive := by decide

/-! ### Witnesses: the Tally, recording and replay -/

/-- An event. -/
abbrev someEvent : TlyEvent := { ht := 5, code := 0x0303, src := 3, sub := 0, data := 1 }
/-- One record stands; the event waits. -/
abbrev tlyUp (n : Nat) : State := { (z.wr Reg.TLY_STAT_NREC n) with tly := { z.tly with queue := [someEvent] } }
theorem witness_tally_write : ∀ n ∈ [0, 32766], let s := tlyUp n
    s.bit Reg.TLY_STAT_CLRBUSY = false ∧ s.tly.queue = someEvent :: [] ∧ s.tly.lostNew = 0 ∧ s.bit Reg.TLY_STAT_FULL = false ∧
      s.tallySame someEvent = false ∧ s.tly.dirty = false ∧ s.rd Reg.TLY_STAT_NREC < 32767 := by decide +kernel
theorem witness_tally_repeat : let s := (tlyUp 0).tallyPop
    s.tallySame someEvent = true ∧ ({ s with tly := { s.tly with queue := [someEvent] } } : State).bit Reg.TLY_STAT_FULL = false := by decide +kernel
theorem witness_tally_clearing : (z.wrB Reg.TLY_STAT_CLRBUSY true).bit Reg.TLY_STAT_CLRBUSY = true := by decide
theorem witness_tally_update : let s : State := { z with tly := { z.tly with dirty := true } }
    s.tly.dirty = true ∧ s.time.edge ≤ s.tly.lastWrite + edgesPerMs := by decide
theorem witness_tally_next : ((z.wr Reg.TLY_CUR_INDEX 32767).rd Reg.TLY_CUR_INDEX + 1) % 32768 = ((0 : Fin 32768)).val := by decide
/-- An unlock stage reached now. -/
abbrev tlyStage (n : Nat) : State := { z with tly := { z.tly with unlock := n } }
theorem witness_tally_unlock : (tlyStage 0).tly.unlock = 0 ∧ (tlyStage 1).tly.unlock = 1 ∧ (tlyStage 1).unlockFresh = true ∧
    (tlyStage 2).tly.unlock = 2 ∧ (tlyStage 2).unlockFresh = true ∧ (tlyStage 2).time.edge ≤ (tlyStage 2).tly.unlockAt + edgesPerMs + 1 := by decide
theorem witness_tally_clear_done : ({ z with tly := { z.tly with clearAt := some 1 } } : State).tly.clearAt = some 1 := by decide

theorem witness_record_start : z.bit Reg.TLY_RSTAT_RUN = false ∧ z.recReady = true ∧ z.replaying = false := by decide +kernel
theorem witness_record_refused : (z.wrB Reg.CLE_CTL_EN true).recReady = false := by decide +kernel
theorem witness_record_stop : (z.wrB Reg.TLY_RSTAT_RUN true).bit Reg.TLY_RSTAT_RUN = true := by decide
/-- Host ring 41 runs with room; one entry is staged for it. -/
abbrev stagedUp : State :=
  { ((z.wrB Reg.HIF_RSTAT_RUN true 41).wr Reg.HIF_RCFG_LOG2 4 41) with tly := { z.tly with staged := [(7, 3)] } }
theorem witness_record_drain : stagedUp.takeStaged stagedUp.tly.staged = some (((7 : Fin 8).val, 3), []) ∧ z.takeStaged z.tly.staged = none := by decide
theorem witness_trace : z.bit Reg.TLY_TRCFG_EN = false ∧ ({ z with tly := { z.tly with post := some 0 } } : State).tly.post = some 0 := by decide
/-- The configuration identity does not depend on the registers of block 13. -/
theorem cfgId_wr (s : State) (f : Field) (v : Nat) (h : f.key 0 0 / 32 / 0x10000 = 13) : (s.wr f v).cfgId = s.cfgId := by
  have ho : ∀ o ∈ recOffsets, f.key 0 0 / 32 ≠ o := by
    intro o ho e
    obtain ⟨b, hb, hk⟩ := List.mem_flatMap.mp ho
    obtain ⟨k, hk, hs⟩ := List.mem_filterMap.mp hk
    have hk := (mem_upFrom hk).2
    have hb13 : b < 13 := by
      have : ∀ b ∈ recBlocks, b < 13 := by decide
      exact this b hb
    split at hs
    · simp only [Option.some.injEq] at hs; omega
    · simp at hs
  have hl : recOffsets.flatMap (fun o => leBytes 4 ((s.wr f v).regWord o).toNat) = recOffsets.flatMap fun o => leBytes 4 (s.regWord o).toNat := by
    rw [List.flatMap_def, List.flatMap_def]
    congr 1
    exact List.map_congr_left fun o h' => by rw [regWord_wr_ne s f v 0 0 (ho o h')]
  unfold State.cfgId
  rw [hl]
theorem cfgId_lt (s : State) : s.cfgId < 2 ^ 32 := by
  have hb : ∀ n c : Nat, c < 2 ^ 32 → crcBit 0x82F63B78 n c < 2 ^ 32 := by
    intro n
    induction n with
    | zero => intro c h; exact h
    | succ n ih =>
      intro c h
      unfold crcBit
      apply ih
      split
      · exact Nat.xor_lt_two_pow (by omega) (by decide)
      · omega
  have hl : ∀ (l : List Byte) (c : Nat), c < 2 ^ 32 → l.foldl (crcByte 0x82F63B78) c < 2 ^ 32 := by
    intro l
    induction l with
    | nil => intro c h; exact h
    | cons b l ih =>
      intro c h
      exact ih _ (hb 8 _ (Nat.xor_lt_two_pow h (by omega)))
  exact Nat.xor_lt_two_pow (hl _ _ (by decide)) (by decide)
/-- At rest, with the identity of its configuration in TLY_RPCFG, or another. -/
abbrev replayReady (cfg : Nat) : State := z.wr Reg.TLY_RPCFG_ID cfg
theorem replayReady_rd (cfg : Nat) (g : Field) (i j : Nat) (h : g.key i j ≠ Reg.TLY_RPCFG_ID.key 0 0) : (replayReady cfg).rd g i j = z.rd g i j :=
  rd_wr_ne z Reg.TLY_RPCFG_ID g cfg 0 0 i j h
theorem replayReady_rest (cfg : Nat) : (replayReady cfg).replaying = false ∧ (replayReady cfg).recReady = true ∧
    (replayReady cfg).bit Reg.TLY_RSTAT_RUN = false ∧ (replayReady cfg).everySto = true ∧ ∀ n : Fin 8, (replayReady cfg).bit Reg.HST_RINGCTL_EN n = false := by
  have hl : (upFrom 0 256).all (fun m => (replayReady cfg).lstState m == lsIdle) = true := by
    rw [List.all_eq_true]
    intro m hm
    have : m < 256 := by have := (mem_upFrom hm).2; omega
    rw [State.lstState, replayReady_rd _ _ _ _ (by revert this; clear hm; revert m; decide +kernel)]
    revert this; clear hm; revert m; decide +kernel
  have hs : (upFrom 0 8).all (fun g => (replayReady cfg).gstate g == gsSto) = true := by
    rw [List.all_eq_true]
    intro g hg
    have : g < 8 := by have := (mem_upFrom hg).2; omega
    rw [State.gstate, replayReady_rd _ _ _ _ (by revert this; revert g; decide)]
    revert this; clear hg; revert g; decide
  refine ⟨?_, ?_, ?_, hs, ?_⟩
  · rw [State.replaying, State.bit, replayReady_rd _ _ _ _ (by decide)]; decide
  · rw [State.recReady, hl, State.progState, State.bit, State.bit, replayReady_rd _ _ _ _ (by decide), replayReady_rd _ _ _ _ (by decide),
      replayReady_rd _ _ _ _ (by decide)]
    decide +kernel
  · rw [State.bit, replayReady_rd _ _ _ _ (by decide)]; decide
  · intro n
    rw [State.bit, replayReady_rd _ _ _ _ (by revert n; decide)]
    revert n; decide
/-- What TLY_RPCFG holds beside the identity. -/
theorem replayReady_id (x y : Nat) (h : z.cfgId = x) : (replayReady y).cfgId = x ∧ (replayReady y).rd Reg.TLY_RPCFG_ID = y % 2 ^ 32 ∧ x < 2 ^ 32 :=
  ⟨(cfgId_wr z Reg.TLY_RPCFG_ID y (by decide)).trans h, rd_wr_same z Reg.TLY_RPCFG_ID y 0 0 (by decide), h ▸ cfgId_lt z⟩
theorem witness_replay_id : ∃ x, z.cfgId = x ∧ (replayReady x).cfgId = (replayReady x).rd Reg.TLY_RPCFG_ID := by
  obtain ⟨x, hx⟩ : ∃ x, z.cfgId = x := ⟨_, rfl⟩
  obtain ⟨h1, h2, h3⟩ := replayReady_id x x hx
  exact ⟨x, hx, by rw [h1, h2, Nat.mod_eq_of_lt h3]⟩
theorem witness_replay_other_id : ∃ x, z.cfgId = x ∧ (replayReady ((x + 1) % 2 ^ 32)).cfgId ≠ (replayReady ((x + 1) % 2 ^ 32)).rd Reg.TLY_RPCFG_ID := by
  obtain ⟨x, hx⟩ : ∃ x, z.cfgId = x := ⟨_, rfl⟩
  obtain ⟨h1, h2, h3⟩ := replayReady_id x ((x + 1) % 2 ^ 32) hx
  exact ⟨x, hx, by rw [h1, h2]; omega⟩
theorem witness_replay_fw (x : Nat) : (replayReady x).rd Reg.TLY_FWID_ID = (replayReady x).rd Reg.TLY_RPFW_ID := by
  rw [replayReady_rd x _ _ _ (by decide), replayReady_rd x _ _ _ (by decide)]; decide
theorem witness_replay_other_fw (x : Nat) : let s := (replayReady x).wr Reg.TLY_RPFW_ID 1
    s.cfgId = (replayReady x).cfgId ∧ s.rd Reg.TLY_RPCFG_ID = (replayReady x).rd Reg.TLY_RPCFG_ID ∧ s.rd Reg.TLY_FWID_ID ≠ s.rd Reg.TLY_RPFW_ID := by
  refine ⟨cfgId_wr (replayReady x) Reg.TLY_RPFW_ID 1 (by decide), rd_wr_ne _ Reg.TLY_RPFW_ID Reg.TLY_RPCFG_ID 1 0 0 0 0 (by decide), ?_⟩
  rw [rd_wr_same _ Reg.TLY_RPFW_ID 1 0 0 (by decide), rd_wr_ne _ Reg.TLY_RPFW_ID Reg.TLY_FWID_ID 1 0 0 0 0 (by decide), replayReady_rd x _ _ _ (by decide)]
  decide
theorem witness_replay_not_rest : (z.wrB Reg.CLE_CTL_EN true).recReady = false ∧ (z.wrB Reg.CLE_CTL_EN true).replaying = false := by decide +kernel
/-- A replay whose one entry is of this tick. -/
abbrev replayUp : State :=
  { (((z.wrB Reg.TLY_RPSTAT_RUN true).wr Reg.TLY_RPPUT_CNT 1).setMem .land
      ((({} : Mem).put (z.lndCw 0) ⟨5, false⟩).put (z.lndCw 8) ⟨BitVec.ofNat 64 (3 + 2 ^ 11), false⟩)) with time := { z.time with ns := 5999 } }
theorem witness_replay_empty : let s := z.wrB Reg.TLY_RPSTAT_RUN true
    s.replaying = true ∧ (s.rd Reg.TLY_RPPUT_CNT + 2 ^ 32 - s.rd Reg.TLY_RPGET_CNT) % 2 ^ 32 = 0 := by decide
/-- The entry of that buffer, and one of a host write. -/
abbrev rpSeen (s : State) : List (Nat × RpEntry) × State := State.rpGroup 1 0 none s
theorem witness_replay_entry : let g := rpSeen replayUp
    g.1.map (fun x => x.1) = [0] ∧ g.1.map (fun x => x.2.src) = [3] ∧ replayUp.replaying = true ∧ (replayUp.rd Reg.TLY_RPPUT_CNT + 2 ^ 32 - replayUp.rd Reg.TLY_RPGET_CNT) % 2 ^ 32 = 1 ∧
      (g.1.all fun x => x.2.tick && !([0, 1, 11, 12, 14, 15].contains x.2.src) && decide (x.2.src < 16) && decide (g.2.tly.rpLast < g.2.rpInstant x.2) &&
        decide (g.2.rpInstant x.2 ≤ g.2.T) && decide (g.2.T ≤ g.2.rpInstant x.2 + g.2.rpGrace x.2)) = true := by decide +kernel
theorem witness_replay_early : let g := rpSeen { replayUp with time := z.time }
    g.1.map (fun x => x.1) = [0] ∧ (g.1.all fun x => x.2.tick && decide (g.2.T < g.2.rpInstant x.2) && decide (g.2.tly.rpLast ≤ g.2.rpInstant x.2)) = true := by
  decide +kernel
theorem witness_replay_write : let s : State := { (replayUp.setMem .land (replayUp.landing.put (z.lndCw 8) ⟨BitVec.ofNat 64 (1 + 2 ^ 11), false⟩)) with time := replayUp.time }
    let g := rpSeen s
    g.1.map (fun x => x.2.src) = [1] ∧ (g.1.all fun x => x.2.tick && decide (g.2.tly.rpLast < g.2.rpInstant x.2) && decide (g.2.rpInstant x.2 ≤ g.2.T) &&
      decide (g.2.T ≤ g.2.rpInstant x.2 + g.2.rpGrace x.2)) = true := by decide +kernel

/-! ### Witnesses: power, reset and start-up -/

/-- The power stage changed. -/
abbrev pwrIn (f : PwrSt → PwrSt) : State := { z with pwr := f z.pwr }
theorem witness_power_off : let s := pwrIn fun p => { p with rails := false }
    s.pwr.rails = false ∧ s.pwr.standby = false ∧ z.pwr.rails = true := by decide
theorem witness_brown : (pwrIn fun p => { p with brown := true }).pwr.brown = true ∧ (pwrIn fun p => { p with standby := true }).pwr.standby = true := by decide
theorem witness_running : z.running = true ∧ z.bit Reg.PWR_STAT_PFW = false ∧ z.bit Reg.SAF_STAT_SAFELOCK = false ∧ z.progState = 0 ∧
    z.everySto = true ∧ (z.wr Reg.TEX_PSTAT_STATE 1).progState ≠ 0 ∧ (z.wr Reg.TEX_PSTAT_STATE 1).running = true := by decide +kernel
theorem witness_power_fail : let s := z.wrB Reg.PWR_STAT_PFW true
    s.running = true ∧ s.bit Reg.PWR_STAT_PFW = true ∧ s.time.edge ≤ s.pwr.pfwAt + (0#32).toNat * edgesPerUs + edgesPerMs := by decide
theorem witness_software_reset : (0x52530001#32).toNat / 65536 = 0x5253 ∧ (0x52530001#32).toNat % 2 = 1 ∧ (0x52530000#32).toNat % 2 = 0 ∧
    (0x52520001#32).toNat / 65536 ≠ 0x5253 := by decide
theorem witness_boot_none : z.pwr.booted = false ∧ z.pwr.standby = false ∧ z.pwr.rails = true ∧
    (z.bootPower.bootTally.bootKeep.bootCauses.bootRetire).bootFirmware.1 = false := by decide +kernel

/-- The 128 bytes before an image of four zero bytes, without a signature. -/
abbrev fwHead : List Byte := [0x4B#8, 0x46#8, 0x4D#8, 0x57#8, 1#8, 0#8, 0#8, 0#8, 4#8, 0#8, 0#8, 0#8, 0xC7#8, 0x4B#8, 0x67#8, 0x48#8] ++ List.replicate 112 0#8
/-- The image as the signature covers it. -/
abbrev fwImage : List Byte := fwHead ++ [0#8, 0#8, 0#8, 0#8]
/-- The image stands in region A; region B is absent. -/
theorem bootFirmware_a (s : State) (h1 : s.mramBytes 0 128 = ((fwHead, false), s)) (h2 : s.mramBytes (0 + 128) 4 = (([0, 0, 0, 0], false), s))
    (hb : s.fwCheck 0x200000 = (.absent, s)) (hs : Config.sigOk fwImage = true) :
    s.bootFirmware = (true, ((s.wr Reg.PWR_BSTAT_FWSEL 0).wr Reg.PWR_BSTAT_FWVER 1).wr Reg.TLY_FWID_ID (crc32c fwImage)) := by
  have ha : s.fwCheck 0 = (.good 1 (crc32c fwImage), s) := by
    unfold State.fwCheck
    rw [h1]
    dsimp only
    rw [if_neg (by decide), if_neg (by decide), if_neg (by decide), show fieldAt fwHead 8 4 = 4 by decide, h2]
    dsimp only
    rw [if_neg (by decide), if_neg (by decide), if_pos (show Config.sigOk (fwHead ++ [0, 0, 0, 0]) = true from hs), show fieldAt fwHead 4 4 = 1 by decide]
    rfl
  unfold State.bootFirmware
  rw [ha]
  dsimp only
  rw [hb]
  rfl
/-- The MRAM with that image and, if wanted, a stored configuration of no records; TLOCK as given. -/
abbrev fwUp (cfg lock : Bool) : State :=
  { z.wrB Reg.PWR_BOOTCFG_TLOCK lock with mram := { cells := [(0, 0x4B#8), (1, 0x46#8), (2, 0x4D#8), (3, 0x57#8), (4, 1#8), (8, 4#8), (12, 0xC7#8), (13, 0x4B#8), (14, 0x67#8), (15, 0x48#8)]
    ++ if cfg then [(0x400000, 0x4B#8), (0x400001, 0x43#8), (0x400002, 0x46#8), (0x400003, 0x47#8), (0x400004, 1#8)] else [] } }
/-- Where boot looks for the firmware. -/
abbrev bootUp (cfg lock : Bool) : State := (fwUp cfg lock).bootPower.bootTally.bootKeep.bootCauses.bootRetire
theorem bootUp_firmware (cfg lock : Bool) (hs : Config.sigOk fwImage = true) : (bootUp cfg lock).bootFirmware =
    (true, (((bootUp cfg lock).wr Reg.PWR_BSTAT_FWSEL 0).wr Reg.PWR_BSTAT_FWVER 1).wr Reg.TLY_FWID_ID (crc32c fwImage)) :=
  bootFirmware_a _ (by revert cfg lock; decide +kernel) (by revert cfg lock; decide +kernel) (by revert cfg lock; decide +kernel) hs
theorem witness_boot_no_config (hs : Config.sigOk fwImage = true) : (bootUp false false).bootFirmware.1 = true ∧
    (bootUp false false).bootFirmware.2.readConfig.1 = none := by
  rw [bootUp_firmware false false hs]
  decide +kernel
theorem witness_boot_config (hs : Config.sigOk fwImage = true) : (bootUp true false).bootFirmware.1 = true ∧
    (bootUp true false).bootFirmware.2.readConfig.1 = some [] ∧ (bootUp true false).bootFirmware.2.readConfig.2.bit Reg.PWR_BOOTCFG_TLOCK = false ∧
    (bootUp true false).bootFirmware.2.readConfig.2.startCode = 0 := by
  rw [bootUp_firmware true false hs]
  decide +kernel
/-- The state before the time gate when the stored configuration has no records. -/
abbrev beforeGate (s : State) : State := (s.blaze.bootTime).bootIslands
theorem witness_boot_gate (hs : Config.sigOk fwImage = true) : (bootUp true true).bootFirmware.2.readConfig.1 = some [] ∧
    (beforeGate (bootUp true true).bootFirmware.2.readConfig.2).bit Reg.PWR_BOOTCFG_TLOCK = true ∧
    (beforeGate (bootUp true true).bootFirmware.2.readConfig.2).gateOpen = false ∧
    (beforeGate (bootUp true false).bootFirmware.2.readConfig.2).bit Reg.PWR_BOOTCFG_TLOCK = false := by
  rw [bootUp_firmware true true hs, bootUp_firmware true false hs]
  decide +kernel

theorem witness_gate : let s := (pwrIn fun p => { p with gate := true }).wrB Reg.NET_SRVSTAT_LOCKED true
    s.pwr.gate = true ∧ s.pwr.recs = [] ∧ s.startCode = 0 ∧ s.gateOpen = true ∧
      s.time.edge ≤ s.pwr.gateAt + max 1 (s.rd Reg.PWR_BOOTCFG_TLTMO) * 1000 * edgesPerMs := by decide +kernel
theorem witness_output_release : let s := (z.wr Reg.TEX_PSTAT_STATE 1).wrB Reg.SAF_STAT_REL true
    s.progState = 1 ∧ s.bit Reg.SAF_STAT_REL = true ∧ s.replaying = false ∧ z.progState ≠ 1 := by decide
theorem witness_sps_limit : bitAt ((z.wr Reg.PWR_SPSSTAT_ON 0x80).rd Reg.PWR_SPSSTAT_ON) 7 = true := by decide
theorem witness_keep : z.keep.decode (8191 / 2) = (⟨0, false⟩, .clean) ∧ (z.keep.upset (8191 / 2) 0).decode (8191 / 2) = (⟨0, false⟩, .clean) ∧
    (z.keep.upset (8191 / 2) 1).decode (8191 / 2) ≠ (⟨0, false⟩, .clean) := by decide +kernel

/-! ### Witnesses: the whole block -/

theorem witness_canonical : z.canonical = true ∧ z.timeInRange = true := by decide +kernel

/-! ### The worked examples of the spec -/

/-- Code of chapter 9's worked example (09, "a compare entry from task WEB_FAST"). -/
theorem test_words_compare_entry :
    [0x2CA08240#32, 0x18A51400#32, 0xD0C50000#32, 0x14E6000F#32, 0x28E70004#32, 0x04E72800#32, 0x2D00A1D6#32, 0x112000C1#32].map (jvDecode 0) =
      [some (.hik 0 5 0x8240), some (.ork 0 5 5 0x1400), some (.ldw 0 6 5 0), some (.andk 0 7 6 0xF), some (.shkShl 0 7 7 4),
       some (.add 0 7 7 5), some (.hik 0 8 0xA1D6), some (.addk 0 9 0 0xC1)] := by decide
theorem test_words_compare_store :
    [0xED070020#32, 0x2D400025#32, 0xE9470028#32, 0xE807002C#32, 0xB000000C#32, 0x10C60001#32, 0xE8C50000#32].map (jvDecode 0) =
      [some (.stp 0 8 7 0x20), some (.hik 0 10 0x25), some (.stw 0 10 7 0x28), some (.stw 0 0 7 0x2C), some (.fence 0), some (.addk 0 6 6 1),
       some (.stw 0 6 5 0)] := by decide

/-- A binary32 value. -/
abbrev f32 (n : Int) (d : Nat) : Nat := fOfRatio b32 n d
/-- Loop 40 at the splice (03, "the tension step at a Hollin splice"), with AWBC and KT. -/
abbrev tensionStep (awbc : Bool) : LoopRes :=
  (LoopRun.mk ([if awbc then 2 ^ 25 else 0, 0, 0, 0, 0, 0, f32 8 100 * 2 ^ 32, f32 24 10, f32 85 1, f32 400 1 * 2 ^ 32, 0, f32 400 1].map
      fun v => (⟨BitVec.ofNat 64 v, false⟩ : Cw))
    { pv := f32 150 1, ts := f32 180 1 }
    { i := fOfRatio b64 63 2, spw := 0, df := 0, xprev := 0, yprev := f32 63 2, pvlast := f32 150 1, a1 := 0, a2 := 0, b1 := 0, b2 := 0 }
    mdAuto mdAuto false false false false false (loopPeriod 500) {} {}).compute
theorem test_tension_clamping : (tensionStep false).y = f32 31525 1000 ∧ (tensionStep false).flags = stRateLim + stAwAct ∧
    (tensionStep false).st.i = fOfRatio b64 63 2 := by decide +kernel
theorem test_tension_back_calculation : (tensionStep true).y = f32 31525 1000 ∧
    fOfRatio b64 314450 10000 ≤ (tensionStep true).st.i ∧ (tensionStep true).st.i ≤ fOfRatio b64 314451 10000 := by decide +kernel

/-- AIN12 at 150 N (06): the mean, the scaled copy, the result word; DAC5 for 42.5 %. -/
theorem test_conversion : meanCode (47999 + 48001) 2 = 48000 ∧ scaledCopy 0x3B4CCCCD 0 96000 2 = 0x43160000 ∧
    resultWord 48000 12 false false false false = 0x2EE00600 := by decide +kernel
theorem test_dac_code : (z.wr Reg.CNV_DSCL_DSCALE (f32 32768 100) 5).dacCode 5 (f32 425 10) = some 13926 := by decide +kernel

/-- Landing offset 0x0123_4140 (10): bank 5, word 0x1_2340, and the locator of its bit 12 (01). -/
theorem test_locator : z.lndCw 0x01234140 = 5 * bankWords + 0x12340 ∧ cwLocator .land (z.lndCw 0x01234140) (some 12) = 0x104085000123400C := by
  decide +kernel

/-- CAN0 unacknowledged (13): TEC 8 after the first attempt. -/
theorem test_can_settings : let s := ((z.wr Reg.CAN_NBT_NBRP 1).wr Reg.CAN_NBT_NTSEG1 0x9E).wr Reg.CAN_NBT_NTSEG2 0x27
    s.regWord 0xA0104 = 0x019E2700#32 ∧ ((((s.wr Reg.CAN_NBT_NSJW 0x27).wr Reg.CAN_DBT_DBRP 1).wr Reg.CAN_DBT_DTSEG1 0x26).wr Reg.CAN_DBT_DTSEG2 9).canValid 0 = true := by
  decide +kernel

end Sys2Proof.Tests
end

section
/-! SUPPORT. Host writes to registers (R9 to R12): where a register lies, which handler takes a write, and what the write
leaves in each field. -/
namespace Sys2Proof.Machine

/-! ### Where a register lies -/

theorem mem_upFrom_of_lt {n : Nat} : ∀ {lo a : Nat}, lo ≤ a → a < lo + n → a ∈ upFrom lo n := by
  induction n with
  | zero => intro lo a h1 h2; omega
  | succ n ih =>
    intro lo a h1 h2
    rcases Nat.eq_or_lt_of_le h1 with rfl | h
    · exact List.mem_cons_self
    · exact List.mem_cons_of_mem _ (ih h (by omega))

/-- A field of a block lies at the offset its base and strides give. -/
theorem mem_fieldsAt {f : Field} {i off : Nat} (hf : f ∈ Reg.blockFields (off / 0x10000)) (ho : off = f.base + f.s1 * i)
    (hi : i < f.c1) (hc : 0 < f.c2) (hs : 0 < f.s1) : (f, i, 0) ∈ fieldsAt off := by
  have hidx : (if f.s1 = 0 then 0 else (off - f.base) / f.s1) = i := by
    rw [if_neg (Nat.ne_of_gt hs), ho, Nat.add_sub_cancel_left, Nat.mul_div_cancel_left _ hs]
  refine List.mem_flatMap.mpr ⟨f, hf, List.mem_map.mpr ⟨(i, 0), ?_, rfl⟩⟩
  refine List.mem_filterMap.mpr ⟨0, mem_upFrom_of_lt (Nat.zero_le _) (by omega), ?_⟩
  have hle : ¬ off < f.base := by omega
  simp only [Nat.mul_zero, Nat.add_zero, hle, if_false, hidx]
  simp [hi, ho]

theorem hasReg_of_field {off : Nat} {x : Field × Nat × Nat} (hx : x ∈ fieldsAt off) : hasReg off = true := by
  have : (fieldsAt off).isEmpty = false := by
    cases h : fieldsAt off with
    | nil => rw [h] at hx; cases hx
    | cons _ _ => rfl
  simp [hasReg, this]

theorem hasReg_of_index {f : Field} {i off b : Nat} (hf : f ∈ Reg.blockFields b) (hb : off / 0x10000 = b)
    (ho : off = f.base + f.s1 * i) (hi : i < f.c1) (hc : 0 < f.c2) (hs : 0 < f.s1) : hasReg off = true :=
  hasReg_of_field (mem_fieldsAt (hb ▸ hf) ho hi hc hs)

theorem group_at {base stride count off i k : Nat} (hi : i < count) (hk : k < stride) (ho : off = base + stride * i + k) :
    group base stride count off = some (i, k) := by
  have hlt : stride * i + k < stride * count := by
    calc stride * i + k < stride * (i + 1) := by rw [Nat.mul_succ]; omega
      _ ≤ stride * count := Nat.mul_le_mul_left _ hi
  have hsub : off - base = stride * i + k := by omega
  have hpos : 0 < stride := by omega
  rw [group, if_pos (by omega), hsub, Nat.mul_add_div hpos, Nat.div_eq_of_lt hk, Nat.mul_add_mod, Nat.mod_eq_of_lt hk, Nat.add_zero]

theorem group_outside {base stride count off : Nat} (h : off < base ∨ base + stride * count ≤ off) :
    group base stride count off = none := if_neg (by omega)

/-! ### Which handler takes a write -/

/-- The handler of block `b` (R460). -/
def State.blockWrite (s : State) (b off v : Nat) : State :=
  match b with
  | 0 => s.sysWrite off v
  | 1 => s.hifWrite off v
  | 2 => s.hstWrite off v
  | 3 => s.cleWrite off v
  | 4 => s.axsWrite off v
  | 5 => s.fbkWrite off v
  | 6 => s.cnvWrite off v
  | 7 => s.texWrite off v
  | 8 => s.lndRegWrite off v
  | 9 => s.netWrite off v
  | 10 => s.canRegWrite off v
  | 11 => s.safWrite off v
  | 12 => s.trhWrite off v
  | 13 => s.tlyWrite off v
  | 14 => s.pwrWrite off v
  | 15 => s.dblWrite off v
  | _ => s

theorem regWrite_eq_blockWrite (s : State) {off : Nat} (v : Nat) (h : hasReg off = true) :
    s.regWrite off v = s.blockWrite (off / 0x10000) off v := by
  rw [State.regWrite, h]; rfl

/-- The host interface performs a register write at once: it is awake (R272), out of recovery (R437) and not recording (R408). -/
structure State.WritesAtOnce (s : State) : Prop where
  awake : s.hif.d3 = false
  running : s.pwr.recovery = false
  notRecording : s.bit Reg.TLY_RSTAT_RUN = false

theorem hostWriteWith_none (s : State) (off width v : Nat) : s.hostWriteWith off width v 0 = s.hostWrite off width v := by
  simp [State.hostWriteWith]

theorem hostWrite_at_once {s : State} (hs : s.WritesAtOnce) {off : Nat} (ha : off % 4 = 0) (hlt : off < 0x100000) (v : Nat) :
    s.hostWrite off 4 v = s.regWrite off v := by
  have hle : ¬ 0x100000 ≤ off := by omega
  simp [State.hostWrite, hs.awake, hs.running, hs.notRecording, ha, hle]

/-- A host write to a register is the write of the handler of its block. -/
theorem exec_registerWrite {s : State} (hs : s.WritesAtOnce) {off b : Nat} (v : Word) (hr : hasReg off = true)
    (hb : off / 0x10000 = b) (hb16 : b < 16) (ha : off % 4 = 0) :
    exec (.registerWrite off 4 v 0) s = .next (s.blockWrite b off v.toNat) := by
  have hlt : off < 0x100000 := by omega
  rw [← hb, ← regWrite_eq_blockWrite s _ hr, ← hostWrite_at_once hs ha hlt, ← hostWriteWith_none]
  rfl

end Sys2Proof.Machine
end

section
/-! SUPPORT. What a write by access codes leaves in each field (R10, R11). -/
namespace Sys2Proof.Machine

/-! ### Operations on the fields of one register -/

/-- The operation acts on each field by itself: it changes only the table of register values, and there only the place of the field. -/
structure FieldWise (op : Field × Nat × Nat → State → State) : Prop where
  regsOnly : ∀ x s, ∃ r, op x s = { s with regs := r }
  ownPlace : ∀ x s (g : Field) (i j : Nat), g.key i j ≠ x.1.key x.2.1 x.2.2 → (op x s).rd g i j = s.rd g i j

/-- The places of the fields of a list in the table of register values. -/
def keysOf (l : List (Field × Nat × Nat)) : List Nat := l.map fun x => x.1.key x.2.1 x.2.2

section
variable {op : Field × Nat × Nat → State → State} (hop : FieldWise op)
include hop

theorem FieldWise.over_regsOnly (l : List (Field × Nat × Nat)) (s : State) : ∃ r, s.over l op = { s with regs := r } := by
  induction l generalizing s with
  | nil => exact ⟨s.regs, rfl⟩
  | cons x l ih =>
    obtain ⟨r, hr⟩ := hop.regsOnly x s
    obtain ⟨r', hr'⟩ := ih (op x s)
    exact ⟨r', hr'.trans (by rw [hr])⟩

theorem FieldWise.rd_over_ne {l : List (Field × Nat × Nat)} (s : State) {g : Field} {i j : Nat} (h : g.key i j ∉ keysOf l) :
    (s.over l op).rd g i j = s.rd g i j := by
  induction l generalizing s with
  | nil => rfl
  | cons x l ih =>
    obtain ⟨hx, hl⟩ := List.ne_and_not_mem_of_not_mem_cons h
    exact (ih (op x s) hl).trans (hop.ownPlace x s g i j hx)

/-- A field reads as its own operation leaves it, on a state in which no other field's operation can be seen. -/
theorem FieldWise.rd_over_mem {l : List (Field × Nat × Nat)} (s : State) {x : Field × Nat × Nat} (hd : (keysOf l).Nodup) (hx : x ∈ l) :
    ∃ u : State, (s.over l op).rd x.1 x.2.1 x.2.2 = (op x u).rd x.1 x.2.1 x.2.2 ∧ u.rd x.1 x.2.1 x.2.2 = s.rd x.1 x.2.1 x.2.2 ∧
      ∀ (g : Field) (i j : Nat), g.key i j ∉ keysOf l → u.rd g i j = s.rd g i j := by
  induction l generalizing s with
  | nil => cases hx
  | cons y l ih =>
    obtain ⟨hy, hd⟩ := List.nodup_cons.mp hd
    rcases List.mem_cons.mp hx with rfl | hx
    · exact ⟨s, hop.rd_over_ne (op x s) hy, rfl, fun _ _ _ _ => rfl⟩
    · have hne : x.1.key x.2.1 x.2.2 ≠ y.1.key y.2.1 y.2.2 := fun e => hy (List.mem_map.mpr ⟨x, hx, e⟩)
      obtain ⟨u, hread, hsame, helse⟩ := ih (op y s) hd hx
      refine ⟨u, hread, hsame.trans (hop.ownPlace y s _ _ _ hne), fun g i j hg => ?_⟩
      obtain ⟨hgy, hgl⟩ := List.ne_and_not_mem_of_not_mem_cons hg
      exact (helse g i j hgl).trans (hop.ownPlace y s g i j hgy)

end

theorem keysOf_fieldsAt {off k : Nat} (h : k / 32 ≠ off) : k ∉ keysOf (fieldsAt off) := by
  intro hk
  obtain ⟨x, hx, rfl⟩ := List.mem_map.mp hk
  exact h (fieldsAt_key hx)

/-! ### Access codes -/

theorem fieldWise_fieldWrite (v : Nat) : FieldWise fun x a => a.fieldWrite v x.1 x.2.1 x.2.2 where
  regsOnly x s := by
    simp only [State.fieldWrite]
    cases x.1.acc with
    | rw | w1c => exact ⟨_, rfl⟩
    | ro | w1s | wo => exact ⟨s.regs, rfl⟩
    | bl =>
      dsimp only
      split
      · exact ⟨s.regs, rfl⟩
      · exact ⟨_, rfl⟩
  ownPlace x s g i j h := by
    simp only [State.fieldWrite]
    cases x.1.acc with
    | rw | w1c => exact rd_wr_ne _ _ _ _ _ _ _ _ h
    | ro | w1s | wo => rfl
    | bl =>
      dsimp only
      split
      · rfl
      · exact rd_wr_ne _ _ _ _ _ _ _ _ h

/-- Nothing but the table of register values differs. -/
theorem eq_own_regs {s t : State} (h : ∃ r, t = { s with regs := r }) : t = { s with regs := t.regs } := by
  obtain ⟨r, rfl⟩ := h
  rfl

theorem plain_eq_over (s : State) (off v : Nat) :
    s.plain off v = s.over (fieldsAt off) fun x a => a.fieldWrite v x.1 x.2.1 x.2.2 := rfl

theorem plain_regsOnly (s : State) (off v : Nat) : s.plain off v = { s with regs := (s.plain off v).regs } :=
  eq_own_regs ((fieldWise_fieldWrite v).over_regsOnly _ s)

theorem rd_plain_ne (s : State) (v : Nat) {off : Nat} {g : Field} {i j : Nat} (h : g.key i j / 32 ≠ off) :
    (s.plain off v).rd g i j = s.rd g i j :=
  (fieldWise_fieldWrite v).rd_over_ne s (keysOf_fieldsAt h)

theorem part_mod (f : Field) (j v : Nat) : f.part j v % 2 ^ f.w = f.part j v := Nat.mod_mod _ _

section
variable {s : State} {off v i j : Nat} {f : Field} (hd : (keysOf (fieldsAt off)).Nodup) (hx : (f, i, j) ∈ fieldsAt off)
include hd hx

theorem rd_plain_rw (ha : f.acc = .rw) (hw : f.w ≤ 32) : (s.plain off v).rd f i j = f.part j v := by
  obtain ⟨u, hread, -, -⟩ := (fieldWise_fieldWrite v).rd_over_mem s hd hx
  rw [plain_eq_over, hread, State.fieldWrite, ha]
  exact (rd_wr_same u f _ i j hw).trans (part_mod f j v)

theorem rd_plain_w1c (ha : f.acc = .w1c) (hw : f.w ≤ 32) :
    (s.plain off v).rd f i j = Nat.land (s.rd f i j) (2 ^ f.w - 1 - f.part j v) % 2 ^ f.w := by
  obtain ⟨u, hread, hsame, -⟩ := (fieldWise_fieldWrite v).rd_over_mem s hd hx
  rw [plain_eq_over, hread, State.fieldWrite, ha, ← hsame]
  exact rd_wr_same u f _ i j hw

theorem rd_plain_ro (ha : f.acc = .ro) : (s.plain off v).rd f i j = s.rd f i j := by
  obtain ⟨u, hread, hsame, -⟩ := (fieldWise_fieldWrite v).rd_over_mem s hd hx
  rw [plain_eq_over, hread, State.fieldWrite, ha]
  exact hsame

theorem rd_plain_bl (ha : f.acc = .bl) (hw : f.w ≤ 32) (hoff : Reg.PWR_BSTAT_BLAZE.key 0 0 / 32 ≠ off) :
    (s.plain off v).rd f i j = if s.bit Reg.PWR_BSTAT_BLAZE then s.rd f i j else f.part j v := by
  obtain ⟨u, hread, hsame, helse⟩ := (fieldWise_fieldWrite v).rd_over_mem s hd hx
  have hblaze : u.bit Reg.PWR_BSTAT_BLAZE = s.bit Reg.PWR_BSTAT_BLAZE := by
    rw [State.bit, State.bit, helse _ _ _ (keysOf_fieldsAt hoff)]
  rw [plain_eq_over, hread, State.fieldWrite, ha]
  dsimp only
  rw [hblaze]
  split
  · exact hsame
  · exact (rd_wr_same u f _ i j hw).trans (part_mod f j v)

end

/-! ### The module acts in the clock cycle of a write (R11) -/

theorem fieldWise_sameSet (old : State) (same : Nat) : FieldWise fun x a =>
    if x.1.acc = .w1c then
      a.wr x.1 (Nat.lor (a.rd x.1 x.2.1 x.2.2) (Nat.land (old.rd x.1 x.2.1 x.2.2) (x.1.part x.2.2 same))) x.2.1 x.2.2
    else a where
  regsOnly x s := by
    split
    · exact ⟨_, rfl⟩
    · exact ⟨s.regs, rfl⟩
  ownPlace x s g i j h := by
    split
    · exact rd_wr_ne _ _ _ _ _ _ _ _ h
    · rfl

theorem rd_sameSet_w1c {s old : State} {off same i j : Nat} {f : Field} (hd : (keysOf (fieldsAt off)).Nodup)
    (hx : (f, i, j) ∈ fieldsAt off) (ha : f.acc = .w1c) (hw : f.w ≤ 32) :
    (s.sameSet old off same).rd f i j = Nat.lor (s.rd f i j) (Nat.land (old.rd f i j) (f.part j same)) % 2 ^ f.w := by
  obtain ⟨u, hread, hsame, -⟩ := (fieldWise_sameSet old same).rd_over_mem s hd hx
  rw [← hsame]
  refine hread.trans ?_
  rw [if_pos ha]
  exact rd_wr_same u f _ i j hw

/-- A register without a W1S bit has no action to complete. -/
theorem sameDone_of_no_w1s (s : State) {off : Nat} (same : Nat) (h : ∀ x ∈ fieldsAt off, x.1.acc ≠ .w1s) : s.sameDone off same = s := by
  unfold State.sameDone
  generalize fieldsAt off = l at h
  induction l with
  | nil => rfl
  | cons x l ih =>
    have hx : x.1.acc ≠ .w1s := h x List.mem_cons_self
    simp only [State.over, List.foldl_cons, hx, if_false]
    exact ih fun y hy => h y (List.mem_cons_of_mem _ hy)

end Sys2Proof.Machine
end

section
/-! SUPPORT. Registers that do nothing but hold their fields (R9 to R12, R59, R408). -/
namespace Sys2Proof.Machine
open Sys2Proof.Claims

/-! ### Registers written by access codes alone -/

/-- Where the first field of the pair lies, and that no two fields share a place there. -/
theorem plainFields_located : ∀ p ∈ plainFields, (p.1, p.2, 0) ∈ fieldsAt (p.1.base + p.1.s1 * p.2) ∧
    (keysOf (fieldsAt (p.1.base + p.1.s1 * p.2))).Nodup ∧ p.1.acc = .rw ∧ p.1.w ≤ 32 ∧ p.1.bs = 0 ∧
    (p.1.base + p.1.s1 * p.2) % 4 = 0 ∧ (p.1.base + p.1.s1 * p.2) / 0x10000 < 16 := by decide +kernel

/-- The handler of each block writes these registers by their access codes and does nothing else. -/
theorem blockWrite_plainFields (s : State) (v : Nat) : ∀ p ∈ plainFields,
    s.blockWrite ((p.1.base + p.1.s1 * p.2) / 0x10000) (p.1.base + p.1.s1 * p.2) v = s.plain (p.1.base + p.1.s1 * p.2) v := by
  simp only [plainFields, List.forall_mem_cons, List.not_mem_nil, false_imp_iff, implies_true, and_true]
  exact ⟨rfl, rfl, rfl, rfl, rfl, rfl, rfl, rfl, rfl, rfl, rfl, rfl, rfl⟩

theorem key_div_of_register {g : Field} {i j off : Nat} (h : g.key i j / 128 ≠ off / 4) : g.key i j / 32 ≠ off := by omega

/-- A read-write field takes the value written, and no other register changes. -/
theorem registerWrite_plainField {s : State} (hs : s.WritesAtOnce) (v : Word) {p : Field × Nat} (hp : p ∈ plainFields) :
    Does (.registerWrite (p.1.base + p.1.s1 * p.2) 4 v 0) s fun t =>
      t.rd p.1 p.2 = bitsOf v.toNat p.1.lo p.1.w ∧ t = { s with regs := t.regs } ∧
        ∀ (g : Field) (i j : Nat), g.key i j / 128 ≠ (p.1.base + p.1.s1 * p.2) / 4 → t.rd g i j = s.rd g i j := by
  obtain ⟨hx, hd, hacc, hw, hbs, h4, hb⟩ := plainFields_located p hp
  refine ⟨s.plain (p.1.base + p.1.s1 * p.2) v.toNat, ?_, ?_, plain_regsOnly s _ _, ?_⟩
  · rw [exec_registerWrite hs v (hasReg_of_field hx) rfl hb h4, blockWrite_plainFields s v.toNat p hp]
  · rw [rd_plain_rw hd hx hacc hw, Field.part, hbs, Nat.zero_mul, Nat.add_zero]
  · exact fun g i j h => rd_plain_ne s v.toNat (key_div_of_register h)

/-! ### Bits of one-bit fields -/

theorem bitAt_eq_getLsbD (v : Word) (i : Nat) : bitAt v.toNat i = v.getLsbD i := by
  rw [bitAt, BitVec.getLsbD, Nat.testBit_eq_decide_div_mod_eq]
  rfl

/-- A one-bit field is its lowest bit. -/
theorem bit_eq_testBit (s : State) (f : Field) (i j : Nat) : s.bit f i j = (s.rd f i j).testBit 0 := by
  rw [State.bit, Nat.testBit_zero]
  rfl

theorem part_testBit {f : Field} (h1 : f.w = 1) (hbs : f.bs = 0) (j : Nat) (v : Word) :
    (f.part j v.toNat).testBit 0 = v.getLsbD f.lo := by
  simp [Field.part, bitsOf, h1, hbs, BitVec.getLsbD, Nat.testBit_eq_decide_div_mod_eq]

/-- The mask of a W1C write keeps a bit where the value written has a 0. -/
theorem w1c_mask_testBit {f : Field} (h1 : f.w = 1) (hbs : f.bs = 0) (j : Nat) (v : Word) :
    (2 ^ f.w - 1 - f.part j v.toNat).testBit 0 = !v.getLsbD f.lo := by
  rw [← part_testBit h1 hbs j v]
  have hlt : f.part j v.toNat < 2 := by
    have : f.part j v.toNat < 2 ^ f.w := Nat.mod_lt _ (Nat.two_pow_pos _)
    rwa [h1] at this
  rw [h1]
  rcases (by omega : f.part j v.toNat = 0 ∨ f.part j v.toNat = 1) with h | h <;> rw [h] <;> rfl

section
variable {s : State} {off : Nat} {f : Field} (hd : (keysOf (fieldsAt off)).Nodup) (hx : (f, 0, 0) ∈ fieldsAt off)
  (h1 : f.w = 1) (hbs : f.bs = 0)
include hd hx h1 hbs

theorem bit_plain_w1c (v : Word) (ha : f.acc = .w1c) : (s.plain off v.toNat).bit f = (s.bit f && !v.getLsbD f.lo) := by
  rw [bit_eq_testBit, bit_eq_testBit, rd_plain_w1c hd hx ha (by omega), ← w1c_mask_testBit h1 hbs 0 v]
  simp [h1, Nat.land_eq]

theorem bit_plain_bl (v : Word) (ha : f.acc = .bl) (hoff : Reg.PWR_BSTAT_BLAZE.key 0 0 / 32 ≠ off) :
    (s.plain off v.toNat).bit f = if s.bit Reg.PWR_BSTAT_BLAZE then s.bit f else v.getLsbD f.lo := by
  rw [bit_eq_testBit, bit_eq_testBit s f, rd_plain_bl hd hx ha (by omega) hoff, ← part_testBit h1 hbs 0 v]
  exact apply_ite (Nat.testBit · 0) _ _ _

/-- A W1C bit that the module sets in the clock cycle of the write keeps its value where it was set (R11). -/
theorem bit_sameSet (old : State) (same : Word) (ha : f.acc = .w1c) :
    (s.sameSet old off same.toNat).bit f = (s.bit f || (old.bit f && same.getLsbD f.lo)) := by
  rw [bit_eq_testBit, bit_eq_testBit, bit_eq_testBit, rd_sameSet_w1c hd hx ha (by omega), ← part_testBit h1 hbs 0 same]
  simp [h1, Nat.lor_eq, Nat.land_eq]

end

/-! ### HST_TSTAT, HST_LBASE, TLY_RSMAP and LND_MWP -/

theorem tstat_located : (keysOf (fieldsAt 0x20004)).Nodup ∧ (Reg.HST_TSTAT_STEPREJ, 0, 0) ∈ fieldsAt 0x20004 ∧
    (Reg.HST_TSTAT_RATECLAMP, 0, 0) ∈ fieldsAt 0x20004 ∧ (Reg.HST_TSTAT_HOLDOVER, 0, 0) ∈ fieldsAt 0x20004 ∧
    ∀ x ∈ fieldsAt 0x20004, x.1.acc ≠ .w1s := by decide +kernel

theorem registerWrite_tstat {s : State} (hs : s.WritesAtOnce) (v : Word) : Does (.registerWrite 0x20004 4 v 0) s fun t =>
    t.bit Reg.HST_TSTAT_STEPREJ = (s.bit Reg.HST_TSTAT_STEPREJ && !v.getLsbD 0) ∧
    t.bit Reg.HST_TSTAT_RATECLAMP = (s.bit Reg.HST_TSTAT_RATECLAMP && !v.getLsbD 1) ∧
    t.bit Reg.HST_TSTAT_HOLDOVER = s.bit Reg.HST_TSTAT_HOLDOVER ∧ t = { s with regs := t.regs } := by
  obtain ⟨hd, hrej, hclamp, hhold, -⟩ := tstat_located
  refine ⟨s.plain 0x20004 v.toNat, exec_registerWrite hs v (hasReg_of_field hrej) rfl (by decide) rfl, bit_plain_w1c hd hrej rfl rfl v rfl,
    bit_plain_w1c hd hclamp rfl rfl v rfl, ?_, plain_regsOnly s _ _⟩
  rw [State.bit, State.bit, rd_plain_ro hd hhold rfl]

/-- STEPREJ, set by the module in the clock cycle of the write, survives the write; RATECLAMP does not (R11). -/
theorem registerWrite_tstat_same {s : State} (hs : s.WritesAtOnce) (v : Word) : Does (.registerWrite 0x20004 4 v 1) s fun t =>
    t.bit Reg.HST_TSTAT_STEPREJ = s.bit Reg.HST_TSTAT_STEPREJ ∧
    t.bit Reg.HST_TSTAT_RATECLAMP = (s.bit Reg.HST_TSTAT_RATECLAMP && !v.getLsbD 1) := by
  obtain ⟨hd, hrej, hclamp, -, hnoact⟩ := tstat_located
  have hwrite : s.hostWriteWith 0x20004 4 v.toNat (1#32).toNat = (s.plain 0x20004 v.toNat).sameSet s 0x20004 (1#32).toNat := by
    show ((s.sameDone 0x20004 1).hostWrite 0x20004 4 v.toNat).sameSet s 0x20004 1 = _
    rw [sameDone_of_no_w1s s 1 hnoact, hostWrite_at_once hs rfl (by decide), regWrite_eq_blockWrite s _ (hasReg_of_field hrej)]
    rfl
  refine ⟨_, congrArg Host.Outcome.next hwrite, ?_, ?_⟩
  · rw [bit_sameSet hd hrej rfl rfl s 1#32 rfl, bit_plain_w1c hd hrej rfl rfl v rfl]
    simpa [show (1#32).getLsbD Reg.HST_TSTAT_STEPREJ.lo = true from rfl] using fun h _ => h
  · rw [bit_sameSet hd hclamp rfl rfl s 1#32 rfl, bit_plain_w1c hd hclamp rfl rfl v rfl]
    simp [show Reg.HST_TSTAT_RATECLAMP.lo = 1 from rfl]

/-- Bits [4:0] of a list's base ignore writes (R59). -/
theorem registerWrite_lbase {s : State} (hs : s.WritesAtOnce) (v : Word) (m : Fin 256) :
    Does (.registerWrite (0x21004 + 16 * m) 4 v 0) s fun t => t.rd Reg.HST_LBASE_BASE m = v.toNat / 32 * 32 ∧
      t = { s with regs := t.regs } := by
  have hb : (0x21004 + 16 * m.val) / 0x10000 = 2 := by omega
  have hr : hasReg (0x21004 + 16 * m.val) = true :=
    hasReg_of_index (f := Reg.HST_LBASE_BASE) (by decide +kernel) hb rfl m.isLt (by decide) (by decide)
  have hgroup : group 0x21000 16 256 (0x21004 + 16 * m.val) = some (m.val, 4) := group_at m.isLt (by decide) (by omega)
  have hring : group 0x20100 32 8 (0x21004 + 16 * m.val) = none := group_outside (by omega)
  have hwrite : s.hstWrite (0x21004 + 16 * m.val) v.toNat = s.wr Reg.HST_LBASE_BASE (v.toNat / 32 * 32) m := by
    rw [State.hstWrite, if_neg (by omega), if_neg (by omega), if_neg (by omega), hring, hgroup]
    rfl
  refine ⟨s.wr Reg.HST_LBASE_BASE (v.toNat / 32 * 32) m, ?_, ?_, rfl⟩
  · rw [exec_registerWrite hs v hr hb (by decide) (by omega)]
    exact congrArg _ hwrite
  · rw [rd_wr_same _ Reg.HST_LBASE_BASE]
    exact Nat.mod_eq_of_lt (Nat.lt_of_le_of_lt (Nat.div_mul_le_self _ _) v.isLt)

theorem rsmap_located : ∀ i : Fin 2, (keysOf (fieldsAt (0xD0208 + 4 * i))).Nodup ∧
    (Reg.TLY_RSMAP_RING, i.val, 0) ∈ fieldsAt (0xD0208 + 4 * i) := by decide +kernel

/-- The reserved bits of TLY_RSMAP ignore writes (R12). -/
theorem registerWrite_rsmap {s : State} (hs : s.WritesAtOnce) (v : Word) (i : Fin 2) :
    Does (.registerWrite (0xD0208 + 4 * i) 4 v 0) s fun t => t.rd Reg.TLY_RSMAP_RING i = (v &&& 0x77777777#32).toNat ∧
      t = { s with regs := t.regs } := by
  obtain ⟨hd, hx⟩ := rsmap_located i
  have hwrite : s.blockWrite 13 (0xD0208 + 4 * i.val) v.toNat = s.plain (0xD0208 + 4 * i.val) (v &&& 0x77777777#32).toNat := by
    rw [BitVec.toNat_and]
    rcases (by omega : i.val = 0 ∨ i.val = 1) with h | h <;> rw [h] <;> rfl
  refine ⟨s.plain (0xD0208 + 4 * i) (v &&& 0x77777777#32).toNat, ?_, ?_, plain_regsOnly s _ _⟩
  · rw [exec_registerWrite hs v (hasReg_of_field hx) (by omega : _ = 13) (by decide) (by omega), hwrite]
  · rw [rd_plain_rw hd hx rfl (by decide)]
    show (v &&& 0x77777777#32).toNat / 2 ^ 0 % 2 ^ 32 = _
    rw [Nat.pow_zero, Nat.div_one, Nat.mod_eq_of_lt (BitVec.isLt _)]

theorem mwp_located : (keysOf (fieldsAt 0x80070)).Nodup ∧ (Reg.LND_MWP_FWB, 0, 0) ∈ fieldsAt 0x80070 ∧
    (Reg.LND_MWP_CFG, 0, 0) ∈ fieldsAt 0x80070 ∧ Reg.PWR_BSTAT_BLAZE.key 0 0 / 32 ≠ 0x80070 := by decide +kernel

theorem registerWrite_mwp {s : State} (hs : s.WritesAtOnce) (v : Word) : Does (.registerWrite 0x80070 4 v 0) s fun t =>
    t.bit Reg.LND_MWP_FWB = (if s.bit Reg.PWR_BSTAT_BLAZE then s.bit Reg.LND_MWP_FWB else v.getLsbD 0) ∧
    t.bit Reg.LND_MWP_CFG = (if s.bit Reg.PWR_BSTAT_BLAZE then s.bit Reg.LND_MWP_CFG else v.getLsbD 1) := by
  obtain ⟨hd, hfwb, hcfg, hoff⟩ := mwp_located
  exact ⟨s.plain 0x80070 v.toNat, exec_registerWrite hs v (hasReg_of_field hfwb) rfl (by decide) rfl, bit_plain_bl hd hfwb rfl rfl v rfl hoff,
    bit_plain_bl hd hcfg rfl rfl v rfl hoff⟩

/-! ### Writes that have no effect yet, or none at all -/

theorem registerWrite_unaligned (v : Word) {s : State} (h3 : s.hif.d3 = false) {off width : Nat} (h : width ≠ 4 ∨ off % 4 ≠ 0) :
    exec (.registerWrite off width v 0) s = .next s := by
  show Host.Outcome.next (s.hostWriteWith off width v.toNat 0) = _
  have : width ≠ 4 ∨ off % 4 ≠ 0 ∨ 0x100000 ≤ off := h.imp_right .inl
  simp [hostWriteWith_none, State.hostWrite, h3, this]

theorem registerWrite_recording (v : Word) {s : State} (h3 : s.hif.d3 = false) (hrec : s.pwr.recovery = false)
    (hrun : s.bit Reg.TLY_RSTAT_RUN = true) :
    exec (.registerWrite 0x30008 4 v 0) s = .next { s with tly := { s.tly with deferred := s.tly.deferred ++ [(0x30008, v, [])] } } := by
  show Host.Outcome.next (s.hostWriteWith 0x30008 4 v.toNat 0) = _
  simp [hostWriteWith_none, State.hostWrite, h3, hrec, hrun, recBlocks]

theorem fieldsFollowAccessCodes : FieldsFollowAccessCodes := by
  intro v s h3 hrec
  refine ⟨fun hrun => ⟨_, registerWrite_recording v h3 hrec hrun, rfl⟩, fun off width h => registerWrite_unaligned v h3 h, fun hrun => ?_⟩
  have hs : s.WritesAtOnce := ⟨h3, hrec, hrun⟩
  exact ⟨fun p hp => registerWrite_plainField hs v hp, registerWrite_tstat hs v, registerWrite_tstat_same hs v,
    registerWrite_lbase hs v, registerWrite_rsmap hs v, registerWrite_mwp hs v⟩

end Sys2Proof.Machine
end

section
/-! SUPPORT. A write to a register that gives a command is the command. -/
namespace Sys2Proof.Machine
open Sys2Proof.Claims

/-! ### The handlers at the registers of indexed commands -/

theorem hstWrite_listControl (s : State) (m : Fin 256) (v : Nat) : s.hstWrite (0x21000 + 16 * m) v = s.listControl m v := by
  have hring : group 0x20100 32 8 (0x21000 + 16 * m.val) = none := group_outside (by omega)
  have hlist : group 0x21000 16 256 (0x21000 + 16 * m.val) = some (m.val, 0) := group_at m.isLt (by decide) rfl
  rw [State.hstWrite, if_neg (by omega), if_neg (by omega), if_neg (by omega), hring, hlist]
  rfl

theorem cleWrite_filterCommit (s : State) (f : Fin 512) : s.cleWrite (0x31014 + 32 * f) 1 = s.fsetCommit f := by
  have hset : group 0x31000 32 512 (0x31014 + 32 * f.val) = some (f.val, 20) := group_at f.isLt (by decide) (by omega)
  rw [State.cleWrite, if_neg (by omega), if_neg (by omega), hset]
  rfl

theorem fbkWrite_zArm (s : State) (c : Fin 24) : s.fbkWrite (0x50124 + 64 * c) 1 = s.zArm c := by
  have hch : group 0x50100 64 24 (0x50124 + 64 * c.val) = some (c.val, 0x24) := group_at c.isLt (by decide) (by omega)
  rw [State.fbkWrite, if_neg (by omega), if_neg (by omega), if_neg (by omega), hch]
  rfl

/-- TEX_EFLAGSt and TEX_EFLAGCt, 12 and 16 bytes into the task's registers (R194). -/
theorem texWrite_eflag (s : State) (t : Fin 256) (v : Nat) {k off : Nat} (ho : off = 0x75400 + 32 * t.val + k) (hk : k = 12 ∨ k = 16) :
    s.texWrite off v = if k = 12 then s.flagSet 4 0 t v else s.flagClear 4 0 t v := by
  have hstop : texStopOnly.contains off = false := by simp [texStopOnly]; omega
  have hcfg : group 0x74000 16 256 off = none := group_outside (by omega)
  have htask : group 0x75400 32 256 off = some (t.val, k) := group_at t.isLt (by omega) ho
  rw [State.texWrite, hstop, if_neg (by decide), if_neg (by omega), if_neg (by omega), if_neg (by omega), if_neg (by omega),
    if_neg (by omega), hcfg, htask]
  rcases hk with rfl | rfl <;> rfl

theorem eachBit_eq_over_filter (s : State) (mask n : Nat) (f : Nat → State → State) :
    s.eachBit mask n f = s.over ((upFrom 0 n).filter (bitAt mask)) f := by
  unfold State.eachBit State.over
  exact (List.foldl_filter ..).symm

/-- The two halves of the pool's command each name one engine, or none. -/
theorem pool_command_bits : ∀ e : Fin 8,
    (upFrom 0 8).filter (bitAt (bitsOf (BitVec.ofNat 32 (2 ^ e.val)).toNat 0 8)) = [e.val] ∧
    (upFrom 0 8).filter (bitAt (bitsOf (BitVec.ofNat 32 (2 ^ e.val)).toNat 8 8)) = [] ∧
    (upFrom 0 8).filter (bitAt (bitsOf (BitVec.ofNat 32 (2 ^ (8 + e.val))).toNat 0 8)) = [] ∧
    (upFrom 0 8).filter (bitAt (bitsOf (BitVec.ofNat 32 (2 ^ (8 + e.val))).toNat 8 8)) = [e.val] := by decide

theorem texWrite_pool (s : State) (v : Nat) : s.texWrite 0x75010 v =
    (s.over ((upFrom 0 8).filter (bitAt (bitsOf v 0 8))) fun e a => a.engineLeave e).over
      ((upFrom 0 8).filter (bitAt (bitsOf v 8 8))) fun e a => a.engineJoin e := by
  rw [← eachBit_eq_over_filter, ← eachBit_eq_over_filter]
  rfl

theorem texWrite_engineLeave (s : State) (e : Fin 8) : s.texWrite 0x75010 (BitVec.ofNat 32 (2 ^ e.val)).toNat = s.engineLeave e := by
  obtain ⟨hleave, hjoin, -, -⟩ := pool_command_bits e
  rw [texWrite_pool, hleave, hjoin]
  rfl

theorem texWrite_engineJoin (s : State) (e : Fin 8) : s.texWrite 0x75010 (BitVec.ofNat 32 (2 ^ (8 + e.val))).toNat = s.engineJoin e := by
  obtain ⟨-, -, hleave, hjoin⟩ := pool_command_bits e
  rw [texWrite_pool, hleave, hjoin]
  rfl

theorem netWrite_stationRelease (s : State) (i : Fin 256) : s.netWrite 0x90420 (BitVec.ofNat 32 (2 ^ 31 + i.val)).toNat = s.stnRelease i := by
  have hrel : (Reg.NET_STCMD_RELEASE).part 0 (BitVec.ofNat 32 (2 ^ 31 + i.val)).toNat = 1 := by
    simp [Field.part, bitsOf, Reg.NET_STCMD_RELEASE]; omega
  have hstn : (Reg.NET_STCMD_STN).part 0 (BitVec.ofNat 32 (2 ^ 31 + i.val)).toNat = i := by
    simp [Field.part, bitsOf, Reg.NET_STCMD_STN]; omega
  show (if (Reg.NET_STCMD_RELEASE).part 0 _ = 1 then s.stnRelease ((Reg.NET_STCMD_STN).part 0 _) else s) = _
  rw [if_pos hrel, hstn]

theorem blockWrite_saf (s : State) (off v : Nat) : s.blockWrite 11 off v = s.safWrite off v := rfl

theorem safWrite_groupReset (s : State) (m : BitVec 8) : s.safWrite 0xB0004 (BitVec.ofNat 32 (m.toNat * 2 ^ 16)).toNat = s.grpAck m.toNat := by
  have hm := m.isLt
  have hack : (Reg.SAF_CMD_ACK).part 0 (BitVec.ofNat 32 (m.toNat * 2 ^ 16)).toNat = m.toNat := by
    simp [Field.part, bitsOf, Reg.SAF_CMD_ACK]; omega
  have hend : ¬ (Reg.SAF_CMD_HMEND).part 0 (BitVec.ofNat 32 (m.toNat * 2 ^ 16)).toNat = 1 := by
    simp [Field.part, bitsOf, Reg.SAF_CMD_HMEND]; omega
  have hfack : ¬ (Reg.SAF_CMD_FACK).part 0 (BitVec.ofNat 32 (m.toNat * 2 ^ 16)).toNat = 1 := by
    simp [Field.part, bitsOf, Reg.SAF_CMD_FACK]; omega
  rw [State.safWrite, if_pos rfl, hack]
  simp only [hend, hfack, if_false]

theorem safWrite_brakeTestStart (s : State) (b : Fin 4) : s.safWrite 0xB0200 (BitVec.ofNat 32 (2 ^ 31 + b.val)).toNat = s.brakeTest b := by
  have hparts : ∀ b : Fin 4, (Reg.SAF_BTCMD_ABORT).part 0 (BitVec.ofNat 32 (2 ^ 31 + b.val)).toNat ≠ 1 ∧
      (Reg.SAF_BTCMD_START).part 0 (BitVec.ofNat 32 (2 ^ 31 + b.val)).toNat = 1 ∧
      (Reg.SAF_BTCMD_BRK).part 0 (BitVec.ofNat 32 (2 ^ 31 + b.val)).toNat = b := by decide
  obtain ⟨habort, hstart, hbrk⟩ := hparts b
  rw [State.safWrite, if_neg (by decide), if_neg (by decide), if_pos rfl]
  simp only [habort, hstart, hbrk, if_true, if_false]

theorem tlyWrite_tallyRead (s : State) (i : Fin 32768) : s.tlyWrite 0xD000C (BitVec.ofNat 32 i).toNat = s.tallyShow i := by
  have hi : (BitVec.ofNat 32 i.val).toNat % 32768 = i := by rw [BitVec.toNat_ofNat]; omega
  show s.tallyShow ((BitVec.ofNat 32 i.val).toNat % 32768) = _
  rw [hi]

theorem group_keep (w : Fin 8192) : group 0xE8000 4 8192 (0xE8000 + 4 * w.val) = some (w.val, 0) := group_at w.isLt (by decide) rfl

theorem pwrWrite_keepWrite (s : State) (w : Fin 8192) (v : Nat) : s.pwrWrite (0xE8000 + 4 * w) v = s.keepPut w v := by
  rw [State.pwrWrite, if_neg (by omega), if_neg (by omega), group_keep]

theorem dblWrite_doorbell (s : State) (r : Fin 42) (v : Nat) : s.dblWrite (0xF0000 + 4 * r) v = s.doorbell r v [] := by
  have hring : group 0xF0000 4 42 (0xF0000 + 4 * r.val) = some (r.val, 0) := group_at r.isLt (by decide) rfl
  rw [State.dblWrite, hring]

/-- A doorbell that nothing waits before is performed at once (R279). -/
theorem exec_doorbell {s : State} (h3 : s.hif.d3 = false) (hdef : s.tly.deferred = []) (r : Fin 42) (v : Word) :
    exec (.doorbell r v []) s = .next (s.doorbell r v.toNat []) := by
  show Host.Outcome.next (s.hostDoorbell r v []) = _
  rw [State.hostDoorbell, h3, if_neg (by decide), if_pos hdef]

/-! ### The register write and the row -/

/-- The command that a register's handler performs is the register write. -/
theorem registerWrite_eq_row {s t : State} (hs : s.WritesAtOnce) {off b : Nat} {w : Word} {i : Instr} (hr : hasReg off = true)
    (hb : off / 0x10000 = b) (hb16 : b < 16) (ha : off % 4 = 0) (hw : s.blockWrite b off w.toNat = t) (hrow : exec i s = .next t) :
    exec (.registerWrite off 4 w 0) s = exec i s := by
  rw [exec_registerWrite hs w hr hb hb16 ha, hw, hrow]

/-- A register of an indexed command. -/
theorem registerWrite_eq_row_of_index {s t : State} (hs : s.WritesAtOnce) (f : Field) {b k off : Nat} {w : Word} {i : Instr}
    (hf : (Reg.blockFields b).contains f && decide (0 < f.c2 ∧ 0 < f.s1 ∧ f.s1 % 4 = 0 ∧ f.base % 4 = 0 ∧ b < 16) = true)
    (hk : k < f.c1) (ho : off = f.base + f.s1 * k) (hb : off / 0x10000 = b) (hw : s.blockWrite b off w.toNat = t)
    (hrow : exec i s = .next t) : exec (.registerWrite off 4 w 0) s = exec i s := by
  simp only [Bool.and_eq_true, List.contains_iff_mem, decide_eq_true_eq] at hf
  obtain ⟨hmem, hc2, hs1, hs4, hb4, hb16⟩ := hf
  have ha : off % 4 = 0 := by simp [ho, Nat.add_mod, Nat.mul_mod, hs4, hb4]
  exact registerWrite_eq_row hs (hasReg_of_index hmem hb ho hk hc2 hs1) hb hb16 ha hw hrow

/-- The offsets of the commands that have one register. -/
def commandOffsets : List Nat :=
  [0x10000, 0x2000C, 0x50000, 0x73004, 0x75010, 0x80024, 0x90000, 0x90420, 0xA0000, 0xB0004, 0xB0104, 0xB0200, 0xD0004, 0xD0008,
   0xD000C, 0xD0010, 0xE0008]

theorem hasReg_commandOffsets : ∀ off ∈ commandOffsets, hasReg off = true ∧ off / 0x10000 < 16 ∧ off % 4 = 0 := by decide +kernel

/-- A register at a fixed offset, whose handler at the value written is the command's operation. -/
theorem registerWrite_eq_row_at {s t : State} (hs : s.WritesAtOnce) {off : Nat} {w : Word} {i : Instr}
    (hw : s.blockWrite (off / 0x10000) off w.toNat = t) (hrow : exec i s = .next t) (hoff : off ∈ commandOffsets := by decide) :
    exec (.registerWrite off 4 w 0) s = exec i s := by
  obtain ⟨hr, hb16, ha⟩ := hasReg_commandOffsets off hoff
  exact registerWrite_eq_row hs hr rfl hb16 ha hw hrow

section
variable {s : State} (hs : s.WritesAtOnce)
include hs

theorem registerWrite_listControl (v : Word) (m : Fin 256) :
    exec (.registerWrite (0x21000 + 16 * m) 4 v 0) s = exec (.listControl m v) s :=
  registerWrite_eq_row_of_index hs Reg.HST_LCTL_START (b := 2) (by decide +kernel) m.isLt rfl (by omega) (hstWrite_listControl s m _) rfl

theorem registerWrite_filterCommit (f : Fin 512) : exec (.registerWrite (0x31014 + 32 * f) 4 1#32 0) s = exec (.filterCommit f) s :=
  registerWrite_eq_row_of_index hs Reg.CLE_FSET_COMMIT (b := 3) (by decide +kernel) f.isLt rfl (by omega) (cleWrite_filterCommit s f) rfl

theorem registerWrite_zArm (c : Fin 24) : exec (.registerWrite (0x50124 + 64 * c) 4 1#32 0) s = exec (.zArm c) s :=
  registerWrite_eq_row_of_index hs Reg.FBK_ZCTL_ZARM (b := 5) (by decide +kernel) c.isLt rfl (by omega) (fbkWrite_zArm s c) rfl

theorem registerWrite_eflagSet (v : Word) (k : Fin 256) : exec (.registerWrite (0x7540C + 32 * k) 4 v 0) s = exec (.eflagSet k v) s :=
  registerWrite_eq_row_of_index hs Reg.TEX_EFLAG_F (b := 7) (by decide +kernel) k.isLt rfl (by omega)
    (texWrite_eflag s k v.toNat (k := 12) (by omega) (.inl rfl)) rfl

theorem registerWrite_eflagClear (v : Word) (k : Fin 256) : exec (.registerWrite (0x75410 + 32 * k) 4 v 0) s = exec (.eflagClear k v) s :=
  registerWrite_eq_row_of_index hs Reg.TEX_EFLAGC_F (b := 7) (by decide +kernel) k.isLt rfl (by omega)
    (texWrite_eflag s k v.toNat (k := 16) (by omega) (.inr rfl)) rfl

theorem registerWrite_keepWrite (v : Word) (w : Fin 8192) : exec (.registerWrite (0xE8000 + 4 * w) 4 v 0) s = exec (.keepWrite w v) s := by
  have hr : hasReg (0xE8000 + 4 * w.val) = true := by simp only [hasReg, group_keep, Option.isSome_some, Bool.or_true, Bool.true_or]
  exact registerWrite_eq_row hs (b := 14) hr (by omega) (by decide) (by omega) (pwrWrite_keepWrite s w _) rfl

theorem registerWrite_doorbell (hdef : s.tly.deferred = []) (v : Word) (r : Fin 42) :
    exec (.registerWrite (0xF0000 + 4 * r) 4 v 0) s = exec (.doorbell r v []) s :=
  registerWrite_eq_row_of_index hs Reg.DBL_RING_CNT (b := 15) (by decide +kernel) r.isLt rfl (by omega) (dblWrite_doorbell s r _)
    (exec_doorbell hs.awake hdef r v)

theorem registerWrite_engineLeave (e : Fin 8) :
    exec (.registerWrite 0x75010 4 (BitVec.ofNat 32 (2 ^ e.val)) 0) s = exec (.engineLeave e) s :=
  registerWrite_eq_row_at hs (texWrite_engineLeave s e) rfl

theorem registerWrite_engineJoin (e : Fin 8) :
    exec (.registerWrite 0x75010 4 (BitVec.ofNat 32 (2 ^ (8 + e.val))) 0) s = exec (.engineJoin e) s :=
  registerWrite_eq_row_at hs (texWrite_engineJoin s e) rfl

theorem registerWrite_stationRelease (i : Fin 256) :
    exec (.registerWrite 0x90420 4 (BitVec.ofNat 32 (2 ^ 31 + i.val)) 0) s = exec (.stationRelease i) s :=
  registerWrite_eq_row_at hs (netWrite_stationRelease s i) rfl

theorem registerWrite_groupReset (m : BitVec 8) :
    exec (.registerWrite 0xB0004 4 (BitVec.ofNat 32 (m.toNat * 2 ^ 16)) 0) s = exec (.groupReset m) s :=
  registerWrite_eq_row_at hs ((blockWrite_saf s _ _).trans (safWrite_groupReset s m)) rfl

theorem registerWrite_brakeTestStart (b : Fin 4) :
    exec (.registerWrite 0xB0200 4 (BitVec.ofNat 32 (2 ^ 31 + b.val)) 0) s = exec (.brakeTestStart b) s :=
  registerWrite_eq_row_at hs (safWrite_brakeTestStart s b) rfl

theorem registerWrite_tallyRead (i : Fin 32768) : exec (.registerWrite 0xD000C 4 (BitVec.ofNat 32 i) 0) s = exec (.tallyRead i) s :=
  registerWrite_eq_row_at hs (tlyWrite_tallyRead s i) rfl

end

theorem commandRegistersAreTheirRows : CommandRegistersAreTheirRows := by
  intro v s h3 hrec hrun hdef
  have hs : s.WritesAtOnce := ⟨h3, hrec, hrun⟩
  refine ⟨?slewWrite, ?listControl, ?filterCommit, ?fbkClrerr, ?zArm, ?programRun, ?programStop, ?coldRestart, ?warmRestart,
    ?checkpoint, ?eflags, ?pool, ?errorLogPop, ?hifClrcnt, ?netClrcnt, ?discoveryClear, ?stationRelease, ?canClrcnt,
    ?groupReset, ?paramLoad, ?paramConfirm, ?paramDiscard, ?brakeTestStart, ?brakeTestAbort, ?tallyUnlock, ?tallyClear,
    ?tallyRead, ?tallyNext, ?softwareReset, ?keepWrite, ?doorbell⟩
  case slewWrite | fbkClrerr | programRun | programStop | coldRestart | warmRestart | checkpoint | errorLogPop | hifClrcnt |
      netClrcnt | discoveryClear | canClrcnt | paramLoad | paramConfirm | paramDiscard | brakeTestAbort | tallyUnlock |
      tallyClear | tallyNext | softwareReset =>
    exact registerWrite_eq_row_at hs rfl rfl
  case listControl => exact registerWrite_listControl hs v
  case filterCommit => exact registerWrite_filterCommit hs
  case zArm => exact registerWrite_zArm hs
  case eflags => exact fun k => ⟨registerWrite_eflagSet hs v k, registerWrite_eflagClear hs v k⟩
  case pool => exact fun e => ⟨registerWrite_engineLeave hs e, registerWrite_engineJoin hs e⟩
  case stationRelease => exact registerWrite_stationRelease hs
  case groupReset => exact registerWrite_groupReset hs
  case brakeTestStart => exact registerWrite_brakeTestStart hs
  case tallyRead => exact registerWrite_tallyRead hs
  case keepWrite => exact registerWrite_keepWrite hs v
  case doorbell => exact registerWrite_doorbell hs hdef v

end Sys2Proof.Machine
end

section
/-! The statements about registers: what reset leaves in them, and what a host write does. -/
namespace Sys2Proof.Machine
open Sys2Proof.Claims

/-- After reset no field is listed, so each reads as its reset value (R13). -/
theorem rd_reset (f : Field) (i j : Nat) : State.reset.rd f i j = f.reset i % 2 ^ 32 := by
  have hregs : State.reset.regs = [] := rfl
  rw [State.rd, hregs, tabAt_nil, BitVec.toNat_ofNat]

/-- A one-bit field with reset value 0 reads 0 after reset. -/
theorem bit_reset {f : Field} {i j : Nat} (h : f.reset i = 0) : State.reset.bit f i j = false := by
  rw [State.bit, rd_reset, h]
  rfl

/-- No claim is raised: the ensign reads 0 (R374, R376). -/
theorem enabled_reset : State.reset.enabled = false := by
  have hens : State.reset.ensign = 0 := rd_reset Reg.TRH_ENSIGN_E 0 0
  simp [State.enabled, hens]

theorem canonical_reset : State.reset.canonical = true := rfl

theorem timeInRange_reset : State.reset.timeInRange = true := by decide

/-- Settles O60: no register is listed, so every field reads as its reset value; the islands' parts are those of the initial state. -/
theorem resetLeaves : Obligations.ResetLeaves :=
  ⟨rd_reset, rd_reset Reg.TEX_PSTAT_STATE 0 0, rd_reset Reg.SAF_STAT_MSTATE 0 0, rfl, enabled_reset, fun _ => bit_reset rfl,
    bit_reset rfl, rfl, rfl, canonical_reset, timeInRange_reset, rfl, rfl, rfl⟩

/-- Settles O25: each field is written by its own access code at its own place, and each command register's handler is the
operation of its row. -/
theorem registerWritesByAccessCode : Obligations.RegisterWritesByAccessCode :=
  ⟨fieldsFollowAccessCodes, commandRegistersAreTheirRows⟩

end Sys2Proof.Machine
end

section
/-! SUPPORT. Registers through events and through a new entry of the error log: what each writes, and that every other field stays. -/
namespace Sys2Proof.Machine

theorem rd_raise_ne (s : State) (k : Nat) {g : Field} {i j : Nat} (h : g.key i j ≠ Reg.HIF_EVPEND_EV.key 0 0) :
    (s.raise k).rd g i j = s.rd g i j := by
  unfold State.raise
  split
  · rfl
  · dsimp only
    split <;> exact rd_wr_ne _ _ _ _ _ _ _ _ h

theorem rd_setSticky_ne (s : State) (k : Nat) {f g : Field} {i i' j : Nat} (hf : g.key i' j ≠ f.key i 0)
    (he : g.key i' j ≠ Reg.HIF_EVPEND_EV.key 0 0) : (s.setSticky k f i).rd g i' j = s.rd g i' j := by
  unfold State.setSticky
  split
  · rfl
  · rw [rd_raise_ne _ _ he]
    exact rd_wr_ne _ _ _ _ _ _ _ _ hf

/-- A sticky field reads 1 once set, whether or not it was set before. -/
theorem bit_setSticky_same (s : State) (k : Nat) {f : Field} {i : Nat} (hw : f.w = 1)
    (he : f.key i 0 ≠ Reg.HIF_EVPEND_EV.key 0 0) : (s.setSticky k f i).bit f i = true := by
  unfold State.setSticky
  split
  case isTrue h => exact h
  case isFalse =>
    have hr : ((s.wrB f true i).raise k).rd f i = 1 := by
      rw [rd_raise_ne _ _ he, State.wrB, rd_wr_same s f _ i 0 (by omega), hw]
      rfl
    rw [State.bit, hr]
    rfl

/-- The fields that a new entry of the error log can write (R259, R285, R396). -/
def logFields : List Field :=
  [Reg.HIF_EVPEND_EV, Reg.TLY_STAT_QLOST, Reg.TLY_QCNT_LOST, Reg.LND_ESTAT_ELOVF, Reg.LND_ESTAT_ELCNT, Reg.LND_ELLOCL_LOC,
    Reg.LND_ELLOCH_LOC, Reg.LND_ELINF_CLASS, Reg.LND_ELINF_PORT, Reg.LND_ELTIM_HT]

section
variable {g : Field} {i j : Nat} (h : ∀ f ∈ logFields, g.key i j ≠ f.key 0 0)
include h

theorem rd_wr_logField (s : State) {f : Field} (v : Nat) (hf : f ∈ logFields) : (s.wr f v).rd g i j = s.rd g i j :=
  rd_wr_ne _ _ _ _ _ _ _ _ (h f hf)

theorem rd_setSticky_logField (s : State) (k : Nat) {f : Field} (hf : f ∈ logFields) : (s.setSticky k f).rd g i j = s.rd g i j :=
  rd_setSticky_ne s k (h f hf) (h _ (by decide))

theorem rd_tallyEvent_ne (s : State) (ev : TlyEvent) : (s.tallyEvent ev).rd g i j = s.rd g i j := by
  have hlost : ∀ u : State, ((u.setSticky 13 Reg.TLY_STAT_QLOST).inc Reg.TLY_QCNT_LOST).rd g i j = u.rd g i j := fun u =>
    (rd_wr_logField h _ _ (by decide)).trans (rd_setSticky_logField h u 13 (by decide))
  unfold State.tallyEvent
  dsimp only
  split <;> split
  · rfl
  · exact hlost _
  · rfl
  · exact hlost _

theorem rd_showElog_ne (s : State) : s.showElog.rd g i j = s.rd g i j := by
  have hwr : ∀ f ∈ logFields, ∀ (u : State) (v : Nat), (u.wr f v).rd g i j = u.rd g i j := fun _ hf u v => rd_wr_logField h u v hf
  unfold State.showElog
  dsimp only
  split <;>
    rw [hwr _ (by decide), hwr _ (by decide), hwr _ (by decide), hwr _ (by decide), hwr _ (by decide), hwr _ (by decide)]

theorem rd_logErr_ne (s : State) (cls port loc : Nat) : (s.logErr cls port loc).rd g i j = s.rd g i j := by
  unfold State.logErr
  dsimp only
  split
  · exact (rd_showElog_ne h _).trans (rd_tallyEvent_ne h s _)
  · exact (rd_setSticky_logField h _ 8 (by decide)).trans (rd_tallyEvent_ne h s _)

end

/-! ### What showing and logging an error leave unchanged -/

/-- The head of the error log is shown in registers. -/
theorem showElog_frame (s : State) : s.showElog.landing = s.landing ∧ s.showElog.mram = s.mram ∧ s.showElog.lnd = s.lnd := by
  unfold State.showElog
  dsimp only
  split <;> simp

/-- An entry of the error log leaves the memories and the waiting requests. -/
theorem logErr_frame (s : State) (cls port loc : Nat) : (s.logErr cls port loc).landing = s.landing ∧
    (s.logErr cls port loc).mram = s.mram ∧ (s.logErr cls port loc).lnd.waiting = s.lnd.waiting := by
  unfold State.logErr
  dsimp only
  split <;> simp [showElog_frame]

end Sys2Proof.Machine
end

section
/-! SUPPORT. One codeword of the Landing read, written or modified at once, where it is clean and lies in no retired page (R253, R254,
R261, R263). -/
namespace Sys2Proof.Machine

/-! ### Retired pages -/

theorem noteRetired_of_untouched {s : State} {off len : Nat} (h : s.retTouched off len = []) (port : Nat) :
    s.noteRetired port off len = s := by
  rw [State.noteRetired, h]
  rfl

/-- A codeword that touches no retired page has no retirement entry: all its bytes lie in one page. -/
theorem retEntry_of_untouched {s : State} {off : Nat} (h8 : off % 8 = 0) (h : s.retTouched off 8 = []) : s.retEntry off = none := by
  have hpage : (off + (8 - 1)) / 4096 = off / 4096 := by omega
  refine List.find?_eq_none.mpr fun p hp he => ?_
  refine List.filter_eq_nil_iff.mp h p hp ?_
  simp [hpage, beq_iff_eq.mp he]

/-! ### What a write of a codeword leaves -/

theorem putCw_land (s : State) (w : Nat) (c : Cw) : s.putCw .land w c = { s with landing := s.putBoth w c } := by
  unfold State.putCw State.putBoth
  cases s.mirrorOf w <;> rfl

/-- `t` is `s` with the Landing `m`, but for the marks of the writes: dirty blocks and init copies that are due again (R391, R247). -/
def State.Wrote (s : State) (m : Mem) (t : State) : Prop :=
  ∃ dirty tex, t = { s with landing := m, lnd := { s.lnd with dirty := dirty }, tex := tex }

theorem State.Wrote.frame {s t : State} {m : Mem} (h : s.Wrote m t) :
    t.landing = m ∧ t.mram = s.mram ∧ t.regs = s.regs ∧ t.lnd.waiting = s.lnd.waiting := by
  obtain ⟨dirty, tex, rfl⟩ := h
  exact ⟨rfl, rfl, rfl, rfl⟩

theorem wrote_marks (s : State) (off : Nat) : s.Wrote s.landing ((s.noteDirty off).noteLoaded off) := by
  have hdirty : ∃ dirty, s.noteDirty off = { s with lnd := { s.lnd with dirty := dirty } } := by
    unfold State.noteDirty
    split <;> exact ⟨_, rfl⟩
  obtain ⟨dirty, hd⟩ := hdirty
  rw [hd]
  unfold State.noteLoaded
  dsimp only
  split <;> exact ⟨_, _, rfl⟩

/-- A merge into a poisoned codeword sets PWPSN and is logged (R254). -/
def State.reportPoison (s : State) (port loc : Nat) : State := (s.setSticky 8 Reg.LND_ESTAT_PWPSN).logErr 5 port loc

theorem bit_reportPoison (s : State) (port loc : Nat) : (s.reportPoison port loc).bit Reg.LND_ESTAT_PWPSN = true := by
  have hset := bit_setSticky_same s 8 (f := Reg.LND_ESTAT_PWPSN) (i := 0) rfl (by decide)
  rwa [State.bit, ← rd_logErr_ne (by decide) _ 5 port loc] at hset

theorem reportPoison_frame (s : State) (port loc : Nat) : (s.reportPoison port loc).landing = s.landing ∧
    (s.reportPoison port loc).mram = s.mram ∧ (s.reportPoison port loc).lnd.waiting = s.lnd.waiting := by
  simpa [State.reportPoison] using logErr_frame (s.setSticky 8 Reg.LND_ESTAT_PWPSN) 5 port loc

/-- A codeword of the Landing that an access finds as it was written: within the Landing, in no retired page, clean. -/
structure State.Intact (s : State) (off : Nat) : Prop where
  inside : off < lndSize
  aligned : off % 8 = 0
  unretired : s.retTouched off 8 = []
  clean : (s.landing.decode (s.lndCw off)).2 = .clean

section
variable {s : State} {off : Nat} (h : s.Intact off)
include h

theorem State.Intact.readCw (port : Nat) : s.readCw .land (s.lndCw off) port = ((s.landing.decode (s.lndCw off)).1, s) :=
  State.readCw_clean port false (Prod.ext rfl h.clean)

theorem State.Intact.not_beyond : ¬ off ≥ lndSize := Nat.not_le.mpr h.inside

theorem State.Intact.not_retired : ¬ (s.retEntry off).isSome = true := by
  simp [retEntry_of_untouched h.aligned h.unretired]

theorem State.Intact.cwReadNow (port : Nat) : s.cwReadNow port off = ((s.landing.decode (s.lndCw off)).1, s) := by
  rw [State.cwReadNow, if_neg h.not_beyond, if_neg h.not_retired, h.readCw]

theorem State.Intact.cwWriteNow (port : Nat) (d : DWord) (p : Bool) :
    s.Wrote (s.putBoth (s.lndCw off) ⟨d, p⟩) (s.cwWriteNow port off 0xFF#8 d p) := by
  obtain ⟨dirty, tex, hm⟩ := wrote_marks s off
  rw [State.cwWriteNow, if_neg h.not_beyond, if_neg h.not_retired, hm, State.writeCw, if_pos rfl, putCw_land]
  exact ⟨dirty, tex, rfl⟩

/-- A read-modify-write writes the codeword back with the poison it had, and reports a poisoned one (R254). -/
theorem State.Intact.cwModifyNow (port : Nat) (f : DWord → DWord) :
    let c := (s.landing.decode (s.lndCw off)).1
    ∃ u, s.Wrote (s.putBoth (s.lndCw off) ⟨f c.data, c.poison⟩) u ∧ s.cwModifyNow port off f =
      if c.poison then u.reportPoison port (cwLocator .land (s.lndCw off) none) else u := by
  intro c
  have hw : s.Wrote (s.putBoth (s.lndCw off) ⟨f c.data, c.poison⟩)
      (((s.putCw .land (s.lndCw off) ⟨f c.data, c.poison⟩).noteDirty off).noteLoaded off) := by
    rw [putCw_land]
    exact wrote_marks { s with landing := _ } off
  exact ⟨_, hw, by simp only [State.cwModifyNow, if_neg h.not_beyond, if_neg h.not_retired, h.readCw, State.reportPoison, c]⟩

end

end Sys2Proof.Machine
end

section
/-! SUPPORT. Arbitration of the Landing (R24 to R27): which requests are admitted, which one a bank grants, and a whole cycle of the
arbiter with one request and with two for one codeword. -/
namespace Sys2Proof.Machine

/-! ### Admission -/

/-- The arbiter with the requests `waiting`, the next sequence number and the ports granted last; none is held outside. -/
def State.arbiter (s : State) (waiting : List LndWait) (seq : Nat) (last : Tab Nat) : State :=
  { s with lnd := { s.lnd with waiting := waiting, blocked := [], seq := seq, lastPort := last } }

theorem lndAdmit_arbiter {s : State} {l : List LndWait} {r : LndReq} (hl : ∀ w ∈ l, sameShare w.req r = false)
    (hr : s.loadsOf r < portShare r.port) (n : Nat) (last : Tab Nat) :
    (s.arbiter l n last).lndAdmit r = s.arbiter (l ++ [⟨r, 0, false, n⟩]) (n + 1) last := by
  have hnone : (l.filter fun w => sameShare w.req r) = [] := List.filter_eq_nil_iff.mpr fun w hw => by simp [hl w hw]
  have hused : (s.arbiter l n last).shareUsed r = s.loadsOf r := by
    show (l.filter fun w => sameShare w.req r).length + s.loadsOf r = _
    rw [hnone, List.length_nil, Nat.zero_add]
  rw [State.lndAdmit, hused]
  exact if_pos ⟨hr, rfl⟩

theorem lndAdmit_of_loads {s : State} {r : LndReq} (h : portShare r.port ≤ s.loadsOf r) :
    s.lndAdmit r = { s with lnd := { s.lnd with blocked := s.lnd.blocked ++ [r] } } := by
  refine if_neg fun hc => ?_
  have : s.loadsOf r ≤ s.shareUsed r := Nat.le_add_left _ _
  omega

/-- The loads of an engine take share at the ports of the engines alone. -/
theorem loadsOf_of_port_ge_two {r : LndReq} (h : 2 ≤ r.port.val) (s : State) : s.loadsOf r = 0 := if_neg (Nat.not_lt.mpr h)

/-! ### The grant of a bank -/

theorem portTurn_lt (last port : Nat) : portTurn last port < 8 := Nat.mod_lt _ (by decide)

/-- A higher class goes before a lower one, whatever the turns of the ports (R26). -/
theorem grantBefore_of_cls_lt (last : Nat → Nat) {a b : LndWait} (h : a.cls < b.cls) : grantBefore last a b = true := by
  have := portTurn_lt (last a.cls) a.req.port
  simp only [grantBefore, Bool.or_eq_true, decide_eq_true_eq]
  omega

theorem pickGrant_single (last : Nat → Nat) (w : LndWait) : pickGrant last [w] = some w := rfl

theorem pickGrant_pair_of_cls_lt (last : Nat → Nat) {a b : LndWait} (h : b.cls < a.cls) : pickGrant last [a, b] = some b := by
  simp [pickGrant, grantBefore_of_cls_lt last h]

/-- The waiting requests that bank `b` can grant. -/
def State.candidates (s : State) (b : Nat) : List LndWait :=
  s.lnd.waiting.filter fun w => (s.reqBank w.req == some b) && portFirst s.lnd.waiting w

/-- A bank performs the request it picks, which then waits no more. -/
theorem grantBank_arbiter {s : State} {l : List LndWait} {n b : Nat} {last : Tab Nat} {w : LndWait}
    (h : ∀ turn, pickGrant turn ((s.arbiter l n last).candidates b) = some w) :
    ∃ last', (s.arbiter l n last).grantBank b = (s.arbiter (l.filter fun x => x.seq ≠ w.seq) n last').lndPerform w.req := by
  unfold State.grantBank
  dsimp only
  rw [← State.candidates, h]
  exact ⟨_, rfl⟩

/-! ### A cycle -/

/-- The requests that wait at the end of a cycle have waited one cycle more. -/
def State.aged (s : State) : State :=
  { s with lnd := { s.lnd with waiting := s.lnd.waiting.map fun w => { w with waited := w.waited + 1 } } }

/-- A cycle with no request held from before and none beyond the Landing: the new requests are admitted, then each bank grants one. -/
theorem exec_landingAccess {s s1 : State} {reqs : List LndReq} (hb : s.lnd.blocked = []) (ha : s.over reqs (fun r a => a.lndAdmit r) = s1)
    (hin : ∀ w ∈ s1.lnd.waiting, w.req.off < lndSize) :
    exec (.landingAccess reqs) s = .next (s1.over s1.banksWanted fun b a => a.grantBank b).aged := by
  have hs : ({ s with lnd := { s.lnd with blocked := [] } } : State) = s := by rw [← hb]
  have hout : (s1.lnd.waiting.filter fun w => decide (w.req.off ≥ lndSize)) = [] :=
    List.filter_eq_nil_iff.mpr fun w hw => by simpa using hin w hw
  have hkeep : (s1.lnd.waiting.filter fun w => decide (w.req.off < lndSize)) = s1.lnd.waiting :=
    List.filter_eq_self.mpr fun w hw => by simpa using hin w hw
  show execLandingAccess reqs s = _
  unfold execLandingAccess
  dsimp only
  rw [hs, hb, List.nil_append, ha, hout, hkeep]
  rfl

theorem banksWanted_eq (s : State) : s.banksWanted = (s.lnd.waiting.filterMap fun w => s.reqBank w.req).foldl setIns [] := by
  rw [List.foldl_filterMap, State.banksWanted]
  congr 1
  funext a w
  cases s.reqBank w.req <;> rfl

theorem foldl_setIns_replicate (b k : Nat) : (List.replicate (k + 1) b).foldl setIns [] = [b] := by
  induction k with
  | zero => rfl
  | succ k ih => rw [List.replicate_succ', List.foldl_append, ih]; simp [setIns]

section
variable {s : State} {l : List LndWait} {off n : Nat} {last : Tab Nat} (hl : ∀ w ∈ l, w.req.off = off) (hin : off < lndSize)
include hl hin

theorem reqBank_of_off {w : LndWait} (hw : w ∈ l) : s.reqBank w.req = some (s.rd Reg.LND_BMAP_PHYS (logBank off)) := by
  rw [State.reqBank, hl w hw, if_neg (Nat.not_le.mpr hin)]

theorem reqBanks_of_off :
    l.filterMap (fun w => s.reqBank w.req) = List.replicate l.length (s.rd Reg.LND_BMAP_PHYS (logBank off)) := by
  induction l with
  | nil => rfl
  | cons w l ih =>
    rw [List.filterMap_cons_some (f := fun x : LndWait => s.reqBank x.req) (reqBank_of_off hl hin List.mem_cons_self), ih fun x hx => hl x (List.mem_cons_of_mem w hx)]
    rfl

/-- Requests for one codeword need one bank. -/
theorem banksWanted_of_off (hne : l ≠ []) : (s.arbiter l n last).banksWanted = [s.rd Reg.LND_BMAP_PHYS (logBank off)] := by
  obtain ⟨w, m, rfl⟩ := List.exists_cons_of_ne_nil hne
  rw [banksWanted_eq]
  exact (congrArg (List.foldl setIns []) (reqBanks_of_off hl hin)).trans (foldl_setIns_replicate _ m.length)

/-- Where each request is the first of its port to the codeword, its bank can grant every one. -/
theorem candidates_of_off (hfirst : ∀ w ∈ l, portFirst l w = true) :
    (s.arbiter l n last).candidates (s.rd Reg.LND_BMAP_PHYS (logBank off)) = l :=
  List.filter_eq_self.mpr fun w hw => Bool.and_eq_true_iff.mpr
    ⟨beq_iff_eq.mpr (reqBank_of_off (s := s) hl hin hw), hfirst w hw⟩

/-- A cycle whose requests, once admitted, are all for one codeword: its bank performs the one it picks. -/
theorem exec_landingAccess_of_pick {reqs : List LndReq} {w : LndWait} (hblock : s.lnd.blocked = [])
    (hadmit : s.over reqs (fun r a => a.lndAdmit r) = s.arbiter l n last) (hfirst : ∀ w ∈ l, portFirst l w = true)
    (hpick : ∀ turn, pickGrant turn l = some w) :
    ∃ last', exec (.landingAccess reqs) s = .next ((s.arbiter (l.filter fun x => x.seq ≠ w.seq) n last').lndPerform w.req).aged := by
  have hne : l ≠ [] := by
    rintro rfl
    cases hpick fun _ => 0
  obtain ⟨last', hgrant⟩ := grantBank_arbiter (s := s) (n := n) (last := last) fun turn =>
    (congrArg _ (candidates_of_off hl hin hfirst)).trans (hpick turn)
  refine ⟨last', ?_⟩
  rw [exec_landingAccess hblock hadmit fun w hw => (hl w hw) ▸ hin, banksWanted_of_off hl hin hne, ← hgrant]
  rfl

end

section
variable {s : State} (hwait : s.lnd.waiting = []) (hblock : s.lnd.blocked = [])
include hwait hblock

theorem eq_arbiter_of_idle : s.arbiter [] s.lnd.seq s.lnd.lastPort = s := by rw [State.arbiter, ← hwait, ← hblock]

/-- A request of a client whose loads use up its share is held outside (R24, R25). -/
theorem exec_landingAccess_held {r : LndReq} (h : portShare r.port ≤ s.loadsOf r) :
    exec (.landingAccess [r]) s = .next ({ s with lnd := { s.lnd with blocked := [r] } } : State).aged := by
  have hadmit : s.over [r] (fun r a => a.lndAdmit r) = { s with lnd := { s.lnd with blocked := [r] } } :=
    (lndAdmit_of_loads h).trans (by rw [hblock]; rfl)
  rw [exec_landingAccess hblock hadmit (by simp [hwait]), State.banksWanted, hwait]
  rfl

/-- A request of a client with share left and no other request waiting is performed in its cycle. -/
theorem exec_landingAccess_single {r : LndReq} (hin : r.off < lndSize) (hshare : s.loadsOf r < portShare r.port) :
    ∃ n last, exec (.landingAccess [r]) s = .next ((s.arbiter [] n last).lndPerform r).aged := by
  have hadmit : s.over [r] (fun r a => a.lndAdmit r) = s.arbiter [⟨r, 0, false, s.lnd.seq⟩] (s.lnd.seq + 1) s.lnd.lastPort := by
    refine Eq.trans (congrArg (fun t => t.lndAdmit r) (eq_arbiter_of_idle hwait hblock).symm) ?_
    exact lndAdmit_arbiter (by simp) hshare _ _
  obtain ⟨last, he⟩ := exec_landingAccess_of_pick (off := r.off) (by simp) hin hblock hadmit (by simp [portFirst])
    fun turn => pickGrant_single turn _
  exact ⟨_, last, by simpa using he⟩

/-- Of two requests for one codeword the one of the higher class is performed and the other waits. -/
theorem exec_landingAccess_pair {q r : LndReq} (hin : r.off < lndSize) (hoff : q.off = r.off)
    (hcls : portClass r.port < portClass q.port) (hq : s.loadsOf q < portShare q.port)
    (hr : s.loadsOf r < portShare r.port) :
    ∃ n last, exec (.landingAccess [q, r]) s = .next ((s.arbiter [⟨q, 0, false, s.lnd.seq⟩] n last).lndPerform r).aged := by
  have hports : q.port ≠ r.port := fun e => by rw [e] at hcls; exact Nat.lt_irrefl _ hcls
  have hadmit : s.over [q, r] (fun r a => a.lndAdmit r) =
      s.arbiter [⟨q, 0, false, s.lnd.seq⟩, ⟨r, 0, false, s.lnd.seq + 1⟩] (s.lnd.seq + 1 + 1) s.lnd.lastPort := by
    refine Eq.trans (congrArg (fun t => (t.lndAdmit q).lndAdmit r) (eq_arbiter_of_idle hwait hblock).symm) ?_
    rw [lndAdmit_arbiter (by simp) hq, lndAdmit_arbiter (by simp [sameShare, hports]) hr]
    rfl
  obtain ⟨last, he⟩ := exec_landingAccess_of_pick (off := r.off) (by simp [hoff]) hin hblock hadmit
    (by simp [portFirst, hports, hports.symm]) fun turn => pickGrant_pair_of_cls_lt turn hcls
  exact ⟨_, last, by simpa using he⟩

end

end Sys2Proof.Machine
end

section
/-! SUPPORT. What the Landing does for one request: the read, the write of a whole codeword and the read-modify-write (R27, R28, R254). -/
namespace Sys2Proof.Machine

section
variable {s : State} {r : LndReq} (h : s.Intact (r.off / 8 * 8))
include h

theorem lndPerform_read (hop : r.op = .read 0#80) :
    s.lndPerform r = s.lndReply r (s.landing.decode (s.lndCw (r.off / 8 * 8))).1 := by
  have hup : s.lndUpset (r.off / 8 * 8) 0#80 = s := by
    simp [State.lndUpset, Mem.upset]
  simp only [State.lndPerform, noteRetired_of_untouched h.unretired, hop, hup, h.cwReadNow]

theorem lndPerform_write {d : DWord} {p : Bool} (hop : r.op = .write 0xFF#8 d p) :
    s.Wrote (s.putBoth (s.lndCw (r.off / 8 * 8)) ⟨d, p⟩) (s.lndPerform r) := by
  simp only [State.lndPerform, noteRetired_of_untouched h.unretired, hop]
  exact h.cwWriteNow r.port d p

theorem lndPerform_rmw {a o : DWord} (hop : r.op = .rmw a o) :
    s.lndPerform r = s.cwModifyNow r.port (r.off / 8 * 8) fun d => (d &&& a) ||| o := by
  simp only [State.lndPerform, noteRetired_of_untouched h.unretired, hop]

/-- The codeword read is merged and written back; that it was poisoned is reported and changes no memory (R28, R254). -/
theorem lndPerform_rmw_leaves {a o : DWord} (hop : r.op = .rmw a o) :
    let c := (s.landing.decode (s.lndCw (r.off / 8 * 8))).1
    let t := s.lndPerform r
    t.landing = s.putBoth (s.lndCw (r.off / 8 * 8)) ⟨(c.data &&& a) ||| o, c.poison⟩ ∧ t.lnd.waiting = s.lnd.waiting ∧
      t.mram = s.mram ∧ (c.poison = false → t.regs = s.regs) ∧ (c.poison = true → t.bit Reg.LND_ESTAT_PWPSN = true) := by
  intro c t
  obtain ⟨u, hwrote, hu⟩ := h.cwModifyNow r.port fun d => (d &&& a) ||| o
  obtain ⟨hland, hmram, hregs, hwait⟩ := hwrote.frame
  have ht : t = if c.poison then u.reportPoison r.port (cwLocator .land (s.lndCw (r.off / 8 * 8)) none) else u :=
    (lndPerform_rmw h hop).trans hu
  by_cases hp : c.poison = true
  · rw [if_pos hp] at ht
    obtain ⟨hland', hmram', hwait'⟩ := reportPoison_frame u r.port (cwLocator .land (s.lndCw (r.off / 8 * 8)) none)
    rw [ht]
    exact ⟨hland'.trans hland, hwait'.trans hwait, hmram'.trans hmram, fun hc => absurd hp (hc ▸ Bool.false_ne_true),
      fun _ => bit_reportPoison _ _ _⟩
  · rw [if_neg hp] at ht
    rw [ht]
    exact ⟨hland, hwait, hmram, fun _ => hregs, fun hc => absurd hc hp⟩

end

end Sys2Proof.Machine
end

section
/-! The statements about the Landing: what a request finds, and when a waiting one is raised. -/
namespace Sys2Proof.Machine
open Sys2Proof.Claims

theorem requestResults : RequestResults := by
  intro r s base w c hwait hblock hin
  have hbase : base < lndSize := Nat.lt_of_le_of_lt (Nat.div_mul_le_self _ _) hin
  refine ⟨fun hfull => ?_, fun hshare hret hclean => ⟨fun hop => ?_, fun d p hop => ?_, fun a o hop => ?_, fun q hoff hq hr hop => ?_⟩⟩
  · exact ⟨_, exec_landingAccess_held hwait hblock hfull, rfl, rfl, by simp [State.aged, hwait]⟩
  all_goals
    have hintact : ∀ l n last, (s.arbiter l n last).Intact base := fun _ _ _ => ⟨hbase, Nat.mul_mod_left _ _, hret, hclean⟩
  · obtain ⟨n, last, he⟩ := exec_landingAccess_single hwait hblock hin hshare
    rw [lndPerform_read (hintact _ _ _) hop] at he
    exact ⟨_, he, rfl, rfl, rfl, rfl⟩
  · obtain ⟨n, last, he⟩ := exec_landingAccess_single hwait hblock hin hshare
    obtain ⟨hland, hmram, hregs, hw⟩ := (lndPerform_write (hintact [] n last) hop).frame
    exact ⟨_, he, hland, congrArg (List.map _) hw, hregs, hmram⟩
  · obtain ⟨n, last, he⟩ := exec_landingAccess_single hwait hblock hin hshare
    obtain ⟨hland, hw, hmram, hregs, hbit⟩ := lndPerform_rmw_leaves (hintact [] n last) hop
    exact ⟨_, he, hland, congrArg (List.map _) hw, hmram, hregs, hbit⟩
  · have hcls : portClass r.port < portClass q.port := by rw [hq, hr]; decide
    have hqs : s.loadsOf q < portShare q.port := by rw [loadsOf_of_port_ge_two (by rw [hq]; decide), hq]; decide
    obtain ⟨n, last, he⟩ := exec_landingAccess_pair hwait hblock hin hoff hcls hqs hshare
    rw [lndPerform_read (hintact _ _ _) hop] at he
    refine ⟨_, he, rfl, ?_⟩
    show s.lnd.replies ++ [LndReply.mk r.port r.off c.1.data c.1.poison] = _
    rw [hr]
    rfl

theorem waitingRequestIsRaised : WaitingRequestIsRaised := by
  intro w s hw hwaited
  refine ⟨_, rfl, ?_, rfl, fun x hx hne => ?_, rfl⟩
  · exact List.mem_map.mpr ⟨w, hw, if_pos ⟨rfl, hwaited⟩⟩
  · exact List.mem_map.mpr ⟨x, hx, if_neg fun hc => hne hc.1⟩

/-- Settles O26: a request is performed in the cycle in which its bank picks it, by the class of its port, and one that has waited
64 cycles is marked as class A. -/
theorem landingRequestsComplete : Obligations.LandingRequestsComplete := ⟨requestResults, waitingRequestIsRaised⟩

end Sys2Proof.Machine
end

section
/-! SUPPORT. Operations repeated over a list: what every one of them keeps, and what each leaves done. -/
namespace Sys2Proof.Machine

variable {α : Type} {l : List α} {f : α → State → State} {s : State}

theorem State.over_keeps {P : State → Prop} (hkeep : ∀ x ∈ l, ∀ u, P u → P (f x u)) (hs : P s) : P (s.over l f) := by
  induction l generalizing s with
  | nil => exact hs
  | cons x l ih => exact ih (fun y hy => hkeep y (List.mem_cons_of_mem _ hy)) (hkeep x List.mem_cons_self _ hs)

/-- What the operation at `x` brings about and every operation keeps holds at the end. -/
theorem State.over_does {x : α} {P : State → Prop} (hx : x ∈ l) (hdo : ∀ u, P (f x u)) (hkeep : ∀ y ∈ l, ∀ u, P u → P (f y u)) :
    P (s.over l f) := by
  induction l generalizing s with
  | nil => cases hx
  | cons y l ih =>
    have hrest : ∀ z ∈ l, ∀ u, P u → P (f z u) := fun z hz => hkeep z (List.mem_cons_of_mem _ hz)
    rcases List.mem_cons.mp hx with hxy | hx
    · subst hxy
      show P ((f x s).over l f)
      exact State.over_keeps hrest (hdo s)
    · exact ih hx hrest

theorem State.over_idle (hidle : ∀ x ∈ l, f x s = s) : s.over l f = s :=
  State.over_keeps (P := (· = s)) (fun x hx u hu => by rw [hu, hidle x hx]) rfl

end Sys2Proof.Machine
end

section
/-! SUPPORT. A dip leaves the Landing and the control-law engine alone, in its state and in its registers (R387, R388). -/
namespace Sys2Proof.Machine

/-- The field lies in the block of the control-law engine. -/
abbrev Field.InCle (g : Field) (i j : Nat) : Prop := g.key i j / 32 / 0x10000 = 3

theorem key_ne_of_inCle {f g : Field} {i j a b : Nat} (hg : g.InCle i j) (hf : ¬ f.InCle a b) : g.key i j ≠ f.key a b :=
  fun e => hf (by rw [Field.InCle, ← e]; exact hg)

/-- `t` has the Landing of `s` and its control-law engine: the island's state and the registers of its block. -/
structure State.SparesCle (s t : State) : Prop where
  landing : t.landing = s.landing
  cle : t.cle = s.cle
  rd : ∀ {g : Field} {i j : Nat}, g.InCle i j → t.rd g i j = s.rd g i j

namespace State.SparesCle
variable {s t u : State}

theorem refl (s : State) : s.SparesCle s := ⟨rfl, rfl, fun _ => rfl⟩

theorem trans (h : s.SparesCle t) (h' : t.SparesCle u) : s.SparesCle u :=
  ⟨h'.landing.trans h.landing, h'.cle.trans h.cle, fun hg => (h'.rd hg).trans (h.rd hg)⟩

theorem wr (s : State) {f : Field} (v : Nat) {i : Nat} (hf : ¬ f.InCle i 0) : s.SparesCle (s.wr f v i) :=
  ⟨rfl, rfl, fun hg => rd_wr_ne _ _ _ _ _ _ _ _ (key_ne_of_inCle hg hf)⟩

theorem setSticky (s : State) (k : Nat) {f : Field} (hf : ¬ f.InCle 0 0) : s.SparesCle (s.setSticky k f) :=
  ⟨by simp, by simp, fun hg => rd_setSticky_ne s k (key_ne_of_inCle hg hf) (key_ne_of_inCle hg (by decide))⟩

theorem tally (s : State) (c o a v b : Nat) : s.SparesCle (s.tally c o a v b) :=
  ⟨by simp, by simp, fun hg => rd_tallyEvent_ne
    (fun f hf => key_ne_of_inCle hg ((by decide : ∀ f ∈ logFields, ¬ f.InCle 0 0) f hf)) s _⟩

theorem overList {α : Type} {l : List α} {f : α → State → State} (hf : ∀ x ∈ l, ∀ u : State, u.SparesCle (f x u)) (s : State) :
    s.SparesCle (s.over l f) :=
  State.over_keeps (fun x hx u hu => hu.trans (hf x hx u)) (refl s)

theorem sendClaim (s : State) : s.SparesCle s.sendClaim := by
  unfold State.sendClaim State.trhSend
  split
  · exact refl s
  · exact ⟨rfl, rfl, fun _ => rfl⟩

theorem passStop (s : State) : s.SparesCle s.passStop :=
  have h : s.SparesCle ((s.wr Reg.TRH_PASS_BUSY (b2n false)).wr Reg.TRH_PASS_R2 (b2n false)) :=
    (wr _ _ (by decide)).trans (wr _ _ (by decide))
  ⟨h.landing, h.cle, h.rd⟩

theorem dacSafe (s : State) : s.SparesCle s.dacSafe := by
  refine overList (fun d hd u => ?_) s
  have hlt := mem_upFrom_lt hd
  split
  · exact refl u
  · exact wr u _ (by simp only [Field.InCle, Field.key, Reg.CNV_DSTAT_CODE]; omega)

theorem showLines (s : State) : s.SparesCle s.showLines := by
  unfold State.showLines
  exact (wr _ _ (by decide)).trans (wr _ _ (by decide))

theorem dioSafe (s : State) : s.SparesCle s.dioSafe := by
  have hval : ∀ v, s.SparesCle { s with dio := { s.dio with val := v } } := fun v => ⟨rfl, rfl, fun _ => rfl⟩
  unfold State.dioSafe
  dsimp only
  exact (hval _).trans (showLines _)

theorem emuSafe (s : State) : s.SparesCle s.emuSafe := by
  refine overList (fun e he u => ?_) s
  have hlt := mem_upFrom_lt he
  split
  · exact refl u
  · have hplace : ¬ Reg.FBK_EMCNT_C.InCle e 0 := by simp only [Field.InCle, Field.key, Reg.FBK_EMCNT_C]; omega
    unfold State.emuRest
    refine trans ?_ (wr _ _ hplace)
    exact ⟨rfl, rfl, fun _ => rfl⟩

theorem outSafe (s : State) : s.SparesCle s.outSafe := (dacSafe s).trans ((dioSafe _).trans (emuSafe _))

theorem dip (s : State) (cause : Nat) : s.SparesCle (s.dip cause) := by
  unfold State.dip
  split
  · have hrole : s.SparesCle (((s.wr Reg.TRH_ENSIGN_E 0).wr Reg.TRH_STAT_DIPCAUSE cause).wr Reg.TRH_STAT_ROLE roleDipped) :=
      ((wr _ _ (by decide)).trans (wr _ _ (by decide))).trans (wr _ _ (by decide))
    exact ((((hrole.trans (sendClaim _)).trans (outSafe _)).trans (passStop _)).trans (setSticky _ 12 (by decide))).trans
      (tally _ _ _ _ _ _)
  · exact refl s

end State.SparesCle

end Sys2Proof.Machine
end

section
/-! SUPPORT. The passes of the rings: what starting, preempting and ending one leaves (R51, R65, R66, R85, R461). -/
namespace Sys2Proof.Machine

variable (s : State) (n : Nat)

/-! ### The pass of a ring -/

theorem pass_of_cle {s t : State} (h : t.cle = s.cle) (n : Nat) : t.pass_ n = s.pass_ n := by rw [State.pass_, h, State.pass_]

@[simp] theorem pass_wr (f : Field) (v i : Nat) : (s.wr f v i).pass_ n = s.pass_ n := rfl

@[simp] theorem setPass_landing (p : PassSt) : (s.setPass n p).landing = s.landing := by
  unfold State.setPass; dsimp only; split <;> rfl

@[simp] theorem setPass_cleMem (p : PassSt) : (s.setPass n p).cleMem = s.cleMem := by
  unfold State.setPass; dsimp only; split <;> rfl

theorem pass_setPass (p : PassSt) (m : Nat) : (s.setPass n p).pass_ m = if m = n then p else s.pass_ m := by
  have hcle : (s.setPass n p).cle.passes = tabPut {} s.cle.passes n p := by unfold State.setPass; dsimp only; split <;> rfl
  rw [State.pass_, hcle, tabAt_tabPut, State.pass_]

@[simp] theorem pass_setPass_same (p : PassSt) : (s.setPass n p).pass_ n = p := by rw [pass_setPass, if_pos rfl]

theorem rd_setPass_ne (p : PassSt) {g : Field} {i j : Nat} (h : g.key i j ≠ Reg.CLE_STAT_PBUSY.key 0 0) :
    (s.setPass n p).rd g i j = s.rd g i j := by
  unfold State.setPass
  dsimp only
  split <;> exact rd_wr_ne _ _ _ _ _ _ _ _ h

/-! ### The end of a pass -/

/-- The places of the fields that the end of a ring's pass writes. -/
def passEndPlaces (n : Nat) : List Nat :=
  [Reg.CLE_STAT_PBUSY.key 0 0, Reg.CLE_PSTAT_NEVAL.key n 0, Reg.CLE_PTIME_LAST.key n 0, Reg.CLE_PTIME_MAX.key n 0]

@[simp] theorem passEnd_landing : (s.passEnd n).landing = s.landing := by
  unfold State.passEnd; dsimp only; split <;> simp

@[simp] theorem passEnd_cleMem : (s.passEnd n).cleMem = s.cleMem := by
  unfold State.passEnd; dsimp only; split <;> simp

theorem pass_passEnd (m : Nat) : (s.passEnd n).pass_ m = if m = n then {} else s.pass_ m := by
  unfold State.passEnd; dsimp only; split <;> simp [pass_setPass]

theorem pass_passEnd_same : (s.passEnd n).pass_ n = {} := by rw [pass_passEnd, if_pos rfl]

theorem rd_passEnd_ne {g : Field} {i j : Nat} (h : g.key i j ∉ passEndPlaces n) : (s.passEnd n).rd g i j = s.rd g i j := by
  simp only [passEndPlaces, List.mem_cons, List.not_mem_nil, or_false, not_or] at h
  obtain ⟨hbusy, hneval, hlast, hmax⟩ := h
  unfold State.passEnd
  dsimp only
  split
  · rw [rd_wr_ne _ _ _ _ _ _ _ _ hneval, rd_setPass_ne _ _ _ hbusy]
  · rw [rd_wr_ne _ _ _ _ _ _ _ _ hmax, rd_wr_ne _ _ _ _ _ _ _ _ hlast, rd_wr_ne _ _ _ _ _ _ _ _ hneval,
      rd_setPass_ne _ _ _ hbusy]

theorem rd_passEnd_neval : (s.passEnd n).rd Reg.CLE_PSTAT_NEVAL n = (s.pass_ n).count % 2 ^ 13 := by
  have hlast : Reg.CLE_PSTAT_NEVAL.key n 0 ≠ Reg.CLE_PTIME_LAST.key n 0 := by
    simp only [Field.key, Reg.CLE_PSTAT_NEVAL, Reg.CLE_PTIME_LAST]; omega
  have hmax : Reg.CLE_PSTAT_NEVAL.key n 0 ≠ Reg.CLE_PTIME_MAX.key n 0 := by
    simp only [Field.key, Reg.CLE_PSTAT_NEVAL, Reg.CLE_PTIME_MAX]; omega
  unfold State.passEnd
  dsimp only
  split
  · exact rd_wr_same _ _ _ _ _
  · rw [rd_wr_ne _ _ _ _ _ _ _ _ hmax, rd_wr_ne _ _ _ _ _ _ _ _ hlast]
    exact rd_wr_same _ _ _ _ _

/-- The end of a pass leaves STOP and CHAINERR of its ring, and EN. -/
theorem not_mem_passEndPlaces (x : Field × Nat) (hx : x ∈ [(Reg.CLE_PSTAT_CHAINERR, n), (Reg.CLE_PSTAT_STOP, n), (Reg.CLE_CTL_EN, 0)]) :
    x.1.key x.2 0 ∉ passEndPlaces n := by
  simp only [List.mem_cons, List.not_mem_nil, or_false] at hx
  rcases hx with rfl | rfl | rfl
  all_goals
    simp only [passEndPlaces, List.mem_cons, List.not_mem_nil, or_false, Field.key, Reg.CLE_PSTAT_CHAINERR, Reg.CLE_PSTAT_STOP,
      Reg.CLE_CTL_EN, Reg.CLE_STAT_PBUSY, Reg.CLE_PSTAT_NEVAL, Reg.CLE_PTIME_LAST, Reg.CLE_PTIME_MAX]
    omega

/-! ### Chain errors -/

@[simp] theorem chainErr_landing (l : Nat) : (s.chainErr n l).landing = s.landing := by
  simp [State.chainErr, (State.SparesCle.dip _ 8).landing]

theorem pass_chainErr (l : Nat) : (s.chainErr n l).pass_ n = {} := by
  rw [State.chainErr, pass_of_cle (State.SparesCle.dip _ 8).cle, pass_passEnd_same]

theorem bit_chainErr (l : Nat) (n : Fin 8) : (s.chainErr n l).bit Reg.CLE_PSTAT_CHAINERR n = true := by
  have hcle : Reg.CLE_PSTAT_CHAINERR.InCle n 0 := by revert n; decide
  have hset := bit_setSticky_same (s.wr Reg.CLE_PSTAT_STOP l n) 3 (f := Reg.CLE_PSTAT_CHAINERR) (i := n) rfl
    (key_ne_of_inCle hcle (by decide))
  rwa [State.chainErr, State.bit, (State.SparesCle.dip _ 8).rd hcle,
    rd_passEnd_ne _ _ (not_mem_passEndPlaces n (Reg.CLE_PSTAT_CHAINERR, n) (by simp)), (State.SparesCle.tally _ _ _ _ _ _).rd hcle]

theorem rd_chainErr_stop (l : Nat) (n : Fin 8) : (s.chainErr n l).rd Reg.CLE_PSTAT_STOP n = l % 4096 := by
  have hcle : Reg.CLE_PSTAT_STOP.InCle n 0 := by revert n; decide
  have hne : Reg.CLE_PSTAT_STOP.key n 0 ≠ Reg.CLE_PSTAT_CHAINERR.key n 0 := by revert n; decide
  rw [State.chainErr, (State.SparesCle.dip _ 8).rd hcle,
    rd_passEnd_ne _ _ (not_mem_passEndPlaces n (Reg.CLE_PSTAT_STOP, n) (by simp)),
    (State.SparesCle.tally _ _ _ _ _ _).rd hcle, rd_setSticky_ne _ 3 hne (key_ne_of_inCle hcle (by decide))]
  exact rd_wr_same _ _ _ _ _

/-! ### Clearing EN and CLRMAX -/

/-- What clearing EN makes of the pass of one ring (R461). -/
def State.passDrop (n : Nat) (s : State) : State :=
  match (s.pass_ n).phase with
  | .none => s
  | .ready => s.setPass n {}
  | _ => (s.wr Reg.CLE_PSTAT_STOP (s.pass_ n).loop n).passEnd n

theorem cleDisable_eq : s.cleDisable = (s.wrB Reg.CLE_CTL_EN false).over (upFrom 0 8) State.passDrop := rfl

@[simp] theorem passDrop_landing : (s.passDrop n).landing = s.landing := by unfold State.passDrop; split <;> simp

@[simp] theorem passDrop_cleMem : (s.passDrop n).cleMem = s.cleMem := by unfold State.passDrop; split <;> simp

theorem pass_passDrop_ne {m : Nat} (h : m ≠ n) : (s.passDrop n).pass_ m = s.pass_ m := by
  unfold State.passDrop; split <;> simp [pass_setPass, pass_passEnd, h]

theorem pass_passDrop_phase : ((s.passDrop n).pass_ n).phase = .none := by
  unfold State.passDrop
  split
  next h => exact h
  · simp
  · rw [pass_passEnd_same]

theorem rd_passDrop_en : (s.passDrop n).rd Reg.CLE_CTL_EN = s.rd Reg.CLE_CTL_EN := by
  have hstop : Reg.CLE_CTL_EN.key 0 0 ≠ Reg.CLE_PSTAT_STOP.key n 0 := by simp only [Field.key, Reg.CLE_CTL_EN, Reg.CLE_PSTAT_STOP]; omega
  unfold State.passDrop
  split
  · rfl
  · exact rd_setPass_ne _ _ _ (by decide)
  · rw [rd_passEnd_ne _ _ (not_mem_passEndPlaces n (Reg.CLE_CTL_EN, 0) (by simp)), rd_wr_ne _ _ _ _ _ _ _ _ hstop]

theorem mem_rings (n : Fin 8) : n.val ∈ upFrom 0 8 := mem_upFrom_of_lt (Nat.zero_le _) (by omega)

theorem cleDisable_phase (n : Fin 8) : (s.cleDisable.pass_ n).phase = .none := by
  rw [cleDisable_eq]
  refine State.over_does (P := fun u => (u.pass_ n).phase = .none) (mem_rings n) (fun u => pass_passDrop_phase u n) fun m _ u hu => ?_
  by_cases h : n.val = m
  · subst h; exact pass_passDrop_phase u n
  · rw [pass_passDrop_ne u m h]; exact hu

theorem cleDisable_frame : s.cleDisable.landing = s.landing ∧ s.cleDisable.cleMem = s.cleMem ∧ s.cleDisable.bit Reg.CLE_CTL_EN = false := by
  rw [cleDisable_eq]
  refine State.over_keeps (P := fun u => u.landing = s.landing ∧ u.cleMem = s.cleMem ∧ u.bit Reg.CLE_CTL_EN = false)
    (fun m _ u hu => ?_) ⟨rfl, rfl, ?_⟩
  · simpa [State.bit, rd_passDrop_en] using hu
  · rw [State.bit, State.wrB, rd_wr_same _ Reg.CLE_CTL_EN]; rfl

theorem cleClrmax_max (n : Fin 8) : s.cleClrmax.rd Reg.CLE_PTIME_MAX n = 0 := by
  refine State.over_does (P := fun u => u.rd Reg.CLE_PTIME_MAX n = 0) (mem_rings n) (fun u => rd_wr_same u Reg.CLE_PTIME_MAX 0 _ _) fun m _ u hu => ?_
  by_cases h : n.val = m
  · subst h; exact rd_wr_same u Reg.CLE_PTIME_MAX 0 _ _
  · rw [rd_wr_ne _ _ _ _ _ _ _ _ (by simp only [Field.key, Reg.CLE_PTIME_MAX]; omega)]; exact hu

theorem cleClrmax_last : s.cleClrmax.rd Reg.CLE_PTIME_LAST n = s.rd Reg.CLE_PTIME_LAST n :=
  State.over_keeps (P := fun u => u.rd Reg.CLE_PTIME_LAST n = s.rd Reg.CLE_PTIME_LAST n)
    (fun m _ u hu => (rd_wr_ne _ _ _ _ _ _ _ _ (by simp only [Field.key, Reg.CLE_PTIME_MAX, Reg.CLE_PTIME_LAST]; omega)).trans hu) rfl

theorem cleClrmax_regsOnly : s.cleClrmax = { s with regs := s.cleClrmax.regs } :=
  State.over_keeps (P := fun u => u = { s with regs := u.regs }) (fun m _ u hu => by rw [hu]; rfl) rfl

/-! ### Filter sets -/

theorem fsetCommit_fset (f g : Nat) : (s.fsetCommit f).fset g = if g = f then s.fsetShadow f else s.fset g := tabAt_tabPut _ _ _ _ _

theorem fsetCommit_pend (f : Nat) : (s.fsetCommit f).bit Reg.CLE_FSET_PEND f = false := by
  have hsame : ∀ u : State, u.fset f = u.fsetShadow f → (u.fsetPend f).bit Reg.CLE_FSET_PEND f = false := by
    intro u hu
    rw [State.fsetPend, State.bit, State.wrB, rd_wr_same _ Reg.CLE_FSET_PEND, hu]
    simp [b2n]
  exact hsame _ (tabAt_tabPut_same _ _ _ _)

end Sys2Proof.Machine
end

section
/-! SUPPORT. One evaluation slot of a pass, and the slot of a ring that alone has a pass to run (R51, R65, R66, R68, R85). -/
namespace Sys2Proof.Machine

/-! ### The start of a pass -/

/-- A pass at its first loop (R66). -/
def State.passAtHead (s : State) (n : Nat) : PassSt :=
  { phase := .running, loop := s.rd Reg.CLE_PCH_HEAD n, len := Nat.min 4096 (s.rd Reg.CLE_PCH_LEN n), began := s.time.edge, seg := s.time.edge }

theorem passRun_of_ready {s : State} {n : Nat} (h : (s.pass_ n).phase = .ready) (hlen : s.rd Reg.CLE_PCH_LEN n ≠ 0) :
    s.passRun n = s.setPass n (s.passAtHead n) := by
  simp [State.passRun, h, hlen, State.passAtHead]

theorem passPreempt_of_running {s : State} {n : Nat} (h : (s.pass_ n).phase = .running) :
    s.passPreempt n = s.setPass n { s.pass_ n with phase := .preempted } := if_pos h

theorem passRun_of_preempted {s : State} {n : Nat} (h : (s.pass_ n).phase = .preempted) :
    s.passRun n = s.setPass n { s.pass_ n with phase := .running, seg := s.time.edge, segCount := 0 } := by
  simp [State.passRun, h]

/-! ### A slot -/

section
variable (s : State) (n : Nat)

/-- The state when the present slot of a pass has gone by. -/
def State.slotEnd : State := s.advanceEdge ((s.pass_ n).seg + slotEdges ((s.pass_ n).segCount + 1))

/-- The descriptor of the loop the pass is at, read then. -/
def State.slotDesc : List Cw × State := (s.slotEnd n).lndRead clePort ((s.slotEnd n).loopAt (s.pass_ n).loop) 16

/-- The loop evaluated and the pass moved on to the loop that its CFG names. -/
def State.slotNext : State :=
  ((s.slotDesc n).2.loopEvalAt n (s.pass_ n).loop (s.slotDesc n).1).setPass n
    { s.pass_ n with loop := loOf (s.slotDesc n).1 0 % 4096, count := (s.pass_ n).count + 1, segCount := (s.pass_ n).segCount + 1 }

theorem pass_slotNext : (s.slotNext n).pass_ n = { s.pass_ n with
    loop := loOf (s.slotDesc n).1 0 % 4096, count := (s.pass_ n).count + 1, segCount := (s.pass_ n).segCount + 1 } :=
  pass_setPass_same _ _ _

end

/-- The seal comes first: a slot that ends at it or later evaluates no loop. Before it CFG decides (R48, R65, R85). -/
theorem passStep_eq (s : State) (n : Nat) : s.passStep n =
    if ((s.slotEnd n).ring n).seal_ ≤ (s.slotEnd n).T then (false, s.slotEnd n)
    else if psnOf (s.slotDesc n).1 0 then (false, (s.slotDesc n).2.chainErr n (s.pass_ n).loop)
    else if bitAt (loOf (s.slotDesc n).1 0) 27 then (false, (s.slotNext n).passEnd n)
    else if (s.pass_ n).len ≤ (s.pass_ n).count + 1 then (false, (s.slotNext n).chainErr n (loOf (s.slotDesc n).1 0 % 4096))
    else (true, s.slotNext n) := by
  unfold State.passStep State.slotNext State.slotDesc State.slotEnd
  rfl

/-! ### A ring that alone has a pass -/

theorem passSteps_one (s : State) (n : Nat) : State.passSteps n 1 s = (s.passStep n).2 := by
  simp [State.passSteps]

section
variable {s : State} {n : Nat} (hready : (s.pass_ n).phase = .ready) 
include hready

theorem clePass_of_len_zero (hlen : s.rd Reg.CLE_PCH_LEN n = 0) (k : Nat) : s.clePass n k = s := by
  simp [State.clePass, State.passDue, hready, hlen]

/-- No pass of another ring is preempted or in the way (R51). -/
theorem clePass_one_of_alone (hlone : ∀ m, m ≠ n → (s.pass_ m).phase = .none) (hgens : s.gensDone n = true)
    (hlen : s.rd Reg.CLE_PCH_LEN n ≠ 0) : s.clePass n 1 = ((s.passRun n).passStep n).2 := by
  have hdue : s.passDue n = true := by simp [State.passDue, hready, hgens, hlen]
  have hlower : s.lowerPass n = false := by
    refine List.any_eq_false.mpr fun m hm => ?_
    have hlt := mem_upFrom_lt hm
    simp [State.passDue, hlone m (by omega)]
  have hhigher : s.over (upFrom (n + 1) (7 - n)) (fun m s => s.passPreempt m) = s := by
    refine State.over_idle fun m hm => ?_
    have hlt := mem_upFrom_lt hm
    simp [State.passPreempt, hlone m (by omega)]
  simp [State.clePass, hdue, hlower, hhigher, passSteps_one]

end

end Sys2Proof.Machine
end

section
/-! SUPPORT. The output of a control-law evaluation: the value that the limits or the rate limit let through (R73, R79, R81). -/
namespace Sys2Proof.Machine

/-- A finite value less itself is zero. -/
theorem addExact_opposite (s : Bool) (m : Nat) (e : Int) : (addExact s m e (!s) m e).1 = 0 := by
  cases s with
  | false => exact Int.add_right_neg _
  | true => exact Int.add_left_neg _

theorem fLt_irrefl (f : Fmt) (x : Nat) : fLt f x x = false := by
  have hself : ∀ a : FVal, valLt a a = false := by
    intro a
    cases a with
    | inf s => cases s <;> rfl
    | nan q p => rfl
    | fin s m e =>
      show decide ((addExact s m e (!s) m e).1 < 0) = false
      rw [addExact_opposite, decide_eq_false (Int.lt_irrefl 0)]
  exact hself _

theorem rateF_off {orate : Nat} (h : fGt b32 orate 0 = false) (y yprev p : Nat) : rateF y yprev orate p = (y, 0) := by
  simp [rateF, h]

/-- Limits in order hold what `clampF` answers, NaN limits too: an answer is a limit or a value that passed both comparisons. -/
theorem clampF_within {olo ohi : Nat} (h : fLt b32 ohi olo = false) (v : Nat) :
    fLt b32 (clampF v olo ohi).1 olo = false ∧ fLt b32 ohi (clampF v olo ohi).1 = false := by
  unfold clampF
  dsimp only
  by_cases hlo : fLt b32 v olo = true
  · simp [hlo, h, fLt_irrefl]
  · by_cases hhi : fLt b32 ohi v = true
    · simp [hlo, hhi, h, fLt_irrefl]
    · simp [hlo, hhi]

/-- Without a rate limit the output of every mode is some value held to the limits. -/
theorem LoopRun.compute_y_clamped (r : LoopRun) (h : fGt b32 (hiOf r.d 9) 0 = false) :
    ∃ v, r.compute.y = (clampF v (hiOf r.d 8) (loOf r.d 8)).1 := by
  unfold LoopRun.compute
  extract_lets cfg kp ki kd ohi olo tf orate manout0 toAuto auto yprev startSs fresh df ff copy man target
  have hrate : ∀ y p, rateF y yprev orate p = (y, 0) := fun y p => rateF_off h y yprev p
  -- the filtered input and the working set-point, neither of which bounds the output
  split
  split
  extract_lets sp e xd xprev dterm sTerm fin i1 u kie
  split
  case isTrue hman =>
    simp only [hrate, ite_self]
    exact ⟨man, rfl⟩
  case isFalse hauto =>
    split
    case isTrue htrack => exact ⟨target, rfl⟩
    case isFalse =>
      split
      next v bb _ =>
      simp only [hrate]
      refine ⟨v, ?_⟩
      split <;> rfl

end Sys2Proof.Machine
end

section
/-! The statements about the control-law engine: the passes of the rings and the limits of the output. -/
namespace Sys2Proof.Machine

/-- What the first slot makes of the pass of a ring that alone has work, when it ends before the seal: `r` is the descriptor of the
loop of HEAD as read then, `u` the state with the loop evaluated and the pass moved on (R65, R68, R85). -/
theorem exec_clePass_firstSlot {n : Fin 8} {s : State} (hready : (s.pass_ n).phase = .ready)
    (hlone : ∀ m : Nat, m ≠ n → (s.pass_ m).phase = .none) (hgens : s.gensDone n = true) (hlen : s.rd Reg.CLE_PCH_LEN n ≠ 0) :
    let s1 := (s.passRun n).advanceEdge (s.time.edge + slotEdges 1)
    let r := s1.lndRead clePort (s1.loopAt (s.rd Reg.CLE_PCH_HEAD n)) 16
    let u := (s.passRun n).slotNext n
    let next := loOf r.1 0 % 4096
    s1.T < (s1.ring n).seal_ →
    ((u.pass_ n).phase = .running ∧ (u.pass_ n).count = 1 ∧ (u.pass_ n).loop = next) ∧
    exec (.clePass n 1) s = .next (
      if psnOf r.1 0 then r.2.chainErr n (s.rd Reg.CLE_PCH_HEAD n)
      else if bitAt (loOf r.1 0) 27 then u.passEnd n
      else if s.rd Reg.CLE_PCH_LEN n ≤ 1 then u.chainErr n next
      else u) := by
  intro s1 r u next hseal
  have hpass : (s.passRun n).pass_ n = s.passAtHead n := by rw [passRun_of_ready hready hlen, pass_setPass_same]
  have hend : (s.passRun n).slotEnd n = s1 := by rw [State.slotEnd, hpass]; rfl
  have hdesc : (s.passRun n).slotDesc n = r := by rw [State.slotDesc, hend, hpass]; rfl
  have hmoved : u.pass_ n = { s.passAtHead n with loop := next, count := 1, segCount := 1 } := by
    rw [pass_slotNext, hdesc, hpass]
    rfl
  have hlast : ((s.passAtHead n).len ≤ (s.passAtHead n).count + 1) = (s.rd Reg.CLE_PCH_LEN n ≤ 1) := by
    refine propext ?_
    show min 4096 (s.rd Reg.CLE_PCH_LEN n) ≤ 1 ↔ _
    omega
  refine ⟨by rw [hmoved]; exact ⟨rfl, rfl, rfl⟩, congrArg Host.Outcome.next ?_⟩
  rw [clePass_one_of_alone hready hlone hgens hlen, passStep_eq, hend, hdesc, hpass, if_neg (Nat.not_le.mpr hseal)]
  simp only [hlast, apply_ite Prod.snd]
  rfl

/-- Settles O29: the first slot by the four cases of CFG and LEN, and each command by what it does to one pass or one field. -/
theorem controlLawPassCommands : Obligations.ControlLawPassCommands := by
  refine ⟨fun n s => ?slots, fun n s hrun hlow => ?preempt, fun n s hpre hlow => ?resume,
    fun s => ⟨?disable, ?clrmax, fun f => ?commit⟩⟩
  case slots =>
    intro s1 hd d hready _ hlone hgens hseal
    refine ⟨fun hlen => congrArg Host.Outcome.next (clePass_of_len_zero hready hlen 1), fun hlen => ?_⟩
    obtain ⟨⟨hphase, hcount, hloop⟩, hexec⟩ := exec_clePass_firstSlot hready hlone hgens hlen hseal
    refine ⟨fun hclean hend => ?_, fun hclean hgo hlong => ?_, fun hclean hgo hone => ?_, fun hpsn => ?_⟩
    · rw [if_neg (Bool.eq_false_iff.mp hclean), if_pos hend] at hexec
      exact ⟨_, hexec, pass_passEnd_same _ _, (rd_passEnd_neval _ _).trans (congrArg (· % 2 ^ 13) hcount)⟩
    · rw [if_neg (Bool.eq_false_iff.mp hclean), if_neg (Bool.eq_false_iff.mp hgo), if_neg (Nat.not_le.mpr hlong)] at hexec
      exact ⟨_, hexec, hphase, hcount, hloop⟩
    · rw [if_neg (Bool.eq_false_iff.mp hclean), if_neg (Bool.eq_false_iff.mp hgo), if_pos (Nat.le_of_eq hone)] at hexec
      exact ⟨_, hexec, pass_chainErr _ _ _, bit_chainErr _ _ _⟩
    · rw [if_pos hpsn] at hexec
      exact ⟨_, hexec, pass_chainErr _ _ _, bit_chainErr _ _ _, rd_chainErr_stop _ _ _, chainErr_landing _ _ _⟩
  case preempt =>
    have hexec : exec (.passPreempt n) s = .next (s.passPreempt n) := if_pos hlow
    rw [passPreempt_of_running hrun] at hexec
    exact ⟨_, hexec, pass_setPass_same _ _ _, setPass_landing _ _ _⟩
  case resume =>
    have hexec : exec (.passResume n) s = .next (s.passRun n) := if_pos ⟨hpre, by rw [hlow]; rfl⟩
    rw [passRun_of_preempted hpre] at hexec
    exact ⟨_, hexec, pass_setPass_same _ _ _, by rw [State.bit, State.bit, rd_setPass_ne _ _ _ (by decide)]⟩
  case disable =>
    obtain ⟨hland, hmem, hen⟩ := cleDisable_frame s
    exact ⟨_, rfl, hen, cleDisable_phase s, hland, hmem⟩
  case clrmax => exact ⟨_, rfl, fun n => ⟨cleClrmax_max s n, cleClrmax_last s n⟩, cleClrmax_regsOnly s⟩
  case commit =>
    exact ⟨_, rfl, by rw [fsetCommit_fset, if_pos rfl], fsetCommit_pend s f, fun g hg => by rw [fsetCommit_fset, if_neg hg], rfl⟩

/-- Settles O30: the output of every mode is a value held to the limits, and limits in order hold it. -/
theorem controlOutputWithinLimits : Obligations.ControlOutputWithinLimits := by
  intro r hrate hlimits
  obtain ⟨v, hv⟩ := r.compute_y_clamped hrate
  rw [hv]
  exact clampF_within hlimits v

end Sys2Proof.Machine
end

section
/-! The statement about compare and capture: a vector number that its field cannot hold refutes it. -/
namespace Sys2Proof.Machine
open Sys2Proof.Claims

/-- COMPARE_FIRE of an enabled unit on a feedback channel is a sample of that channel (R111). -/
theorem exec_compareFire_channel {u : Fin 64} {s : State} {q : Int} (hen : s.bit Reg.AXS_CCCFG_EN u = true)
    (hsource : s.ccSource u = some q) (hkind : s.rd Reg.AXS_CCCFG_SRCK u = 0) :
    exec (.compareFire u) s = .next (s.ccSample u q) := by
  have harm : exec (.compareFire u) s = execCompareFire u s := by rfl
  simp [harm, execCompareFire, hen, hsource, hkind]

/-- Unit 0 follows channel 0 from −1 to 0 with one entry queued, at position 0, while source CAP is recorded to ring 34, whose
vectors are enabled and masked. HIF_RCFG.VEC of that ring holds vector 32 × 0xA004 + 1, more than its six bits can hold: the
place of that vector's pending bit, in MSIX_PBA 0xA004, is the place of FIRES of unit 0. No write of a field leaves such a value
(`rd_wr_same`), but the statement is about every state. -/
def vectorPastField : State :=
  let s : State :=
    { hif := { msixOn := true, msixMask := true }
      axs := { units := [(0, { cput := 1, cur := -1, seen := true, judged := true })] } }
  let recording :=
    (((s.wrB Reg.AXS_CCCFG_EN true).wrB Reg.TLY_RSTAT_RUN true).wrB Reg.HIF_RSTAT_RUN true 34).wrB Reg.HIF_RCFG_IEN true 34
  { recording with regs := tabPut 0#32 recording.regs (Reg.HIF_RCFG_VEC.key 34 0) (BitVec.ofNat 32 (32 * 0xA004 + 1)) }

/-- The unit when it has the sample that crosses the entry. -/
def crossingUnit : CcSt :=
  { vectorPastField.cc 0 with prev := (vectorPastField.cc 0).cur, cur := 0, smpAt := vectorPastField.time.edge }

/-- The entry at the head of the queue: position 0, rising. -/
def risingEntry : CcEntry := ⟨0, 0, false, false, 0⟩

theorem ccHead_vectorPastField : ((vectorPastField.setCc 0 crossingUnit).ccHead 0).1 = some risingEntry := by decide +kernel

theorem outen_vectorPastField :
    ((vectorPastField.setCc 0 crossingUnit).ccHead 0).2.bit Reg.AXS_CCCFG_OUTEN 0 = false := by decide +kernel

theorem fires_zero_before_crossing : ((vectorPastField.setCc 0 crossingUnit).ccHead 0).2.rd Reg.AXS_CCCNT_FIRES 0 = 0 := by decide +kernel

/-- The firing counts FIRES to 1, and the pending bit of the vector that announces the record of CGET makes it 3. -/
theorem fires_three_after_crossing : (vectorPastField.ccSample 0 0).rd Reg.AXS_CCCNT_FIRES 0 = 3 := by decide +kernel

/-- Refutes O31: the write of CGET after a firing is recorded, and a vector number wider than HIF_RCFG.VEC has the interrupt
of the record stream set a bit of FIRES, which then is not one more than before. -/
theorem not_axisCompareAndCapture : ¬ Obligations.AxisCompareAndCapture := by
  unfold Obligations.AxisCompareAndCapture AxisAndCompareCommands
  rintro ⟨⟨-, -, hfire, -⟩, -⟩
  have hen : vectorPastField.bit Reg.AXS_CCCFG_EN 0 = true := by decide
  have hsource : vectorPastField.ccSource 0 = some 0 := by decide
  have hkind : vectorPastField.rd Reg.AXS_CCCFG_SRCK 0 = 0 := by decide
  obtain ⟨-, hchannel⟩ := hfire 0 0 risingEntry vectorPastField hen hsource (by decide)
  obtain ⟨-, hcrossed⟩ := hchannel hkind (by decide) (by decide) (by decide) ccHead_vectorPastField
  have hone : Does (.compareFire 0) vectorPastField fun t =>
      t.rd Reg.AXS_CCCNT_FIRES 0 = (((vectorPastField.setCc 0 crossingUnit).ccHead 0).2.rd Reg.AXS_CCCNT_FIRES 0 + 1) % 2 ^ 16 :=
    (hcrossed (by decide) (by decide) (by decide) (by decide) outen_vectorPastField).imp
      fun t ⟨hexec, _, hfires, _⟩ => ⟨hexec, hfires⟩
  obtain ⟨t, hexec, hfires⟩ := hone
  have ht : vectorPastField.ccSample 0 0 = t :=
    Host.Outcome.next.inj ((exec_compareFire_channel (u := 0) hen hsource hkind).symm.trans hexec)
  rw [← ht, fires_three_after_crossing, fires_zero_before_crossing] at hfires
  exact absurd hfires (by decide)

end Sys2Proof.Machine
end

section
/-! The statement about the observer and the records: a vector number that its field cannot hold refutes it. -/
namespace Sys2Proof.Machine

/-- Channel 0 in SSI with its position latched and its frame running, while source FBK is recorded to ring 34, whose vectors are
enabled and masked. HIF_RCFG.VEC of that ring holds vector 32 × 0xDC4D + 1, more than its six bits can hold: the place of that
vector's pending bit, in MSIX_PBA 0xDC4D, is the place of ERRCNT.SSI of the channel. No write of a field leaves such a value
(`rd_wr_same`), but the statement is about every state. -/
def vectorOnErrorCount : State :=
  let s : State := ({ hif := { msixOn := true, msixMask := true } } : State).setFb 0
    { run := true, latch := some ⟨0, 0, 0, 0, 0⟩, frame := some 0 }
  let recording :=
    (((s.wr Reg.FBK_CFG_MODE fmSsi).wrB Reg.TLY_RSTAT_RUN true).wrB Reg.HIF_RSTAT_RUN true 34).wrB Reg.HIF_RCFG_IEN true 34
  { recording with regs := tabPut 0#32 recording.regs (Reg.HIF_RCFG_VEC.key 34 0) (BitVec.ofNat 32 (32 * 0xDC4D + 1)) }

/-- A frame without a start bit (R120). -/
def frameWithoutStart : SsiFrame := ⟨0, false, false, false⟩

/-- ERRCNT.SSI of channel 0 in the next state of an outcome. -/
def errorCountIn : Host.Outcome State Fault Refusal → Nat
  | .next t => t.rd Reg.FBK_ERRCNT_SSI 0
  | _ => 0

theorem errorCount_zero_before_frame : vectorOnErrorCount.rd Reg.FBK_ERRCNT_SSI 0 = 0 := by decide

/-- The bad frame counts ERRCNT.SSI to 1, and the pending bit of the vector that announces the entries of its record makes it 3. -/
theorem errorCount_three_after_frame : errorCountIn (execSsiFrameDone 0 frameWithoutStart vectorOnErrorCount) = 3 := by decide +kernel

/-- Refutes O33: the record of a bad frame is written to the Landing after the frame is counted, and a vector number wider than
HIF_RCFG.VEC has the interrupt of the record stream set a bit of ERRCNT.SSI, which then is not one more than before. -/
theorem not_feedbackObserverAndRecords : ¬ Obligations.FeedbackObserverAndRecords := by
  unfold Obligations.FeedbackObserverAndRecords
  intro h
  obtain ⟨-, -, -, -, -, hrecords, -⟩ := h 0 vectorOnErrorCount
  obtain ⟨-, hframe⟩ := hrecords ⟨0, 0, 0, 0, 0⟩ (by decide)
  obtain ⟨-, hbad⟩ := hframe 0 frameWithoutStart (by decide) (by decide) (by decide +kernel)
  obtain ⟨t, hexec, -, -, -, hcount⟩ := hbad (by decide)
  have harm : exec (.ssiFrameDone 0 frameWithoutStart) vectorOnErrorCount =
      execSsiFrameDone 0 frameWithoutStart vectorOnErrorCount := by rfl
  have ht : t.rd Reg.FBK_ERRCNT_SSI 0 = 3 := by
    have h3 := errorCount_three_after_frame
    rwa [← harm, hexec] at h3
  have hone : t.rd Reg.FBK_ERRCNT_SSI 0 = satAdd 16 (vectorOnErrorCount.rd Reg.FBK_ERRCNT_SSI 0) 1 := hcount
  rw [ht, errorCount_zero_before_frame] at hone
  exact absurd hone (by decide)

end Sys2Proof.Machine
end

section
/-! SUPPORT. A feedback channel: what replacing it leaves, and what its operations keep (R117 to R122). -/
namespace Sys2Proof.Machine

/-! ### One channel replaced -/

section
variable (s : State) (c : Nat) (x : FbSt)

@[simp] theorem fb_setFb : (s.setFb c x).fb c = x := tabAt_tabPut_same _ _ _ _

@[simp] theorem fbMode_setFb (d : Nat) : (s.setFb c x).fbMode d = s.fbMode d := rfl

@[simp] theorem fb_tally (code obj cause val sub : Nat) : (s.tally code obj cause val sub).fb c = s.fb c := by
  rw [State.fb, State.tally_fbk, State.fb]

end

theorem bitAt_lor_pow (v b : Nat) : bitAt (Nat.lor v (2 ^ b)) b = true := by
  have h : (v ||| 2 ^ b).testBit b = true := by rw [Nat.testBit_or, Nat.testBit_two_pow_self, Bool.or_true]
  rw [Nat.testBit_eq_decide_div_mod_eq] at h
  exact beq_iff_eq.mpr (of_decide_eq_true h)

theorem bitAt_note_seen (x : FbSt) (b : Nat) : bitAt (x.note b).seen b = true := bitAt_lor_pow x.seen b

/-! ### Operations on the channels alone -/

/-- `t` is `s` with other channels or stages. -/
structure State.FbkOnly (s t : State) : Prop where
  eq : t = { s with fbk := t.fbk }

namespace State.FbkOnly
variable {s t u : State}

theorem refl (s : State) : s.FbkOnly s := ⟨rfl⟩

theorem trans (h : s.FbkOnly t) (h' : t.FbkOnly u) : s.FbkOnly u := ⟨by rw [h'.eq, h.eq]⟩

theorem ite {p : Prop} [Decidable p] (ht : s.FbkOnly t) (hu : s.FbkOnly u) : s.FbkOnly (if p then t else u) := by
  split <;> assumption

theorem setFb (s : State) (c : Nat) (x : FbSt) : s.FbkOnly (s.setFb c x) := ⟨rfl⟩

theorem regs (h : s.FbkOnly t) : t.regs = s.regs := by rw [h.eq]

theorem landing (h : s.FbkOnly t) : t.landing = s.landing := by rw [h.eq]

theorem ccWatchers (h : s.FbkOnly t) (k n : Nat) : t.ccWatchers k n = s.ccWatchers k n := by rw [h.eq]; rfl

theorem fbReload (s : State) (c : Nat) : s.FbkOnly (s.fbReload c) := ite (setFb _ _ _) (refl s)

theorem ampWarn (s : State) (c : Nat) (b : Bool) : s.FbkOnly (s.ampWarn c b) := setFb _ _ _

theorem ampFault (s : State) (c : Nat) (b : Bool) : s.FbkOnly (s.ampFault c b) :=
  ite (setFb _ _ _) ((setFb _ _ _).trans (fbReload _ _))

theorem fbAmp (s : State) (c m : Nat) : s.FbkOnly (s.fbAmp c m) :=
  have warned := (setFb _ _ _).trans (ite (ampWarn _ _ _) (refl _))
  ite (warned.trans (ampFault _ _ _)) warned

end State.FbkOnly

theorem fb_ampWarn (s : State) (c : Nat) (b : Bool) :
    (s.ampWarn c b).fb c = { s.fb c with ampWarn := b, warnRun := 0 }.note 22 := fb_setFb _ _ _

/-- A channel that reads its period count again (R121) keeps everything else of its decoder. -/
theorem fb_fbReload (s : State) (c : Nat) : (s.fbReload c).fb c =
    if s.fbMode c = fmBoth then { s.fb c with want := true, loaded := false, refok := false, obs := {} } else s.fb c := by
  unfold State.fbReload
  split
  · exact fb_setFb _ _ _
  · rfl

theorem fb_ampFault_set (s : State) (c : Nat) :
    (s.ampFault c true).fb c = ({ s.fb c with ampFlt := true, fltRun := 0, refok := false }.note 21).halt := fb_setFb _ _ _

/-- Where AMPFLT clears, the position stays, and SINCOS+SSI asks for the period count again (R121). -/
theorem fb_ampFault_clear (s : State) (c : Nat) :
    ((s.ampFault c false).fb c).ampFlt = false ∧
    ((s.ampFault c false).fb c).want = ((s.fb c).want || decide (s.fbMode c = fmBoth)) ∧
    ((s.ampFault c false).fb c).pos = (s.fb c).pos := by
  rw [State.ampFault, if_neg Bool.false_ne_true, fb_fbReload, fb_setFb, fbMode_setFb]
  by_cases hboth : s.fbMode c = fmBoth
  · rw [if_pos hboth, decide_eq_true hboth, Bool.or_true]
    exact ⟨rfl, rfl, rfl⟩
  · rw [if_neg hboth, decide_eq_false hboth, Bool.or_false]
    exact ⟨rfl, rfl, rfl⟩

/-! ### Count changes -/

/-- Two states of a channel have the same count, levels and phase, and the same reference. -/
structure FbSt.SameCount (x y : FbSt) : Prop where
  pos : y.pos = x.pos
  qa : y.qa = x.qa
  refok : y.refok = x.refok
  phi : y.phi = x.phi
  pseen : y.pseen = x.pseen

theorem ccNotify_of_unwatched {s : State} {k n : Nat} (h : s.ccWatchers k n = []) (p : Int) : s.ccNotify k n p = s := by
  rw [State.ccNotify, h]
  rfl

/-- A count change of a channel that no compare unit watches moves the flags and the observer, and no count. -/
theorem fbMoved_of_unwatched {s : State} {c : Nat} (h : s.ccWatchers 0 c = []) :
    s.FbkOnly (s.fbMoved c) ∧ (s.fb c).SameCount ((s.fbMoved c).fb c) := by
  unfold State.fbMoved
  dsimp only
  split
  · rw [ccNotify_of_unwatched h]
    exact ⟨.refl s, ⟨rfl, rfl, rfl, rfl, rfl⟩⟩
  · rw [ccNotify_of_unwatched (by exact h)]
    refine ⟨.setFb _ _ _, ?_⟩
    rw [fb_setFb]
    split <;> exact ⟨rfl, rfl, rfl, rfl, rfl⟩

/-- The count after an edge upward, or downward (R117). -/
def FbSt.stepped (x : FbSt) (up : Bool) : Int := sInt 64 (uOf 64 (x.pos + if up then 65536 else -65536))

/-- An edge of A at least eight ticks after the edge before it moves the count by one (R117). -/
theorem fbQuad_edge {s : State} {c : Nat} {a b : Bool} (hseen : (s.fb c).qseen = true) (ha : a ≠ (s.fb c).qa) (hb : b = (s.fb c).qb)
    (hslow : ∀ e, (s.fb c).lastEdge = some e → e + 8 ≤ s.time.edge) :
    s.fbQuad c a b = (s.setFb c { s.fb c with
      qa := a, qb := b, lastEdge := some s.time.edge, pos := (s.fb c).stepped ((a != b) != s.bit Reg.FBK_CFG_INV c) }).fbMoved c := by
  unfold State.fbQuad
  cases hlast : (s.fb c).lastEdge with
  | none => simp [hseen, ha, hb, hlast, FbSt.stepped]
  | some e =>
    have hfast : ¬ s.time.edge < e + 8 := Nat.not_lt.mpr (hslow e hlast)
    simp [hseen, ha, hb, hlast, hfast, FbSt.stepped]

/-- A change of both lines is a phase error: it is counted, the count stays and the reference is lost (R117). -/
theorem fbQuad_phase {s : State} {c : Nat} {a b : Bool} (hseen : (s.fb c).qseen = true) (ha : a ≠ (s.fb c).qa) (hb : b ≠ (s.fb c).qb) :
    ∃ y : FbSt, s.fbQuad c a b = (s.setFb c y).inc Reg.FBK_ERRCNT_PHASE c ∧ y.pos = (s.fb c).pos ∧ y.refok = false := by
  have hnew : ¬(!(s.fb c).qseen) = true := by simp [hseen]
  have hmoved : ¬(a = (s.fb c).qa ∧ b = (s.fb c).qb) := fun h => ha h.1
  unfold State.fbQuad
  rw [if_neg hnew, if_neg hmoved]
  extract_lets fast x0 _ x1
  rw [if_pos ⟨ha, hb⟩]
  refine ⟨(x1.note fbPhase).unref, rfl, ?_, rfl⟩
  show x1.pos = _
  rw [show x1.pos = x0.pos by unfold x1; split <;> rfl]

/-- A sine and cosine sample takes the phase of R118, whatever it makes of the amplitude and of the period count. -/
theorem fbSincos_phase (s : State) (c : Nat) (sn cs : Int) :
    ∃ y : FbSt, s.fbSincos c sn cs = ((s.fbAmp c (ampOf (s.fbTrim c sn cs).1 (s.fbTrim c sn cs).2)).setFb c y).fbMoved c ∧
      y.phi = phase16 (s.fbTrim c sn cs).1 (s.fbTrim c sn cs).2 ∧ y.pseen = true := by
  unfold State.fbSincos
  obtain ⟨y, x_⟩ := s.fbTrim c sn cs
  dsimp -zeta only
  extract_lets s1 x ph d wrap step overrate per pos x1 _ x2 s2
  have hx2 : x2.phi = ph ∧ x2.pseen = true := by unfold x2; split <;> exact ⟨rfl, rfl⟩
  refine ⟨_, rfl, ?_⟩
  split
  · exact hx2
  · exact hx2

/-! ### Z -/

/-- The channel at an armed Z mark: ZPOS takes the position and ZARM is cleared (R122). -/
def State.zLatched (s : State) (c : Nat) : State :=
  ((s.wr Reg.FBK_ZPOSL_POS (uOf 64 (s.fb c).pos) c).wr Reg.FBK_ZPOSH_POS (uOf 64 (s.fb c).pos / 2 ^ 32) c).wrB Reg.FBK_ZCTL_ZARM false c

theorem uOf_lt (w : Nat) (x : Int) : uOf w x < 2 ^ w := by
  have hpos : (0 : Int) < 2 ^ w := Int.pow_pos (by decide)
  rw [uOf, Int.toNat_lt (Int.emod_nonneg x (Int.ne_of_gt hpos)), Int.natCast_pow]
  exact Int.emod_lt_of_pos x hpos

theorem zLatched_position (s : State) (c : Nat) :
    (s.zLatched c).rd Reg.FBK_ZPOSL_POS c + (s.zLatched c).rd Reg.FBK_ZPOSH_POS c * 2 ^ 32 = uOf 64 (s.fb c).pos := by
  have hlow : (s.zLatched c).rd Reg.FBK_ZPOSL_POS c = uOf 64 (s.fb c).pos % 2 ^ 32 := by
    rw [State.zLatched, State.wrB, rd_wr_ne _ _ _ _ _ _ _ _ (by simp only [Field.key, Reg.FBK_ZPOSL_POS, Reg.FBK_ZCTL_ZARM]; omega),
      rd_wr_ne _ _ _ _ _ _ _ _ (by simp only [Field.key, Reg.FBK_ZPOSL_POS, Reg.FBK_ZPOSH_POS]; omega),
      rd_wr_same _ Reg.FBK_ZPOSL_POS]
    rfl
  have hhigh : (s.zLatched c).rd Reg.FBK_ZPOSH_POS c = uOf 64 (s.fb c).pos / 2 ^ 32 % 2 ^ 32 := by
    rw [State.zLatched, State.wrB, rd_wr_ne _ _ _ _ _ _ _ _ (by simp only [Field.key, Reg.FBK_ZPOSH_POS, Reg.FBK_ZCTL_ZARM]; omega),
      rd_wr_same _ Reg.FBK_ZPOSH_POS]
    rfl
  have hlt := uOf_lt 64 (s.fb c).pos
  rw [hlow, hhigh]
  omega

theorem zLatched_disarmed (s : State) (c : Nat) : (s.zLatched c).bit Reg.FBK_ZCTL_ZARM c = false := by
  rw [State.bit, State.zLatched, State.wrB, rd_wr_same _ Reg.FBK_ZCTL_ZARM]
  rfl

/-! ### Error counts -/

theorem rd_inc_same (s : State) (f : Field) (i j n : Nat) (hw : f.w ≤ 32 := by decide) :
    (s.inc f i j n).rd f i j = satAdd f.w (s.rd f i j) n := by
  have hle : satAdd f.w (s.rd f i j) n ≤ 2 ^ f.w - 1 := Nat.min_le_right _ _
  have hpos := Nat.two_pow_pos f.w
  rw [State.inc, rd_wr_same _ _ _ _ _ hw, Nat.mod_eq_of_lt (by omega)]

theorem fbClrerr_counts (s : State) (c : Fin 24) :
    s.fbClrerr.rd Reg.FBK_ERRCNT_PHASE c = 0 ∧ s.fbClrerr.rd Reg.FBK_ERRCNT_SSI c = 0 := by
  have hclear (u : State) (m : Nat) : ((u.wr Reg.FBK_ERRCNT_PHASE 0 m).wr Reg.FBK_ERRCNT_SSI 0 m).rd Reg.FBK_ERRCNT_PHASE m = 0 ∧
      ((u.wr Reg.FBK_ERRCNT_PHASE 0 m).wr Reg.FBK_ERRCNT_SSI 0 m).rd Reg.FBK_ERRCNT_SSI m = 0 := by
    rw [rd_wr_ne _ _ _ _ _ _ _ _ (by simp only [Field.key, Reg.FBK_ERRCNT_PHASE, Reg.FBK_ERRCNT_SSI]; omega)]
    exact ⟨rd_wr_same _ Reg.FBK_ERRCNT_PHASE 0 _ _, rd_wr_same _ Reg.FBK_ERRCNT_SSI 0 _ _⟩
  refine State.over_does (P := fun u => u.rd Reg.FBK_ERRCNT_PHASE c = 0 ∧ u.rd Reg.FBK_ERRCNT_SSI c = 0)
    (mem_upFrom_of_lt (Nat.zero_le _) (by omega)) (fun u => hclear u c) fun m _ u hu => ?_
  by_cases h : c.val = m
  · subst h; exact hclear u c
  · rw [rd_wr_ne _ _ _ _ _ _ _ _ (by simp only [Field.key, Reg.FBK_ERRCNT_PHASE, Reg.FBK_ERRCNT_SSI]; omega),
      rd_wr_ne _ _ _ _ _ _ _ _ (by simp only [Field.key, Reg.FBK_ERRCNT_PHASE]; omega),
      rd_wr_ne _ _ _ _ _ _ _ _ (by simp only [Field.key, Reg.FBK_ERRCNT_SSI]; omega),
      rd_wr_ne _ _ _ _ _ _ _ _ (by simp only [Field.key, Reg.FBK_ERRCNT_PHASE, Reg.FBK_ERRCNT_SSI]; omega)]
    exact hu

theorem fbClrerr_regsOnly (s : State) : s.fbClrerr = { s with regs := s.fbClrerr.regs } :=
  State.over_keeps (P := fun u => u = { s with regs := u.regs }) (fun m _ u hu => by rw [hu]; rfl) rfl

end Sys2Proof.Machine
end

section
/-! The statement about the signals of a position channel. -/
namespace Sys2Proof.Machine

theorem does_next {i : Instr} {s t : State} {P : State → Prop} (hexec : exec i s = .next t) (ht : P t) : Does i s P := ⟨t, hexec, ht⟩

/-- A mark of Z shorter than the filter of INC is none (R122). -/
theorem zMark_short {c : Fin 24} {s : State} {stood : Nat} (hmode : s.fbMode c = fmInc) (hshort : stood < s.rd Reg.FBK_CFG_FILT c) :
    exec (.zMark c stood) s = .next s := by
  have harm : exec (.zMark c stood) s = execZMark c stood s := by rfl
  simp [harm, execZMark, hmode, hshort]

section
variable {c : Fin 24} {s : State} (hrun : (s.fb c).run = true)
include hrun

/-! ### Count changes (R117, R118) -/

theorem exec_countChange_quad {a b : Bool} {stood : Nat} (hmode : s.fbMode c = fmInc) (hfilt : s.rd Reg.FBK_CFG_FILT c ≤ stood) :
    exec (.countChange c (.quad a b stood)) s = .next (s.fbQuad c a b) := by
  have harm : exec (.countChange c (.quad a b stood)) s = execCountChange c (.quad a b stood) s := by rfl
  simp [harm, execCountChange, hrun, hmode, hfilt]

theorem countChange_edge {a b : Bool} {stood : Nat} (hfilt : s.rd Reg.FBK_CFG_FILT c ≤ stood) (hmode : s.fbMode c = fmInc)
    (hseen : (s.fb c).qseen = true) (hfree : s.ccWatchers 0 c = []) (ha : a ≠ (s.fb c).qa) (hb : b = (s.fb c).qb)
    (hslow : ∀ e, (s.fb c).lastEdge = some e → e + 8 ≤ s.time.edge) : Does (.countChange c (.quad a b stood)) s fun t =>
      (t.fb c).pos = sInt 64 (uOf 64 ((s.fb c).pos + if (a != b) != s.bit Reg.FBK_CFG_INV c then 65536 else -65536)) ∧
      (t.fb c).qa = a ∧ (t.fb c).refok = (s.fb c).refok ∧ t.landing = s.landing ∧ t.regs = s.regs := by
  have hexec := exec_countChange_quad hrun (a := a) (b := b) hmode hfilt
  rw [fbQuad_edge hseen ha hb hslow] at hexec
  obtain ⟨honly, hcount⟩ := fbMoved_of_unwatched (c := c) (((State.FbkOnly.setFb s c _).ccWatchers 0 c).trans hfree)
  refine ⟨_, hexec, hcount.pos.trans ?_, hcount.qa.trans ?_, hcount.refok.trans ?_, honly.landing, honly.regs⟩
  all_goals rw [fb_setFb]
  rfl

theorem countChange_phase {a b : Bool} {stood : Nat} (hfilt : s.rd Reg.FBK_CFG_FILT c ≤ stood) (hmode : s.fbMode c = fmInc)
    (hseen : (s.fb c).qseen = true) (ha : a ≠ (s.fb c).qa) (hb : b ≠ (s.fb c).qb) : Does (.countChange c (.quad a b stood)) s fun t =>
      (t.fb c).pos = (s.fb c).pos ∧ (t.fb c).refok = false ∧
      t.rd Reg.FBK_ERRCNT_PHASE c = satAdd 16 (s.rd Reg.FBK_ERRCNT_PHASE c) 1 ∧ t.landing = s.landing := by
  have hexec := exec_countChange_quad hrun (a := a) (b := b) hmode hfilt
  obtain ⟨y, hquad, hpos, hrefok⟩ := fbQuad_phase hseen ha hb
  rw [hquad] at hexec
  have hfb : ((s.setFb c y).inc Reg.FBK_ERRCNT_PHASE c).fb c = y := fb_setFb s c y
  exact ⟨_, hexec, by rw [hfb, hpos], by rw [hfb, hrefok], rd_inc_same _ Reg.FBK_ERRCNT_PHASE _ _ _, rfl⟩

theorem countChange_sincos (sn cs : Int) (hmode : s.fbMode c = fmSincos) (hfree : s.ccWatchers 0 c = []) :
    Does (.countChange c (.sincos sn cs)) s fun t =>
      (t.fb c).phi = phase16 (s.fbTrim c sn cs).1 (s.fbTrim c sn cs).2 ∧ (t.fb c).pseen = true ∧ t.landing = s.landing := by
  have harm : exec (.countChange c (.sincos sn cs)) s = execCountChange c (.sincos sn cs) s := by rfl
  have hexec : exec (.countChange c (.sincos sn cs)) s = .next (s.fbSincos c sn cs) := by simp [harm, execCountChange, hrun, hmode]
  obtain ⟨y, hsample, hphi, hseen⟩ := fbSincos_phase s c sn cs
  rw [hsample] at hexec
  have hamp := State.FbkOnly.fbAmp s c (ampOf (s.fbTrim c sn cs).1 (s.fbTrim c sn cs).2)
  have hset := hamp.trans (.setFb _ c y)
  obtain ⟨honly, hcount⟩ := fbMoved_of_unwatched (c := c) ((hset.ccWatchers 0 c).trans hfree)
  refine ⟨_, hexec, hcount.phi.trans ?_, hcount.pseen.trans ?_, honly.landing.trans hset.landing⟩
  · rw [fb_setFb, hphi]
  · rw [fb_setFb, hseen]

/-! ### Amplitude and line faults (R119, R121) -/

theorem ampWarnSet_warns {m : BitVec 16} (hwarn : (s.fb c).ampWarn = false) (hout : s.outWarn c m.toNat = true) :
    Does (.ampWarnSet c m) s fun t =>
      (t.fb c).ampWarn = true ∧ bitAt (t.fb c).seen 22 = true ∧ (t.fb c).amp = m.toNat ∧ t.regs = s.regs := by
  have harm : exec (.ampWarnSet c m) s = execAmpWarnSet c m s := by rfl
  refine does_next (t := (s.setFb c { s.fb c with amp := m.toNat }).ampWarn c true) (by simp [harm, execAmpWarnSet, hrun, hwarn, hout]) ?_
  rw [fb_ampWarn, fb_setFb]
  exact ⟨rfl, bitAt_note_seen _ 22, rfl, rfl⟩

theorem ampWarnClear_clears {m : BitVec 16} (hwarn : (s.fb c).ampWarn = true) (hin : s.outWarn c m.toNat = false) :
    Does (.ampWarnClear c m) s fun t => (t.fb c).ampWarn = false ∧ (t.fb c).amp = m.toNat ∧ t.regs = s.regs := by
  have harm : exec (.ampWarnClear c m) s = execAmpWarnClear c m s := by rfl
  refine does_next (t := (s.setFb c { s.fb c with amp := m.toNat }).ampWarn c false) (by simp [harm, execAmpWarnClear, hrun, hwarn, hin]) ?_
  rw [fb_ampWarn, fb_setFb]
  exact ⟨rfl, rfl, rfl⟩

theorem ampFaultSet_faults {m : BitVec 16} (hflt : (s.fb c).ampFlt = false) (hout : s.outFault c m.toNat = true) :
    Does (.ampFaultSet c m) s fun t => (t.fb c).ampFlt = true ∧ (t.fb c).refok = false ∧ bitAt (t.fb c).seen 21 = true ∧
      (t.fb c).pos = (s.fb c).pos := by
  have harm : exec (.ampFaultSet c m) s = execAmpFaultSet c m s := by rfl
  refine does_next (t := (s.setFb c { s.fb c with amp := m.toNat }).ampFault c true) (by simp [harm, execAmpFaultSet, hrun, hflt, hout]) ?_
  rw [fb_ampFault_set, fb_setFb]
  exact ⟨rfl, rfl, bitAt_note_seen _ 21, rfl⟩

theorem ampFaultClear_clears {m : BitVec 16} (hflt : (s.fb c).ampFlt = true) (hin : s.outFault c m.toNat = false) :
    Does (.ampFaultClear c m) s fun t => (t.fb c).ampFlt = false ∧
      (t.fb c).want = ((s.fb c).want || decide (s.fbMode c = fmBoth)) ∧ (t.fb c).pos = (s.fb c).pos := by
  have harm : exec (.ampFaultClear c m) s = execAmpFaultClear c m s := by rfl
  refine ⟨(s.setFb c { s.fb c with amp := m.toNat }).ampFault c false, by simp [harm, execAmpFaultClear, hrun, hflt, hin], ?_⟩
  obtain ⟨hcleared, hwant, hpos⟩ := fb_ampFault_clear (s.setFb c { s.fb c with amp := m.toNat }) c
  rw [fb_setFb] at hwant hpos
  exact ⟨hcleared, hwant, hpos⟩

theorem lineFault_faults : Does (.lineFault c) s fun t =>
    (t.fb c).line = true ∧ (t.fb c).refok = false ∧ (t.fb c).posok (t.fbMode c) = false := by
  have harm : exec (.lineFault c) s = execLineFault c s := by rfl
  refine does_next (t := s.setFb c (({ s.fb c with line := true, refok := false }.note fbLine).halt)) (by simp [harm, execLineFault, hrun]) ?_
  rw [fb_setFb]
  exact ⟨rfl, rfl, by simp [FbSt.posok, FbSt.halt, FbSt.note]⟩

theorem lineClear_clears (hline : (s.fb c).line = true) : Does (.lineClear c) s fun t => (t.fb c).line = false ∧ (t.fb c).pos = (s.fb c).pos := by
  have harm : exec (.lineClear c) s = execLineClear c s := by rfl
  refine does_next (t := (s.setFb c ({ s.fb c with line := false }.note fbLine)).fbReload c) (by simp [harm, execLineClear, hrun, hline]) ?_
  rw [fb_fbReload, fb_setFb]
  split <;> exact ⟨rfl, rfl⟩

/-! ### Z marks (R122) -/

variable {stood : Nat} (hfilt : s.fbMode c = fmInc → s.rd Reg.FBK_CFG_FILT c ≤ stood)
include hfilt

/-- A mark that the filter accepts is looked at. -/
theorem zMark_accepted : ¬((!(s.fb c).run || (decide (s.fbMode c = fmInc) && decide (stood < s.rd Reg.FBK_CFG_FILT c))) = true) := by
  simpa [hrun] using hfilt

theorem zMark_armed (harmed : s.bit Reg.FBK_ZCTL_ZARM c = true) : Does (.zMark c stood) s fun t =>
    t.bit Reg.FBK_ZCTL_ZARM c = false ∧
    (t.fb c).refok = (!(s.fb c).line && (decide (s.fbMode c ≠ fmBoth) || (s.fb c).loaded)) ∧
    t.rd Reg.FBK_ZPOSL_POS c + t.rd Reg.FBK_ZPOSH_POS c * 2 ^ 32 = uOf 64 (s.fb c).pos := by
  have harm : exec (.zMark c stood) s = execZMark c stood s := by rfl
  have hexec : exec (.zMark c stood) s = .next ((s.zLatched c).setFb c { (s.fb c).reref (s.fbMode c) with zref := true }) := by
    rw [harm, execZMark, if_neg (zMark_accepted hrun hfilt), if_pos harmed]
    rfl
  refine ⟨_, hexec, zLatched_disarmed s c, ?_, zLatched_position s c⟩
  rw [fb_setFb]
  rfl

theorem exec_zMark_check (hdisarmed : s.bit Reg.FBK_ZCTL_ZARM c = false) (hzref : (s.fb c).zref = true)
    (hcpr : s.rd Reg.FBK_ZCFG_CPR c ≠ 0) :
    let z := sInt 64 (s.rd Reg.FBK_ZPOSL_POS c + s.rd Reg.FBK_ZPOSH_POS c * 2 ^ 32)
    let turn : Int := 65536 * s.rd Reg.FBK_ZCFG_CPR c
    let r := ((s.fb c).pos - z) % turn
    let tol : Int := 65536 * s.rd Reg.FBK_ZCFG_ZTOL c
    exec (.zMark c stood) s = .next (if r ≤ tol ∨ turn - tol ≤ r then s
      else (s.setFb c ((s.fb c).note fbZErr).unref).tally 0x0501 c 0 (uOf 64 ((s.fb c).pos / 65536))) := by
  intro z turn r tol
  have harm : exec (.zMark c stood) s = execZMark c stood s := by rfl
  have hcheck : ¬((!(s.fb c).zref || decide (s.rd Reg.FBK_ZCFG_CPR c = 0)) = true) := by simp [hzref, hcpr]
  rw [harm, execZMark, if_neg (zMark_accepted hrun hfilt), if_neg (Bool.eq_false_iff.mp hdisarmed), if_neg hcheck]
  exact (apply_ite Host.Outcome.next _ _ _).symm

end

/-- Settles O32: each signal by what it makes of the channel, a count change by the edge or the phase error that it is. -/
theorem feedbackSignals : Obligations.FeedbackSignals := by
  refine ⟨?channel, fun c s => ⟨_, rfl, ?zArm, rfl⟩, fun s => ⟨_, rfl, fbClrerr_counts s, fbClrerr_regsOnly s⟩⟩
  case zArm =>
    rw [State.bit, State.zArm, State.wrB, rd_wr_same _ Reg.FBK_ZCTL_ZARM]
    rfl
  intro c s x hrun
  refine ⟨fun a b stood hfilt hmode hseen hfree ha => ⟨?edge, ?phase⟩, ?sincos, fun m => ⟨?warn, ?warnEnd, ?fault, ?faultEnd⟩,
    lineFault_faults hrun, lineClear_clears hrun, ?short, ?armed, ?check⟩
  case edge => exact fun hb hslow => countChange_edge hrun hfilt hmode hseen hfree ha hb hslow
  case phase => exact fun hb => countChange_phase hrun hfilt hmode hseen ha hb
  case sincos => exact fun sn cs hmode hfree => countChange_sincos hrun sn cs hmode hfree
  case warn => exact ampWarnSet_warns hrun
  case warnEnd => exact ampWarnClear_clears hrun
  case fault => exact ampFaultSet_faults hrun
  case faultEnd => exact ampFaultClear_clears hrun
  case short => exact fun stood hmode hshort => zMark_short hmode hshort
  case armed => exact fun stood hfilt harmed => zMark_armed hrun hfilt harmed
  case check =>
    intro stood hfilt z cpr turn r tol hdisarmed hzref hcpr
    have hexec := exec_zMark_check hrun hfilt hdisarmed hzref hcpr
    refine ⟨fun hin => hexec.trans (congrArg Host.Outcome.next (if_pos hin)), fun hlow hhigh => ?_⟩
    have hout : ¬(r ≤ tol ∨ turn - tol ≤ r) := by omega
    refine does_next (hexec.trans (congrArg Host.Outcome.next (if_neg hout))) ?_
    rw [fb_tally, fb_setFb]
    exact ⟨rfl, bitAt_note_seen x 15, rfl, State.tally_landing _ _ _ _ _ _⟩

end Sys2Proof.Machine
end

section
/-! The statement about converters and DACs: a vector number that its field cannot hold refutes it. -/
namespace Sys2Proof.Machine
open Sys2Proof.Claims

/-- DAC 0 at reset, on ring 0 with scale 1 and offset 0 and its slot at 0, while its output is recorded to ring 34, whose vectors
are enabled and masked. HIF_RCFG.VEC of that ring holds vector 32 × 0x11E02 + 30, more than its six bits can hold: the place of
that vector's pending bit, bit 30 of MSIX_PBA 0x11E02, is the place of CNV_DOFS of the DAC. No write of a field leaves such a
value (`rd_wr_same`), but the statement is about every state. -/
def vectorOnDacOffset : State :=
  let masked : State := { hif := { msixOn := true, msixMask := true } }
  let recording := ((masked.wrB Reg.TLY_RSTAT_RUN true).wrB Reg.HIF_RSTAT_RUN true 34).wrB Reg.HIF_RCFG_IEN true 34
  { recording with regs := tabPut 0#32 recording.regs (Reg.HIF_RCFG_VEC.key 34 0) (BitVec.ofNat 32 (32 * 0x11E02 + 30)) }

theorem slot_clean_vectorOnDacOffset :
    (vectorOnDacOffset.lndRead cnvPort (vectorOnDacOffset.rd Reg.CNV_DBASE_BASE * 64 + 4 * 0) 1).1 = [Cw.zero] := by
  decide +kernel

/-- The slot gives code 0 while the offset is 0. -/
theorem dacCode_zero_before_seal : vectorOnDacOffset.dacCode 0 0 = some 0 := by decide +kernel

/-- The record of the slot, made before the code is, announces itself: its pending bit makes the offset 2.0, and the code 2. -/
theorem code_two_after_seal : ((vectorOnDacOffset.dacSeal1 0 0).dac 0).code = some 2 := by decide +kernel

/-- Refutes O34: at a seal the slot of a DAC is recorded before its code is made, and a vector number wider than HIF_RCFG.VEC has
the interrupt of the record stream set a bit of the DAC's offset, so that the latched code is not that of the slot. -/
theorem not_converterAndDac : ¬ Obligations.ConverterAndDac := by
  unfold Obligations.ConverterAndDac DacLatchesAndApplies
  rintro ⟨-, hdac⟩
  obtain ⟨hlatch, -⟩ := hdac 0 0 vectorOnDacOffset
  have hcode : ((vectorOnDacOffset.dacSeal1 0 0).dac 0).code = some (clampI (-32768) 32767 0) :=
    hlatch Cw.zero 0 slot_clean_vectorOnDacOffset rfl dacCode_zero_before_seal
  rw [code_two_after_seal] at hcode
  exact absurd hcode (by decide)

end Sys2Proof.Machine
end
